-- ==== Sys2Proof/Word.lean ====
section
/-! DEFINITION. The word types of the LT9 and the sparse maps its tables are held in.
Little-endian throughout (R8); a map lists its keys strictly rising and an unlisted key has the
reader's default. -/

namespace Sys2Proof

/-- One byte (R8). -/
abbrev Byte := BitVec 8

/-- A 32-bit word: an FP32 value, a token id, a register word. -/
abbrev Word32 := BitVec 32

/-- A 64-bit word: a 64-bit register, a seed, a global address. -/
abbrev Word64 := BitVec 64

/-- A 64-byte descriptor (Table 02-2), byte 0 in bits 7..0. -/
abbrev DescWord := BitVec 512

/-- A 512-byte request block (Table 02-10), byte 0 in bits 7..0. -/
abbrev BlockWord := BitVec 4096

/-- A sparse table: key and value pairs, keys strictly rising. -/
abbrev FMap (α : Type) := List (Nat × α)

end Sys2Proof
end

