-- ==== Sys2Proof/Syntax.lean ====
section
/-! DEFINITION. The commands of the LT9: one constructor of Instr for each row of
spec/opcode_table.json, with the operands the spec gives the event, and the plain records those
operands are made of. A command is one event at the block's boundary: a host write, a pin, a
message, or the end of work one of its engines was doing. -/

namespace Sys2Proof

/-! ## What the outside world hands over -/

/-- One range the host IOMMU translates (R30, R49): `size` bytes at `base` under `pasid` reach
host memory from `target` on. -/
structure IommuRange where
  pasid : Nat
  base : Nat
  size : Nat
  target : Nat
  read : Bool
  write : Bool
  deriving DecidableEq, Repr

/-- What host software has done to its own memory and its IOMMU since the command before: bytes
written at host addresses, and new translations where it changed them. -/
structure HostUpdate where
  writes : List (Nat × List Byte)
  ranges : Option (List IommuRange)
  deriving DecidableEq, Repr

/-- The copy of a request block that the LT9 keeps (R42): the 512 bytes, the logit-bias entries and
the stop-sequence records it names. -/
structure RequestCopy where
  block : BlockWord
  bias : List (Nat × Word32)
  stops : List (List Nat)
  deriving DecidableEq, Repr

/-- A fetched descriptor (R33): its tenant, queue pair and place in the SQ, the 64 bytes, the
request copy of an OPEN, and the outcome of checks 1 to 7 when one of them failed (status and
detail, R35). -/
structure Fetched where
  tenant : Nat
  qp : Nat
  index : Nat
  desc : DescWord
  req : Option RequestCopy
  early : Option (Nat × Nat)
  deriving DecidableEq, Repr

/-- A recovery domain (Table 14-2): its code, its quadrant (0 where it has none) and its number. -/
structure DomainId where
  code : Nat
  quad : Nat
  inst : Nat
  deriving DecidableEq, Repr

/-- The header of an NBU job (Table 07-3) with the operands of Table 07-4. -/
structure Job where
  kind : Nat
  cont : Bool
  emit : Bool
  fourBit : Bool
  span : Nat
  bank : Nat
  tag : Word32
  row : Nat
  column : Nat
  count : Nat
  inOff : Nat
  outOff : Nat
  rows : Nat
  headDim : Nat
  reserved : Nat
  committed : Nat
  pageBase : Nat
  window : Nat
  scale : Word32
  first : Nat
  outputs : Nat
  format : Nat
  group : Nat
  scaleOff : Nat
  elemType : Nat
  width : Nat
  rowFormat : Nat
  bags : Nat
  deriving DecidableEq, Repr

/-- The functions of the VE's transcendental units (R121). -/
inductive VeFunction where
  | exp | log | recip | rsqrt | sin | cos | tanh | erf
  deriving DecidableEq, Repr

/-- One operation of an engine that the timetable of a step places (R15 to R24). Buffers are named
by their staging-SRAM address. -/
inductive EngineOp where
  /-- a job on the NBU of quadrant, layer and quad, with its input area (R151, R152) -/
  | nbu (q l quad : Nat) (job : Job) (input : List Byte)
  /-- a projection of the tensor of a model slot on the DA, or on the PA for a prompt token: one activation
  row of BF16 words in, FP32 out (R109 to R112, R128, R129) -/
  | project (prompt : Bool) (q slot tensor input output rowBlock : Nat)
  /-- prompt attention over a page slot read across the bond path, one partial a row (R136) -/
  | promptAttend (q l quad : Nat) (job : Job) (input : List Byte) (output : Nat)
  /-- a merge of attention partials, each a buffer m, l, o (R159) -/
  | merge (parts : List Nat) (output : Nat)
  /-- the attention output o * recip l of a merged partial, written back as BF16 (R159, R160) -/
  | attendOut (part output : Nat)
  /-- BF16 activations to FP8 with a block scale per 32, and back to their exact values (R116) -/
  | actQuant (input output : Nat)
  /-- the KV quantisation round trip of R20 on groups of 32 FP32 values (R117 to R120) -/
  | kvQuant (q input output fmt : Nat)
  /-- the adapter's output t + (c * Bu) (R133) -/
  | adapterAdd (target lowRank output : Nat) (scale : Word32)
  /-- an element-wise FP32 sum (residual additions, R113) -/
  | vectorAdd (a b output : Nat)
  /-- an element-wise FP32 product (R140) -/
  | vectorMul (a b output : Nat)
  /-- a transcendental unit on every element (R121) -/
  | function (f : VeFunction) (input output : Nat)
  /-- cosine and sine of the rotary angle of a dimension pair at a position (R122) -/
  | rotary (slot pair position output : Nat)
  /-- the pairwise tree over ascending element index (norms, R113) -/
  | treeSum (input output : Nat)
  /-- buffers added in the order given (expert outputs, R113) -/
  | orderedSum (parts : List Nat) (output : Nat)
  /-- BF16 words read as FP32, exact (R114) -/
  | widen (input output : Nat)
  /-- an element-wise FP32 fused multiply-add (R140) -/
  | vectorFma (a b c output : Nat)
  /-- VE write-back of FP32 as BF16 (R114) -/
  | writeBack (input output : Nat)
  /-- a buffer of FP32 logits goes to the SU as the logits of a row of a context (R123, R226) -/
  | toSampler (ctx row buffer : Nat)
  deriving DecidableEq, Repr

/-- What a boundary takes from outside (R25): the host's changes, the greatest control average of
input power since the previous row 10 in 0.1 W (R398), the greatest layer temperature since then
in 0.25 degrees for each layer that was read (R170), and the outcome of each retest or self-test
of row 6 that failed (R355). -/
structure BoundaryInput where
  host : HostUpdate
  powerPeak : Nat
  layerTemps : List (Nat × Int)
  failedRetests : List DomainId
  deriving DecidableEq, Repr

/-- One row of a mixture-of-experts layer at its routing point (R17): the row, whether it is a
prompt token, and the layer's experts in descending order of the row's router scores. -/
structure RouteRow where
  row : Nat
  prompt : Bool
  ranked : List Nat
  deriving DecidableEq, Repr

/-- How a data error names what it struck (R281, R367, R368). -/
inductive Damaged where
  | block (n : Nat)
  | kvGroup (lgn : Nat)
  | recurrent (ctx : Nat)
  | spillImage (lgn : Nat)
  | historyChunk (lgn : Nat)
  | journalRecord (ctx : Nat) (step : Nat)
  | atomicTarget (address : Nat)
  deriving DecidableEq, Repr

/-- The data errors of Table 10-8. -/
inductive DataErr where
  | t0Ue | tierUe | imageCrc | codecOverrun | codecShort | codecTable | holdTimeout
  deriving DecidableEq, Repr

/-- The path of a register write (R428): PF BAR0, or the VF BAR of a tenant. -/
inductive RegPath where
  | pf
  | vf (tenant : Nat)
  deriving DecidableEq, Repr

/-- Why a cold reset happens (R401). -/
inductive ColdCause where
  | perst | register | sideband | bootFail
  deriving DecidableEq, Repr

/-- Why a warm reset happens (R401). -/
inductive WarmCause where
  | hotReset | pfFlr | register | sideband
  deriving DecidableEq, Repr

/-- What an MSI-X change unmasks (R457): the capability's two bits, or one table entry. -/
inductive MsixChange where
  | capability (enable functionMask : Bool)
  | entry (vector : Nat) (address : Word64) (data : Word32) (masked : Bool)
  deriving DecidableEq, Repr

/-- The header fields of a Nuxus message that its receiver acts on (Table 12-4). -/
structure MsgHead where
  source : Nat
  tag : Nat
  epoch : Nat
  address : Word64
  length : Nat
  tenant : Nat
  step : Nat
  deriving DecidableEq, Repr

/-- What a ROLE_SET names (R326). -/
structure RoleGrant where
  role : Nat
  position : Nat
  manager : Nat
  domainManager : Nat
  level : Nat
  newEpoch : Nat
  leaving : Option Nat
  deriving DecidableEq, Repr

/-- One page edit of a STEP_PLAN (R329). -/
structure PlanEdit where
  lgn : Nat
  action : Nat
  fill : Nat
  ctx : Nat
  page : Nat
  deriving DecidableEq, Repr

/-- The parts of a STEP_PLAN that a member keeps (R329). -/
structure PlanBody where
  slot : Nat
  mode : Nat
  cls : Nat
  variant : Nat
  steps : Nat
  starts : List Nat
  rows : List (Nat × Nat)
  edits : List PlanEdit
  deriving DecidableEq, Repr

/-- A member's report in READY (R304, R328, R330): its slots (slot, state, package hash, head span, expert
span), the active DA and PA tiles of its quadrants, the variant it needs. -/
structure ReadyBody where
  position : Nat
  readyTime : Nat
  slots : List (Nat × Nat × Nat × Nat × Nat)
  da : List Nat
  pa : List Nat
  hot : Bool
  derated : Bool
  level : Nat
  deriving DecidableEq, Repr

/-- One flit (Table 12-2) as its receiver sees it: the fields, and whether the CRC and the FEC
codewords were good. -/
structure Flit where
  kind : Nat
  vc : Nat
  sequence : Nat
  ack : Nat
  nak : Bool
  creditVc : Nat
  credit : Nat
  destination : Nat
  source : Nat
  good : Bool
  reserved : Nat
  responds : Bool
  /-- The messages the flit ends are well formed (R316): a known type, no reserved bit set, a
  length in the type's range. -/
  wellTyped : Bool
  deriving DecidableEq, Repr

/-- The outcome of one direction's lane test (R307): the lanes with more than 2,240 errors. -/
structure LaneTest where
  failing : List Nat
  eye : List Nat
  deriving DecidableEq, Repr

/-- What a HELLO carries and whether the peer's two signatures verified (R308, R386). -/
structure Hello where
  moduleId : Nat
  domainId : Nat
  role : Nat
  epoch : Nat
  identityOk : Bool
  deriving DecidableEq, Repr

/-- The four stamps and two corrections of a TIME REPLY (Table 13-2), in 2^-16 ns, with the
manager's full time in ns and the arrival stamp. -/
structure TimeReplyBody where
  sequence : Nat
  t1 : Nat
  t2 : Nat
  t3 : Nat
  t4 : Nat
  requestCorrection : Nat
  replyCorrection : Nat
  managerTime : Nat
  deriving DecidableEq, Repr

/-- A signed command as the security core reads it (Table 15-3): the record's fields, which
signature checks of R380 pass, the payload's keys or bundle. -/
structure SignedCommand where
  payloadLength : Nat
  identity : Word64
  nonce : BitVec 256
  payloadHash : BitVec 384
  payload : List Byte
  reservedZero : Bool
  signedByOwner : Bool
  signedByZuloth : Bool
  deriving DecidableEq, Repr

/-- One image of a firmware bundle (R382). -/
structure FwImage where
  svn : Nat
  rsaOk : Bool
  slhOk : Bool
  version : Word64
  digest : BitVec 384
  deriving DecidableEq, Repr

/-- A firmware bundle (R382): security core, control core and training images. -/
structure FwBundle where
  security : FwImage
  control : FwImage
  training : FwImage
  deriving DecidableEq, Repr

/-- One scrub finding (R266, R365): a lower-tier frame and the bursts it needed corrected. -/
structure ScrubFinding where
  tier : Nat
  frame : Nat
  corrected : Nat
  uncorrectable : Bool
  deriving DecidableEq, Repr

/-- A repair named at the JTAG port (R414). -/
structure Repair where
  isRow : Bool
  quad : Nat
  layer : Nat
  bank : Nat
  line : Nat
  deriving DecidableEq, Repr

/-! ## The commands -/

/-- The commands, in the table's order. -/
inductive Instr where
  -- queues and doorbells
  | doorbellInvalidate (tenant qp : Nat) (host : HostUpdate)
  | doorbellPoll (tenant qp : Nat) (host : HostUpdate)
  | atsInvalidation (pasid base size : Nat) (host : HostUpdate)
  -- descriptors taking effect
  | openSeq (d : Fetched)
  | append (d : Fetched)
  | pause (d : Fetched)
  | resume (d : Fetched)
  | cancel (d : Fetched)
  | close (d : Fetched)
  | exportPrefix (d : Fetched)
  | importPrefix (d : Fetched)
  | dropPrefix (d : Fetched)
  | embedLookup (d : Fetched)
  | query (d : Fetched)
  | fence (d : Fetched)
  | loadModel (d : Fetched)
  | unloadModel (d : Fetched)
  | loadAdapter (d : Fetched)
  | unloadAdapter (d : Fetched)
  | loadTable (d : Fetched)
  | replay (d : Fetched)
  | setTenant (d : Fetched)
  -- the loader and the step
  | loadFinish (host : HostUpdate)
  | sweepDone (slot tensor : Nat)
  | stepBoundary (input : BoundaryInput)
  | waitPeriod
  | stepStart (work : List EngineOp)
  | routingPoint (layer : Nat) (routes : List RouteRow)
  | holdPoint (blocks : List Nat)
  | holdTimeout (block : Nat)
  | hostWindow (q layer : Nat)
  -- faults met in a step, and transfers
  | timingFault (domain : DomainId) (unit slot : Nat)
  | controlFault (domain : DomainId) (unit slot : Nat) (commandError : Bool)
  | dataError (target : Damaged) (err : DataErr) (consumed : Bool)
  | refetchDone (block : Nat) (ok : Bool)
  | promotionDone (block : Nat) (err : Option DataErr)
  | demotionDone (block : Nat) (err : Option DataErr)
  | spillDone (lgn : Nat)
  | prefetchDone (lgn : Nat) (ok : Bool)
  | tailCopyDone (ctx : Nat)
  | diversionCopyDone (q layer quad : Nat)
  | prefixHashDone (ctx page : Nat)
  | prefixLookupDone (ctx : Nat)
  | scrubPass (findings : List ScrubFinding)
  -- CXL.mem and sluice commands
  | cxlMemRead (address : Nat)
  | cxlMemWrite (address : Nat) (data : List Byte)
  | sluiceSeal (block : Nat)
  | sluiceUnseal (block : Nat)
  | sluiceRelease (block : Nat)
  -- registers
  | qpEnable (path : RegPath) (tenant qp : Nat)
  | qpDisable (path : RegPath) (tenant qp : Nat)
  | moderationWrite (path : RegPath) (tenant vector count time : Nat)
  | vectorTimeThreshold (tenant vector : Nat)
  | msixUnmask (tenant : Nat) (change : MsixChange)
  | latchCapture (path : RegPath) (time : Bool) (tenant : Nat) (latches : BitVec 2)
  | tenantSeal (path : RegPath) (tenant : Nat)
  | sealSet (bits : BitVec 6)
  | registerWrite (path : RegPath) (offset size : Nat) (value : Word64)
  -- resets and boot
  | coldReset (cause : ColdCause)
  | warmReset (cause : WarmCause)
  | functionLevelReset (tenant : Nat)
  | flrClearDone (tenant : Nat)
  | removeReq
  | dumpRelease
  | powerOn (perstAsserted : Bool)
  | trainingComplete (linkWidth linkRate : Nat) (cxlCache : Bool)
  | wipeDone
  | cxlLinkRetrain (width rate : Nat) (cxlCache : Bool)
  | powerWarn (vin : Nat)
  | powerWarnClear (vin : Nat)
  | inputInterruption
  | powerLoss
  | phaseFault (phase : Nat)
  | railFault
  | cxlLinkLoss
  | layerOvertemp (q layer : Nat) (quarterDegrees : Int)
  | wearThreshold (domain : DomainId) (unit : Nat)
  | escalation (domain : DomainId) (unit : Nat)
  | coreWatchdog (core : Nat)
  | coreRestartDone (core : Nat) (passed : Bool)
  | channelTrainingLoss (tier channel : Nat)
  | channelRetrained (tier channel : Nat)
  | fatalFault (cause : Nat) (domain : DomainId) (hasQuad : Bool)
  | dumpDone (hostWriteFailed : Bool)
  | attentionPress (heldMs : Nat)
  | latchOpen
  | latchClose
  | latchTimeout
  -- device time
  | refInLock (steer : Int)
  | refInLoss
  | ppsOut
  | timeRequest
  | timeReply (head : MsgHead) (body : TimeReplyBody)
  | timeSet (value : Word64)
  -- Nuxus ports
  | portEnable (port : Nat) (cableOk : Bool)
  | portDisable (port : Nat)
  | retrain (port : Nat)
  | trainingDone (port : Nat) (rx tx : LaneTest) (hello : Hello)
  | laneLockLoss (port : Nat) (replays : Bool)
  | laneErrorPeriod (port : Nat) (errors : List Nat)
  | flitReceive (port : Nat) (flit : Flit)
  | ackTimer (port : Nat)
  -- roles and messages
  | roleSet (head : MsgHead) (grant : RoleGrant)
  | roleAck (head : MsgHead) (position : Nat) (accepted : Bool)
  | resolve (head : MsgHead) (byPosition : Bool) (which : Nat)
  | resolveReply (head : MsgHead) (moduleId epoch : Nat) (found : Bool)
  | stepPlan (head : MsgHead) (plan : PlanBody)
  | evacuate (head : MsgHead) (phase worker spare : Nat)
  | ready (head : MsgHead) (body : ReadyBody)
  | readyTimeout (missing : List Nat)
  | joinTimeout (position : Nat)
  | start (head : MsgHead) (startTime : Nat)
  | abort (head : MsgHead)
  | act (head : MsgHead) (buffer : Nat) (data : List Word32)
  | read (head : MsgHead)
  | readData (head : MsgHead) (status : Nat) (data : List Byte)
  | write (head : MsgHead) (data : List Byte)
  | writeAck (head : MsgHead) (status : Nat)
  | atomic (head : MsgHead) (elemType : Nat) (data : List Byte)
  | pageData (head : MsgHead) (lgn fill : Nat) (content : List Byte)
  | pageAck (head : MsgHead) (lgns : List Nat)
  | bulkData (head : MsgHead) (block offset : Nat) (content : List Byte)
  | requestTimeout (destination tag : Nat)
  | raGo
  | becomeDomainManager
  | returnToStandalone
  | evacuationWipe
  -- link protection and signed commands
  | ideStreamInsecure (stream : Nat)
  | provision (c : SignedCommand)
  | activate (c : SignedCommand)
  | deactivate (c : SignedCommand)
  | debugEnter (c : SignedCommand)
  | debugExit (c : SignedCommand)
  | rmaEnter (c : SignedCommand)
  | rmaExit (c : SignedCommand)
  | retire (c : SignedCommand)
  | enroll (c : SignedCommand)
  | revoke (c : SignedCommand)
  | fwUpdate (c : SignedCommand) (bundle : FwBundle)
  | commitSvn (c : SignedCommand)
  -- SPDM
  | getVersion (fn : Nat)
  | getCapabilities (fn : Nat)
  | negotiateAlgorithms (fn : Nat)
  | getDigests (fn : Nat)
  | getCertificate (fn certSlot offset length : Nat)
  | challenge (fn certSlot : Nat) (nonce : BitVec 256)
  | getMeasurements (fn index : Nat) (signed : Bool) (nonce : BitVec 256)
  | keyExchange (fn certSlot : Nat) (share : List Byte)
  | finish (fn session : Nat) (macOk : Bool)
  | heartbeat (fn session : Nat)
  | keyUpdate (fn session : Nat) (operation : Nat)
  | endSession (fn session : Nat)
  | getPqSignature (fn : Nat)
  | getPqCertificate (fn offset : Nat)
  -- sideband and JTAG
  | sidebandPowerRead (command : Nat)
  | sidebandBmcLimit (value : Option Word32)
  | sidebandIndicators (value : Option Word32)
  | sidebandColdReset
  | sidebandWarmReset
  | sidebandStatusRead
  | sidebandCauseRead
  | sidebandIndirectAddress (value : Option Word32)
  | sidebandIndirectRead
  | i3cDynamicAddress (address : Nat)
  | fuseRead (q : Nat)
  | spareMap (q layer bank : Nat)
  | healthRead (q : Nat)
  | repairStage (r : Repair)
  | timeRequestReceived (head : MsgHead) (sequence t1 requestCorrection : Nat)
  | refInPresent
  | perstDeassert
  | weirRefill
  | ideKm (stream : Nat) (secured : Bool) (operation : Nat)
  | doeDiscovery (fn index : Nat)
  deriving DecidableEq, Repr

end Sys2Proof
end

