-- ==== Sys2Proof/Machine/Maps.lean ====
section
/-! DEFINITION. Sparse maps and sparse byte memories: sorted lists of keys and values, read with a
default, written so that the keys stay strictly rising. -/

namespace Sys2Proof.Machine

/-! ## Maps with a default -/

/-- The value a key has, where it is listed. -/
def fmFind {α : Type} : FMap α → Nat → Option α
  | [], _ => none
  | (k, v) :: r, n => if k = n then some v else fmFind r n

/-- The value of a key, `d` where it is not listed. -/
def fmGet {α : Type} (m : FMap α) (n : Nat) (d : α) : α := (fmFind m n).getD d

/-- Drops a key. -/
def fmErase {α : Type} : FMap α → Nat → FMap α
  | [], _ => []
  | (k, v) :: r, n => if k = n then r else (k, v) :: fmErase r n

/-- Lists a value under a key, in place of an earlier one. -/
def fmSet {α : Type} : FMap α → Nat → α → FMap α
  | [], n, v => [(n, v)]
  | (k, w) :: r, n, v =>
    if n < k then (n, v) :: (k, w) :: r
    else if n = k then (n, v) :: r
    else (k, w) :: fmSet r n v

/-- Replaces the value of a key by a function of it, from the default `d` where it is not listed. -/
def fmModify {α : Type} (m : FMap α) (n : Nat) (d : α) (f : α → α) : FMap α :=
  fmSet m n (f (fmGet m n d))

/-- The keys, rising. -/
def fmKeys {α : Type} (m : FMap α) : List Nat := m.map Prod.fst

/-- Applies a function to every listed value. -/
def fmMap {α : Type} (m : FMap α) (f : Nat → α → α) : FMap α :=
  m.map fun p => (p.1, f p.1 p.2)

/-- Adds to a counter. -/
def fmAdd (m : FMap Nat) (n k : Nat) : FMap Nat := fmModify m n 0 (· + k)

/-- The first number from `start` on, within `fuel` numbers, that a test takes. -/
def firstFrom (p : Nat → Bool) (start : Nat) : Nat → Option Nat
  | 0 => none
  | fuel + 1 => if p start then some start else firstFrom p (start + 1) fuel

/-- The first `k` numbers from `start` on, within `fuel` numbers, that a test takes. -/
def takeFrom (p : Nat → Bool) : Nat → Nat → Nat → List Nat
  | 0, _, _ => []
  | _, _, 0 => []
  | k + 1, start, fuel + 1 =>
    if p start then start :: takeFrom p k (start + 1) fuel else takeFrom p (k + 1) (start + 1) fuel

/-! ## Sparse byte memories -/

/-- A list of cells in canonical form: addresses strictly rising from `lo` on, no byte equal to 0,
which is what an unlisted address reads as. -/
def cellsFrom : Nat → List (Nat × Byte) → Bool
  | _, [] => true
  | lo, (a, b) :: r => decide (lo ≤ a) && !(b == 0) && cellsFrom (a + 1) r

/-- The canonical form of a memory. -/
def Memory.wf (m : List (Nat × Byte)) : Bool := cellsFrom 0 m

/-- One byte: 0 where the address is not listed. -/
def memByte : List (Nat × Byte) → Nat → Byte
  | [], _ => 0
  | (k, v) :: r, a => if k = a then v else if a < k then 0 else memByte r a

/-- One byte written; a byte of 0 is unlisted. -/
def memSet : List (Nat × Byte) → Nat → Byte → List (Nat × Byte)
  | [], a, b => if b == 0 then [] else [(a, b)]
  | (k, v) :: r, a, b =>
    if a < k then (if b == 0 then (k, v) :: r else (a, b) :: (k, v) :: r)
    else if a = k then (if b == 0 then r else (a, b) :: r)
    else (k, v) :: memSet r a b

/-- `n` bytes from an address on. -/
def memBytes (m : List (Nat × Byte)) (a : Nat) : Nat → List Byte
  | 0 => []
  | n + 1 => memByte m a :: memBytes m (a + 1) n

/-- Bytes written from an address on. -/
def memWrite (m : List (Nat × Byte)) (a : Nat) : List Byte → List (Nat × Byte)
  | [] => m
  | b :: r => memWrite (memSet m a b) (a + 1) r

/-- Every listed byte of an address range taken away: the range reads as zeros. -/
def memClear (m : List (Nat × Byte)) (a n : Nat) : List (Nat × Byte) :=
  m.filter fun c => decide (c.1 < a) || decide (a + n ≤ c.1)

/-- The bytes of a range copied to another address of a memory. -/
def memCopy (src dst : List (Nat × Byte)) (a b n : Nat) : List (Nat × Byte) :=
  (src.filter fun c => decide (a ≤ c.1) && decide (c.1 < a + n)).foldl
    (fun m c => memSet m (b + (c.1 - a)) c.2) (memClear dst b n)

/-! ## Little-endian values (R8) -/

/-- The number a list of bytes spells, first byte least significant. -/
def leNat : List Byte → Nat
  | [] => 0
  | b :: r => b.toNat + 256 * leNat r

/-- The `n` bytes of a number, least significant first. -/
def leBytes (v : Nat) : Nat → List Byte
  | 0 => []
  | n + 1 => BitVec.ofNat 8 v :: leBytes (v / 256) n

/-- A little-endian number of `n` bytes in a list of bytes, from byte `o` on. -/
def leAt (bs : List Byte) (o n : Nat) : Nat := leNat ((bs.drop o).take n)

/-- Bits `lo` to `lo + n - 1` of a number. -/
def bitsOf (v lo n : Nat) : Nat := v / 2 ^ lo % 2 ^ n

/-- One bit of a number. -/
def bitOf (v i : Nat) : Bool := bitsOf v i 1 == 1

/-- A Bool as a bit. -/
def bit (b : Bool) : Nat := if b then 1 else 0

/-- A number cut to `n` bits, as a signed value in two's complement. -/
def signedOf (v n : Nat) : Int :=
  if v % 2 ^ n < 2 ^ (n - 1) then (v % 2 ^ n : Nat) else (v % 2 ^ n : Nat) - (2 ^ n : Nat)

/-- The `n`-bit two's complement code of an integer. -/
def unsignedOf (v : Int) (n : Nat) : Nat := (v % ((2 ^ n : Nat) : Int)).toNat

/-- Words split out of a list, each of `k` bytes, little-endian. -/
def leWords (k : Nat) : Nat → List Byte → List Nat
  | 0, _ => []
  | n + 1, bs => leNat (bs.take k) :: leWords k n (bs.drop k)

/-- Division rounded up. -/
def ceilDiv (a b : Nat) : Nat := (a + b - 1) / b

/-! ## Lists -/

/-- Replaces the element at an index. -/
def listSet {α : Type} : List α → Nat → α → List α
  | [], _, _ => []
  | _ :: r, 0, v => v :: r
  | a :: r, n + 1, v => a :: listSet r n v

/-- Inserts in order, before the elements that do not precede it. -/
def insertBy {α : Type} (lt : α → α → Bool) (a : α) : List α → List α
  | [] => [a]
  | b :: r => if lt b a then b :: insertBy lt a r else a :: b :: r

/-- A stable insertion sort. -/
def sortBy {α : Type} (lt : α → α → Bool) : List α → List α
  | [] => []
  | a :: r => insertBy lt a (sortBy lt r)

/-- The first element that no other precedes. -/
def leastBy {α : Type} (lt : α → α → Bool) : List α → Option α
  | [] => none
  | a :: r =>
    match leastBy lt r with
    | none => some a
    | some b => if lt b a then some b else some a

/-- Lexicographic comparison of two keys. -/
def lexLt : List Int → List Int → Bool
  | [], [] => false
  | [], _ => true
  | _, [] => false
  | a :: r, b :: q => if a < b then true else if b < a then false else lexLt r q

/-- Drops repeats, keeping the first of each. -/
def dedup {α : Type} [DecidableEq α] : List α → List α
  | [] => []
  | a :: r => a :: (dedup r).filter fun b => decide (b ≠ a)

/-- The greatest of a list of numbers, 0 for none. -/
def maxOf (l : List Nat) : Nat := l.foldl max 0

/-- The sum of a list of numbers. -/
def sumOf (l : List Nat) : Nat := l.foldl (· + ·) 0

end Sys2Proof.Machine
end

