-- ==== Sys2Proof/Machine/Hash.lean ====
section
/-! DEFINITION. The fixed functions on words: SHA-384 (R74, R376, R384), Philox-4x32-10 (R229), the
CRCs of the check units (R273), CRC-32C of images (R267). -/

namespace Sys2Proof.Machine

/-! ## SHA-384 (FIPS 180-4)

The round constants are the first 64 bits of the fractional parts of the cube roots of the first 80
primes, the starting value those of the square roots of the ninth to sixteenth prime. -/

def shaK0 : List Nat :=
  [0x428A2F98D728AE22, 0x7137449123EF65CD, 0xB5C0FBCFEC4D3B2F, 0xE9B5DBA58189DBBC,
   0x3956C25BF348B538, 0x59F111F1B605D019, 0x923F82A4AF194F9B, 0xAB1C5ED5DA6D8118,
   0xD807AA98A3030242, 0x12835B0145706FBE, 0x243185BE4EE4B28C, 0x550C7DC3D5FFB4E2,
   0x72BE5D74F27B896F, 0x80DEB1FE3B1696B1, 0x9BDC06A725C71235, 0xC19BF174CF692694,
   0xE49B69C19EF14AD2, 0xEFBE4786384F25E3, 0x0FC19DC68B8CD5B5, 0x240CA1CC77AC9C65]
def shaK1 : List Nat :=
  [0x2DE92C6F592B0275, 0x4A7484AA6EA6E483, 0x5CB0A9DCBD41FBD4, 0x76F988DA831153B5,
   0x983E5152EE66DFAB, 0xA831C66D2DB43210, 0xB00327C898FB213F, 0xBF597FC7BEEF0EE4,
   0xC6E00BF33DA88FC2, 0xD5A79147930AA725, 0x06CA6351E003826F, 0x142929670A0E6E70,
   0x27B70A8546D22FFC, 0x2E1B21385C26C926, 0x4D2C6DFC5AC42AED, 0x53380D139D95B3DF,
   0x650A73548BAF63DE, 0x766A0ABB3C77B2A8, 0x81C2C92E47EDAEE6, 0x92722C851482353B]
def shaK2 : List Nat :=
  [0xA2BFE8A14CF10364, 0xA81A664BBC423001, 0xC24B8B70D0F89791, 0xC76C51A30654BE30,
   0xD192E819D6EF5218, 0xD69906245565A910, 0xF40E35855771202A, 0x106AA07032BBD1B8,
   0x19A4C116B8D2D0C8, 0x1E376C085141AB53, 0x2748774CDF8EEB99, 0x34B0BCB5E19B48A8,
   0x391C0CB3C5C95A63, 0x4ED8AA4AE3418ACB, 0x5B9CCA4F7763E373, 0x682E6FF3D6B2B8A3,
   0x748F82EE5DEFB2FC, 0x78A5636F43172F60, 0x84C87814A1F0AB72, 0x8CC702081A6439EC]
def shaK3 : List Nat :=
  [0x90BEFFFA23631E28, 0xA4506CEBDE82BDE9, 0xBEF9A3F7B2C67915, 0xC67178F2E372532B,
   0xCA273ECEEA26619C, 0xD186B8C721C0C207, 0xEADA7DD6CDE0EB1E, 0xF57D4F7FEE6ED178,
   0x06F067AA72176FBA, 0x0A637DC5A2C898A6, 0x113F9804BEF90DAE, 0x1B710B35131C471B,
   0x28DB77F523047D84, 0x32CAAB7B40C72493, 0x3C9EBE0A15C9BEBC, 0x431D67C49C100D4C,
   0x4CC5D4BECB3E42B6, 0x597F299CFC657E2A, 0x5FCB6FAB3AD6FAEC, 0x6C44198C4A475817]
def shaK : List Nat := shaK0 ++ shaK1 ++ shaK2 ++ shaK3

def shaStart : List Nat :=
  [0xCBBB9D5DC1059ED8, 0x629A292A367CD507, 0x9159015A3070DD17, 0x152FECD8F70E5939,
   0x67332667FFC00B31, 0x8EB44A8768581511, 0xDB0C2E0D64F98FA7, 0x47B5481DBEFA4FA4]

/-- A 64-bit rotation to the right. -/
def rotr64 (x n : Nat) : Nat := (x / 2 ^ n + x * 2 ^ (64 - n)) % 2 ^ 64

def shaSmall0 (x : Nat) : Nat := rotr64 x 1 ^^^ rotr64 x 8 ^^^ (x / 2 ^ 7)
def shaSmall1 (x : Nat) : Nat := rotr64 x 19 ^^^ rotr64 x 61 ^^^ (x / 2 ^ 6)
def shaBig0 (x : Nat) : Nat := rotr64 x 28 ^^^ rotr64 x 34 ^^^ rotr64 x 39
def shaBig1 (x : Nat) : Nat := rotr64 x 14 ^^^ rotr64 x 18 ^^^ rotr64 x 41
def shaCh (x y z : Nat) : Nat := (x &&& y) ^^^ ((2 ^ 64 - 1 - x) &&& z)
def shaMaj (x y z : Nat) : Nat := (x &&& y) ^^^ (x &&& z) ^^^ (y &&& z)

/-- The message schedule, newest word first. -/
def shaSchedule : Nat → List Nat → List Nat
  | 0, w => w
  | n + 1, w =>
    let t := (shaSmall1 (w.getD 1 0) + w.getD 6 0 + shaSmall0 (w.getD 14 0) + w.getD 15 0) % 2 ^ 64
    shaSchedule n (t :: w)

/-- One round on the eight working variables. -/
def shaRound (v : List Nat) (kw : Nat × Nat) : List Nat :=
  match v with
  | [a, b, c, d, e, f, g, h] =>
    let t1 := h + shaBig1 e + shaCh e f g + kw.1 + kw.2
    let t2 := shaBig0 a + shaMaj a b c
    [(t1 + t2) % 2 ^ 64, a, b, c, (d + t1) % 2 ^ 64, e, f, g]
  | _ => v

/-- One 128-byte block. -/
def shaBlock (h : List Nat) (words : List Nat) : List Nat :=
  let w := (shaSchedule 64 words.reverse).reverse
  List.zipWith (fun x y => (x + y) % 2 ^ 64) h ((shaK.zip w).foldl shaRound h)

/-- The number a list of bytes spells, first byte most significant. -/
def beNat (bs : List Byte) : Nat := bs.foldl (fun a b => a * 256 + b.toNat) 0

/-- The bytes of a number, most significant first. -/
def beBytes (v n : Nat) : List Byte := (leBytes v n).reverse

/-- Big-endian words of 8 bytes. -/
def beWords : Nat → List Byte → List Nat
  | 0, _ => []
  | n + 1, bs => beNat (bs.take 8) :: beWords n (bs.drop 8)

def shaBlocks : Nat → List Byte → List Nat → List Nat
  | 0, _, h => h
  | n + 1, bs, h => shaBlocks n (bs.drop 128) (shaBlock h (beWords 16 bs))

/-- The padded message. -/
def shaPad (bs : List Byte) : List Byte :=
  let n := bs.length
  let z := (128 - (n + 17) % 128) % 128
  bs ++ [0x80] ++ List.replicate z 0 ++ beBytes (8 * n) 16

/-- SHA-384 of a message, as its 48 bytes. -/
def sha384Bytes (bs : List Byte) : List Byte :=
  let m := shaPad bs
  (((shaBlocks (m.length / 128) m shaStart).take 6).map fun w => beBytes w 8).flatten

/-- SHA-384 of a message, as a number whose byte 0 is the digest's first byte (R8). -/
def sha384 (bs : List Byte) : BitVec 384 := BitVec.ofNat 384 (leNat (sha384Bytes bs))

/-! ## Philox-4x32 with 10 rounds (R229) -/

/-- One round on four 32-bit words with two key words. -/
def philoxRound (c : List Nat) (k0 k1 : Nat) : List Nat :=
  match c with
  | [c0, c1, c2, c3] =>
    let p0 := 0xD2511F53 * c0
    let p1 := 0xCD9E8D57 * c2
    [(p1 / 2 ^ 32) ^^^ c1 ^^^ k0, p1 % 2 ^ 32, (p0 / 2 ^ 32) ^^^ c3 ^^^ k1, p0 % 2 ^ 32]
  | _ => c

/-- The rounds, the key raised by the Weyl constants between them. -/
def philoxRounds : Nat → List Nat → Nat → Nat → List Nat
  | 0, c, _, _ => c
  | n + 1, c, k0, k1 =>
    philoxRounds n (philoxRound c k0 k1) ((k0 + 0x9E3779B9) % 2 ^ 32) ((k1 + 0xBB67AE85) % 2 ^ 32)

def philox (c : List Nat) (k0 k1 : Nat) : List Nat := philoxRounds 10 c k0 k1

/-! ## Check values (R273) -/

/-- The `n` low bits of a number in reverse order. -/
def reflectBits : Nat → Nat → Nat
  | 0, _ => 0
  | n + 1, v => v % 2 * 2 ^ n + reflectBits n (v / 2)

/-- One bit shifted into a CRC register of `w` bits, most significant bit first. -/
def crcBit (w poly r b : Nat) : Nat :=
  let top := (r / 2 ^ (w - 1) % 2) ^^^ b
  let r := r * 2 % 2 ^ w
  if top = 1 then r ^^^ (poly % 2 ^ w) else r

def crcBits (w poly : Nat) : Nat → Nat → Nat → Nat
  | 0, r, _ => r
  | n + 1, r, v => crcBits w poly n (crcBit w poly r (v / 2 ^ n % 2)) v

/-- Bytes shifted into a CRC register, each reflected where the unit says so. -/
def crcBytes (w poly : Nat) (reflectIn : Bool) (r : Nat) (bs : List Byte) : Nat :=
  bs.foldl (fun r b => crcBits w poly 8 r (if reflectIn then reflectBits 8 b.toNat else b.toNat)) r

/-- The result a register of `w` bits shows: reflected and inverted as configured. -/
def crcResult (w : Nat) (reflectOut invert : Bool) (r : Nat) : Nat :=
  let r := if reflectOut then reflectBits w r else r
  if invert then (2 ^ w - 1) ^^^ r else r

/-- CRC-32C: polynomial 0x1EDC6F41, reflected, start and end inverted. -/
def crc32c (bs : List Byte) : Nat :=
  crcResult 32 true true (crcBytes 32 0x1EDC6F41 true 0xFFFFFFFF bs)

end Sys2Proof.Machine
end

