-- ==== Sys2Proof/Machine/State.lean ====
section
/-! DEFINITION. The state of the LT9 block as plain data: every register, table, queue, buffer, counter,
mode and pin the spec gives it, the host memory it shares with its hosts, the record of what it has
sent, and the queue of waiting commands. Each field's docstring gives its width, the rule that names
it and its reset value. -/

namespace Sys2Proof.Machine

/-! ## Sequences (chapter 3) -/

/-- The ten sequence states (Table 03-1). -/
inductive SeqState where
  | free | admitted | prompt | decode | siding | parked | dormant | draining | done | faulted
  deriving DecidableEq, Repr

/-- What is recorded when a sequence enters DRAINING (Table 03-3): the FINAL status and detail, the end
reason of the end entry, whether the sequence ends in FREE (CLOSE), and whether nothing is written
for it (R32 part 3). -/
structure Drain where
  status : Nat
  detail : Nat
  reason : Nat
  toFree : Bool
  silent : Bool
  deriving DecidableEq, Repr

/-- One journal record (Table 11-10); startTime in ns. -/
structure Journal where
  step : Nat
  committed : Nat
  stepNo : Nat
  mode : Nat
  nodes : Nat
  accepted : Nat
  voided : Bool
  subst : Bool
  shared : Bool
  promptStep : Bool
  cls : Nat
  variant : Nat
  chunkFirst : Nat
  chunkLast : Nat
  drafts : List Nat
  unitMap : Nat
  startTime : Nat
  /-- the chunk completed the pending tokens: the model's own note, for the trace of R303 -/
  last : Bool
  deriving DecidableEq, Repr

/-- A replay that holds a replay context (R302): its descriptor's place, the sequence it replays, the
journal record, and the output area. -/
structure ReplayJob where
  tenant : Nat
  qp : Nat
  index : Nat
  cmdId : Nat
  handle : Nat
  noIrq : Bool
  source : Nat
  record : Journal
  recomputed : Bool
  output : Nat
  deriving DecidableEq, Repr

/-- A tail copy in progress (R199): the logical page, the old and the new group, and whether the sluice
has finished it. -/
structure TailCopy where
  page : Nat
  old : Nat
  fresh : Nat
  finished : Bool
  deriving DecidableEq, Repr

/-- One sequence context (R51 to R73). -/
structure Ctx where
  /-- 4-bit code, Table 03-1, reset FREE -/
  state : SeqState
  /-- prior state, Table 03-1 (ADMITTED, PROMPT or DECODE), reset ADMITTED: no value given -/
  prior : SeqState
  /-- siding mark, Table 03-1 -/
  sidingMark : Bool
  /-- owner tenant, 8 bits, R34 -/
  tenant : Nat
  /-- queue pair that opened it, R59 -/
  qp : Nat
  /-- incarnation, 16 bits, R34, R51 -/
  incarnation : Nat
  /-- home quadrant, 2 bits, R53 -/
  home : Nat
  /-- model slot, Table 02-10 -/
  slot : Nat
  /-- package hash of the model it was opened on, R301 -/
  model : BitVec 384
  /-- adapter, 16 bits, 0xFFFF none -/
  adapter : Nat
  /-- priority class, Table 02-10 -/
  cls : Nat
  /-- the copy of the request block, R42 -/
  req : RequestCopy
  /-- host address of the request block, whose ring-control line R45 reads -/
  blockAddr : Nat
  /-- allowed-token bitmap read at the boundary of the OPEN, R42 -/
  allowed : Option (List Byte)
  /-- command id of the OPEN, echoed in FINAL -/
  cmdId : Nat
  /-- place of the OPEN in its SQ, whose order its completions follow, R47 -/
  opened : Nat
  /-- NO_IRQ of the OPEN -/
  noIrq : Bool
  /-- seed in use, 64 bits, R229 -/
  seed : Word64
  /-- length pointer: committed length, R25, R233 -/
  committed : Nat
  /-- length pointer before row 1 of the boundary in progress, R59 -/
  before : Nat
  /-- positions below it hold valid keys and values; below committed after a drop, R216 -/
  kvLen : Nat
  /-- tokens known at positions 0, 1, ..., the token history, R218 -/
  hist : List Nat
  /-- position of the first prompt token, R205, R210 -/
  promptStart : Nat
  /-- last pending position + 1, R134 -/
  goal : Nat
  /-- position at which the appended tokens start, R58 -/
  appendAt : Nat
  /-- appended tokens not yet processed, R58 -/
  appended : List Nat
  /-- the sequence decoded before its recompute, R216 -/
  decoding : Bool
  /-- tokens generated since the latest prompt or APPEND, R58 -/
  generated : Nat
  /-- tokens delivered, Table 02-8 -/
  delivered : Nat
  /-- prompt and appended tokens processed, Table 02-8 -/
  processed : Nat
  /-- a token of the request was flagged late, R69 -/
  late : Bool
  /-- a token of this boundary was flagged late, R69 -/
  lateNow : Bool
  /-- the next delivered token is the first after a prompt or APPEND, Table 09-4 -/
  firstToken : Bool
  /-- step number, 32 bits, Table 09-2 -/
  stepNo : Nat
  /-- adaptive node count, its start value, run of zero-acceptance steps, steps since it fell, R240 -/
  adaptive : Nat
  adaptiveStart : Nat
  zeroRun : Nat
  sinceFall : Nat
  /-- the first token has been delivered, R68 -/
  started : Bool
  /-- stamp of the latest delivery, or of the re-base, in 2^-16 ns, R68 -/
  lastDelivery : Nat
  /-- the first-token deadline was discarded, R68 -/
  deadlineGone : Bool
  /-- token-ring entries written, R43 -/
  ringWritten : Nat
  /-- the LT9's count of the ring head, R45 -/
  ringHead : Nat
  /-- expiry of a DORMANT sequence, in 2^-16 ns, R71 -/
  expiry : Nat
  /-- what was recorded on entry to DRAINING -/
  drain : Option Drain
  /-- model step count at which it was last in a batch, R65 -/
  lastStep : Nat
  /-- boundary at which it was last in a step, R213 -/
  lastBoundary : Nat
  /-- boundary at which it entered SIDING, R67 -/
  heldSince : Nat
  /-- page table: entry i names a group or is invalid, R193 -/
  pages : List (Option Nat)
  /-- page table for the draft model's pool, R193 -/
  draftPages : List (Option Nat)
  /-- the draft model's committed length, R225 -/
  draftLen : Nat
  /-- page-table pieces held, R193 -/
  pieces : Nat
  /-- drafts the next step verifies, in node order, R223, R224 -/
  drafts : List Nat
  /-- a prefix lookup is still to finish, R210 -/
  lookupPending : Bool
  /-- groups matched by a finished prefix lookup, R210 -/
  matched : List Nat
  /-- tail copy in progress, R199 -/
  copy : Option TailCopy
  /-- leading pages whose chain value is a node, R209 -/
  hashed : List Nat
  /-- pages whose hash is done and whose node row 4 has still to insert, R209 -/
  hashing : List Nat
  /-- the latest 256 journal records, newest first, R300 -/
  journal : List Journal
  /-- a replay context's job, R302 -/
  replay : Option ReplayJob
  /-- boundary at which the context last returned to FREE, R51 -/
  freedAt : Nat
  deriving DecidableEq, Repr

/-- An empty request copy. -/
def noRequest : RequestCopy := { block := 0, bias := [], stops := [] }

/-- A context that has been FREE since reset (R51, R403): incarnation 0. -/
def freshCtx : Ctx :=
  { state := .free, prior := .admitted, sidingMark := false, tenant := 0, qp := 0,
    incarnation := 0, home := 0, slot := 0, model := 0, adapter := 0xFFFF, cls := 0, req := noRequest, blockAddr := 0,
    allowed := none, cmdId := 0, opened := 0, noIrq := false, seed := 0, committed := 0, before := 0, kvLen := 0,
    hist := [], promptStart := 0, goal := 0, appendAt := 0, appended := [], decoding := false,
    generated := 0, delivered := 0, processed := 0, late := false, lateNow := false,
    firstToken := false, stepNo := 0, adaptive := 0, adaptiveStart := 0, zeroRun := 0,
    sinceFall := 0, started := false, lastDelivery := 0, deadlineGone := false, ringWritten := 0,
    ringHead := 0, expiry := 0, drain := none, lastStep := 0, lastBoundary := 0, heldSince := 0,
    pages := [], draftPages := [], draftLen := 0, pieces := 0, drafts := [], lookupPending := false,
    matched := [], copy := none, hashed := [], hashing := [], journal := [], replay := none, freedAt := 0 }

/-! ## Queue pairs and tenants (chapters 2 and 18) -/

/-- A descriptor that has taken effect and not completed (R32 step 6, R36). -/
structure Running where
  tenant : Nat
  qp : Nat
  index : Nat
  cmdId : Nat
  noIrq : Bool
  opcode : Nat
  deriving DecidableEq, Repr

/-- A completion to be written in row 3 (Table 02-5). -/
structure Completion where
  tenant : Nat
  qp : Nat
  index : Nat
  cmdId : Nat
  status : Nat
  detail : Nat
  handle : Nat
  final : Bool
  late : Bool
  noIrq : Bool
  result : BitVec 128
  deriving DecidableEq, Repr

/-- The state of a queue pair (Table 18-3 STATE): 0 DISABLED, 1 ACTIVE, 2 ERROR, 3 STOPPING. -/
inductive QpState where
  | disabled | active | error | stopping
  deriving DecidableEq, Repr

/-- One queue pair (R29 to R41, Table 18-3). Its RW fields stand in State.regs. -/
structure Qp where
  /-- STATE, 3 bits, reset 0 -/
  state : QpState
  /-- REASON, 8 bits, Table 18-4, reset 0 -/
  reason : Nat
  /-- POLLED, 1 bit, reset 0 -/
  polled : Bool
  /-- the LT9 holds the doorbell line, R39 -/
  held : Bool
  /-- translated address of the doorbell line, R30 -/
  line : Nat
  /-- FETCHED, 32 bits, reset 0, R31 -/
  fetched : Nat
  /-- WRITTEN, 32 bits, reset 0, R31 -/
  written : Nat
  /-- SQ_TAIL_SEEN, 32 bits, reset 0 -/
  tail : Nat
  /-- CQ_HEAD_SEEN, 32 bits, reset 0 -/
  head : Nat
  /-- descriptors fetched and not yet in effect, oldest first -/
  queue : List Fetched
  /-- descriptors in effect and not yet complete -/
  running : List Running
  /-- the boundary of the disable has passed, R32 -/
  draining : Bool
  deriving DecidableEq, Repr

/-- A queue pair after reset (Table 16-5: DISABLED). -/
def freshQp : Qp :=
  { state := .disabled, reason := 0, polled := false, held := false, line := 0, fetched := 0,
    written := 0, tail := 0, head := 0, queue := [], running := [], draining := false }

/-- The parameters SET_TENANT gives a tenant (Table 02-6). -/
structure TenantParams where
  enabled : Bool
  qpQuota : Nat
  highest : Nat
  partition : Nat
  ctxQuota : Nat
  periodMs : Nat
  perPeriod : Nat
  burst : Nat
  deriving DecidableEq, Repr

/-- One MSI-X vector (R50, R435, R437): the table entry, the PBA bit and the moderation state. -/
structure MsixVector where
  address : Word64
  data : Word32
  masked : Bool
  pba : Bool
  pending : Nat
  oldest : Nat
  deriving DecidableEq, Repr

/-- A vector after reset (R457): masked, address and data 0. -/
def freshVector : MsixVector :=
  { address := 0, data := 0, masked := true, pba := false, pending := 0, oldest := 0 }

/-- One time latch (Table 13-1): nanoseconds, fraction, captures, lock at capture. -/
structure Latch where
  ns : Nat
  frac : Nat
  count : Nat
  locked : Bool
  deriving DecidableEq, Repr

/-- A latch after reset. -/
def freshLatch : Latch := { ns := 0, frac := 0, count := 0, locked := false }

/-- The counters of Table 18-7 (64 bits each, reset 0). -/
structure Counters where
  descFetched : Nat
  tokensDelivered : Nat
  tokensLate : Nat
  ringWaits : Nat
  sidingBoundaries : Nat
  parkedBoundaries : Nat
  prefixTokens : Nat
  status : FMap Nat
  deriving DecidableEq, Repr

/-- Counters after reset. -/
def zeroCounters : Counters :=
  { descFetched := 0, tokensDelivered := 0, tokensLate := 0, ringWaits := 0, sidingBoundaries := 0,
    parkedBoundaries := 0, prefixTokens := 0, status := [] }

/-- One tenant (R5, R38, R70, chapter 18). -/
structure Tenant where
  /-- SET_TENANT parameters, none for tenants 1 to 255 after reset, R38 -/
  params : Option TenantParams
  /-- BUDGET_LEVEL, signed 64 bits, R70, reset 0 -/
  budget : Int
  /-- period start, 2^-16 ns, R70 -/
  periodStart : Nat
  /-- refill times applied, R70 -/
  refills : Nat
  /-- SEALED, 1 bit, R429, reset 0 -/
  sealed : Bool
  /-- RESET_PENDING, 1 bit, R404, reset 0 -/
  resetPending : Bool
  /-- the function-level reset has not yet acted at a boundary, R390 -/
  resetArmed : Bool
  /-- frame sets of the reset waiting for their clear, R390: boundary of row 5 -/
  clearAt : Nat
  /-- REFUSED_COUNT, 32 bits; REFUSED_OFFSET, 16 bits; REFUSED_KIND, 8 bits, reset 0 -/
  refusedCount : Nat
  refusedOffset : Nat
  refusedKind : Nat
  /-- the latch pair, Table 13-1, reset 0 -/
  latch0 : Latch
  latch1 : Latch
  /-- counters as shown since the latest row 8, R436 -/
  counters : Counters
  /-- counts gathered since the latest row 8, R436 -/
  gathered : Counters
  /-- MSI-X Enable and Function Mask, R457, reset 0 and 0 -/
  msixEnable : Bool
  functionMask : Bool
  /-- the 64 vectors, R437; unlisted: after reset -/
  vectors : FMap MsixVector
  /-- generation of KA(t) and KS(t), 0 for the keys a reset makes; none: destroyed, R377, R388 -/
  adapterKey : Option Nat
  stateKey : Option Nat
  deriving DecidableEq, Repr

/-- A tenant of number 1 to 255 after a cold or warm reset (R38). -/
def freshTenant : Tenant :=
  { params := none, budget := 0, periodStart := 0, refills := 0, sealed := false,
    resetPending := false, resetArmed := false, clearAt := 0, refusedCount := 0, refusedOffset := 0,
    refusedKind := 0, latch0 := freshLatch, latch1 := freshLatch, counters := zeroCounters,
    gathered := zeroCounters, msixEnable := false, functionMask := false, vectors := [],
    adapterKey := some 0, stateKey := some 0 }

/-- The parameters of tenant 0 after every cold and warm reset (R38). The budget period is not among
the values of R38: 0 here, DESIGN CHOICE (log 3); with tokens per period 0 nothing reads it. -/
def tenant0Params : TenantParams :=
  { enabled := true, qpQuota := 16, highest := 3, partition := 0, ctxQuota := 65536, periodMs := 0,
    perPeriod := 0, burst := 0 }

/-! ## Page groups, pools and prefixes (chapter 8) -/

/-- Group residence (Table 08-3). -/
inductive Residence where
  | free | t0 | spilling | t1 | t2 | prefetching | dropped | grace
  deriving DecidableEq, Repr

/-- One group map entry (Table 08-3), with the frame set a prefetch fills and the state of its history
chunk (R218, R368). -/
structure Group where
  refs : Nat
  residence : Residence
  sealed : Bool
  /-- held flag: the boundary until which it stays (R206) -/
  held : Option Nat
  owner : Nat
  slot : Nat
  /-- frame set in residence T0 or SPILLING -/
  frameSet : Nat
  /-- spill record in residence T1, T2 or PREFETCHING, and the record being written in SPILLING -/
  image : Nat
  fill : Nat
  history : Bool
  historyLost : Bool
  lastUse : Nat
  /-- the adapter of the sequences that share it, R203 -/
  adapter : Nat
  /-- the 256 tokens of a sealed page: its history chunk, R218 -/
  tokens : List Nat
  /-- the sluice has finished the transfer; it takes effect in row 4, Table 08-5 -/
  finished : Bool
  /-- a data error struck it: row 4 of the next boundary drops it (R367, R368) -/
  damaged : Bool
  deriving DecidableEq, Repr

/-- A spill image (R214): group, tier (1 or 2), frames, and the key generation it is under. -/
structure SpillImage where
  lgn : Nat
  tier : Nat
  frames : List Nat
  key : Nat
  deriving DecidableEq, Repr

/-- A KV pool (R186 to R191). Positions are numbered b * 12 + k (R187). -/
structure Pool where
  layers : Nat
  heads : Nat
  headDim : Nat
  int4 : Bool
  recurrent : Bool
  /-- 0 plain tables; otherwise the R of R203 -/
  ring : Nat
  window : Nat
  /-- quads left out of the placement list of each quadrant (quadrant, layer * 256 + quad), R188 -/
  plain : List (Nat × Nat)
  /-- positions taken as extents, quadrant by quadrant, in the order taken -/
  extents : List (List Nat)
  /-- free frame sets -/
  freeSets : List Nat
  /-- frame sets below it have been usable -/
  usable : Nat
  /-- frame sets withdrawn (R191, R365) -/
  withdrawn : List Nat
  /-- frame sets that row 9 of the previous boundary lacked (R213) -/
  lacked : Nat
  /-- boundaries for which the highest extent of each quadrant held no slot (R190) -/
  idle : List Nat
  deriving DecidableEq, Repr

/-- One diversion-table entry (R191). -/
structure Diversion where
  quadrant : Nat
  slot : Nat
  lostQuad : Nat
  lostSlot : Nat
  toQuad : Nat
  toSlot : Nat
  /-- the sluice has copied the slot; the entry is in force from the next boundary -/
  copied : Bool
  active : Bool
  deriving DecidableEq, Repr

/-- A bound prefix handle (R204, R205). -/
structure PrefixBinding where
  tenant : Nat
  value : Word64
  slot : Nat
  adapter : Nat
  length : Nat
  lgns : List Nat
  tokens : List Nat
  used : Nat
  pieces : Nat
  deriving DecidableEq, Repr

/-- A prefix node (R208, R209). -/
structure PrefixNode where
  tenant : Nat
  slot : Nat
  chain : BitVec 128
  parent : Option (BitVec 128)
  lgn : Nat
  used : Nat
  deriving DecidableEq, Repr

/-- An IMPORT_PREFIX that waits for prefetches (R206). -/
structure ImportJob where
  run : Running
  tenant : Nat
  value : Word64
  boundAs : Nat
  length : Nat
  lgns : List Nat
  arrived : Bool
  deriving DecidableEq, Repr

/-- An EXPORT_PREFIX that waits for a recompute or a piece (R61, R204). -/
structure ExportJob where
  run : Running
  ctx : Nat
  value : Word64
  length : Nat
  handle : Nat
  deriving DecidableEq, Repr

/-- What returns to a free list in row 5 (R202, R254). -/
inductive GraceItem where
  | group (lgn : Nat)
  | frameSet (slot : Nat) (set : Nat)
  | image (record : Nat)
  | t0Frame (frame : Nat)
  | tierFrame (tier frame : Nat)
  deriving DecidableEq, Repr

/-! ## Packages (chapters 4, 10, 11) -/

/-- A layer-list entry (Table 04-3). -/
structure Layer where
  mixer : Nat
  feed : Nat
  substitution : Bool
  window : Nat
  stateSize : Nat
  deriving DecidableEq, Repr

/-- A tensor descriptor (Table 04-4). -/
structure Tensor where
  layer : Nat
  role : Nat
  format : Nat
  expert : Nat
  scaleFormat : Nat
  group : Nat
  rows : Nat
  columns : Nat
  dataOffset : Nat
  dataLength : Nat
  scaleOffset : Nat
  scaleCount : Nat
  codec : Nat
  targetRole : Nat
  deriving DecidableEq, Repr

/-- A section entry of a template (Table 11-3). -/
structure Section where
  engine : Nat
  flags : Nat
  length : Nat
  rule : Nat
  quads : Nat
  anchor : Nat
  offset : Nat
  tensor : Nat
  deriving DecidableEq, Repr

/-- A timetable template (Table 11-2). -/
structure Template where
  layerMap : List Nat
  prologue : List Section
  layerLists : List (List Section)
  epilogue : List Section
  nominal : Nat
  deriving DecidableEq, Repr

/-- An origin-table entry (R81). -/
structure Origin where
  address : Nat
  kind : Nat
  home : Nat
  deriving DecidableEq, Repr

/-- The draft-shape section (R85). -/
structure DraftShape where
  tree : Bool
  count : Nat
  headCount : Nat
  parents : List Nat
  heads : List Nat
  ranks : List Nat
  deriving DecidableEq, Repr

/-- A codec table (R261): its mode and the 256 code lengths. -/
structure CodecTable where
  mode : Nat
  lengths : List Nat
  deriving DecidableEq, Repr

/-- The two table slots of a tensor (R268). -/
structure CodecSlots where
  slot0 : Option (Nat × CodecTable)
  slot1 : Option (Nat × CodecTable)
  newest : Nat
  sweeping : Bool
  deriving DecidableEq, Repr

/-- An embedding table descriptor (R92). -/
structure TableDesc where
  rows : Nat
  width : Nat
  rowFormat : Nat
  dataOffset : Nat
  dataLength : Nat
  deriving DecidableEq, Repr

/-- What the LT9 keeps of an accepted package (Table 04-1 and its sections). -/
structure Package where
  kind : Nat
  draftHeads : Bool
  hash : BitVec 384
  linkedHash : BitVec 384
  modelId : BitVec 128
  layersCount : Nat
  width : Nat
  queryHeads : Nat
  kvHeads : Nat
  headDim : Nat
  experts : Nat
  topK : Nat
  sharedExperts : Nat
  vocabulary : Nat
  maxContext : Nat
  kvInt4 : Bool
  layerNorm : Bool
  draftSource : Nat
  normEpsilon : Word32
  rotaryBase : Word32
  rotaryDims : Nat
  rotaryScale : Word32
  rank : Nat
  adapterScale : Word32
  tableCount : Nat
  bf16Out : Bool
  layers : List Layer
  tensors : List Tensor
  scales : List Byte
  codecs : List CodecTable
  draft : Option DraftShape
  templates : List Template
  origins : List Origin
  tables : List TableDesc
  dataLength : Nat
  deriving DecidableEq, Repr

/-- Slot states (Table 04-9). -/
inductive SlotState where
  | empty | loading | ready | degraded
  deriving DecidableEq, Repr

/-- One model slot (R97 to R100, Table 17-3). -/
structure ModelSlot where
  state : SlotState
  package : Option Package
  /-- first block of its tensor data and how many -/
  firstBlock : Nat
  blocks : Nat
  /-- source address of the load, for origins of kind 1 (R81) -/
  source : Nat
  codecSlots : FMap CodecSlots
  /-- boundary at which it became READY; boundary of its last step start (R64) -/
  readyAt : Nat
  lastStart : Nat
  /-- stamps of its latest step starts, newest first, at most 9 (R66), 2^-16 ns -/
  starts : List Nat
  /-- steps the model has taken (R65) -/
  steps : Nat
  /-- blocks voided in its last step that are not MAPPED again (R282) -/
  waitingBlocks : List Nat
  /-- contexts of the voided step (R285) -/
  voidedCtxs : List Nat
  /-- a block of it became LOST; it is marked DEGRADED at the next boundary (R285) -/
  lost : Bool
  deriving DecidableEq, Repr

/-- An EMPTY model slot. -/
def emptySlot : ModelSlot :=
  { state := .empty, package := none, firstBlock := 0, blocks := 0, source := 0, codecSlots := [],
    readyAt := 0, lastStart := 0, starts := [], steps := 0, waitingBlocks := [], voidedCtxs := [],
    lost := false }

/-- An adapter (R88 to R91). -/
structure Adapter where
  owner : Nat
  loading : Bool
  package : Option Package
  firstBlock : Nat
  blocks : Nat
  source : Nat
  /-- the UNLOAD_ADAPTERs that are removing it, and the boundary at which the first took effect (R91) -/
  removers : List Running
  removedAt : Nat
  /-- a block of it is LOST (R285) -/
  unusable : Bool
  deriving DecidableEq, Repr

/-- A resident table set (R92, R96). `version` tells a set from the one that replaced it. -/
structure TableSet where
  id : Nat
  version : Nat
  package : Package
  firstBlock : Nat
  blocks : Nat
  source : Nat
  /-- replaced or removed; waits for its lookups (R96) -/
  leaving : Bool
  /-- the LOAD_TABLE of length 0 that removes it -/
  remover : Option Running
  deriving DecidableEq, Repr

/-- What a load is for (R98). -/
inductive LoadTarget where
  | model (slot : Nat)
  | adapter (id owner : Nat)
  | table (id : Nat)
  | codec (slot tensor : Nat)
  deriving DecidableEq, Repr

/-- How a load ended (Table 04-10): done, or a reason code with the offset of the failing item. -/
inductive LoadOutcome where
  | passed (p : Package)
  | failed (reason offset : Nat)
  deriving DecidableEq, Repr

/-- A load in the loader queue (R98, R99). -/
structure LoadJob where
  run : Running
  target : LoadTarget
  source : Nat
  fromDevice : Bool
  length : Nat
  mirror : Bool
  /-- frames a standing reservation has yet to fill: T0 by quadrant, T1, T2 (R99, R463) -/
  reserved : List Nat
  /-- first block named for it and the number of blocks -/
  firstBlock : Nat
  blocks : Nat
  outcome : Option LoadOutcome
  /-- a codec table that row 4 has installed: its LOAD_TABLE completes at the next boundary (R270) -/
  installed : Bool
  deriving DecidableEq, Repr

/-- A lookup in the lookup queue (R95). -/
structure Lookup where
  run : Running
  set : Nat
  version : Nat
  table : Nat
  mean : Bool
  offsets : List Nat
  indices : List Nat
  output : Nat
  joined : Nat
  faulted : Bool
  deriving DecidableEq, Repr

/-- Output of an EMBED_LOOKUP or a REPLAY that waits for its host DMA bucket (R95, R275): the descriptor, the
handle of its completion, the host address, the bytes, the detail of an ACCESS and a replay's context. -/
structure Outgoing where
  run : Running
  handle : Nat
  address : Nat
  bytes : List Byte
  detail : Nat
  ctx : Option Nat
  deriving DecidableEq, Repr

/-! ## Blocks and tiers (chapter 10) -/

/-- Block states (Table 10-2). -/
inductive BlockState where
  | unmapped | mapped | promoting | demoting | refetching | lost
  deriving DecidableEq, Repr

/-- One placement-table entry (Table 10-2). -/
structure Block where
  t0 : Option Nat
  image : Option Nat
  mirror : Option Nat
  crc : Word32
  state : BlockState
  sealed : Bool
  imageT2 : Bool
  plainImage : Bool
  tenantKey : Bool
  keyOwner : Nat
  slot : Nat
  tensor : Nat
  codec : Nat
  generation : Nat
  lastUse : Nat
  refetches : Nat
  /-- home quadrant (R81, R255) -/
  home : Nat
  /-- origin kind and address (R81) -/
  originKind : Nat
  origin : Nat
  /-- the frame a move or a refetch fills -/
  target : Option Nat
  /-- which copy the refetch in progress replaces (0 T0, 1 image) and its source rung (R283) -/
  failedCopy : Nat
  rung : Nat
  /-- boundaries of the last 256 in which a lookup read it from its image (R258) -/
  imageReads : List Nat
  deriving DecidableEq, Repr

/-- An UNMAPPED block. -/
def unmappedBlock : Block :=
  { t0 := none, image := none, mirror := none, crc := 0, state := .unmapped, sealed := false,
    imageT2 := false, plainImage := false, tenantKey := false, keyOwner := 0, slot := 0xFF,
    tensor := 0xFFFF, codec := 0, generation := 0, lastUse := 0, refetches := 0, home := 0,
    originKind := 0, origin := 0, target := none, failedCopy := 0, rung := 0, imageReads := [] }

/-- The sluice commands (Table 10-3). -/
inductive SluiceOp where
  | seal | unseal | release
  deriving DecidableEq, Repr

/-- A transfer of the sluice (Table 10-5), by class and subject. -/
inductive Transfer where
  | refetch (block : Nat)
  | promotion (block cls : Nat)
  | demotion (block : Nat)
  | spill (lgn : Nat)
  | prefetch (lgn : Nat)
  | tailCopy (ctx : Nat)
  | history (lgn : Nat)
  | sweep (slot tensor : Nat)
  | diversion (q layer quad : Nat)
  | vacate (tier frame : Nat)
  deriving DecidableEq, Repr

/-- The sluice and codec block (R249 to R258, Table 17-10). -/
structure Sluice where
  /-- the command queue, at most 64, R424 -/
  commands : List (SluiceOp × Nat)
  /-- UNSEAL commands that wait for a promotion, Table 10-3 -/
  unsealing : List Nat
  /-- CMD_ISSUED, CMD_DONE 16 bits; CMD_RESULT 3 bits; CMD_LAST 21 bits; reset 0 -/
  issued : Nat
  done : Nat
  result : Nat
  last : Nat
  /-- transfers issued and not finished, in the order of issue, R252 -/
  transfers : List Transfer
  /-- PROMOTIONS, DEMOTIONS 64 bits; REFETCHES, REFETCH_FAILS, LOST 32 bits; reset 0 -/
  promotions : Nat
  demotions : Nat
  refetches : Nat
  refetchFails : Nat
  lostBlocks : Nat
  /-- CODEC_OVERRUN, CODEC_SHORT, CODEC_TABLE, IMAGE_CRC, RAW_BLOCKS 32 bits; reset 0 -/
  codecOverrun : Nat
  codecShort : Nat
  codecTable : Nat
  imageCrc : Nat
  rawBlocks : Nat
  /-- the last codec blocks decoded for host reads, at most 64, newest first, R250 -/
  decoded : List (Nat × Nat)
  deriving DecidableEq, Repr

/-- A channel of T1 or T2 (Table 17-9). -/
structure Channel where
  trained : Bool
  retraining : Bool
  offline : Bool
  margin : Nat
  corrected : Nat
  uncorrectable : Nat
  retrains : Nat
  scrubPasses : Nat
  deriving DecidableEq, Repr

/-- A channel before training. -/
def freshChannel : Channel :=
  { trained := false, retraining := false, offline := false, margin := 0, corrected := 0,
    uncorrectable := 0, retrains := 0, scrubPasses := 0 }

/-- A weir bucket (R276): signed level in 1/256 byte, bytes passed. -/
structure Bucket where
  level : Int
  passed : Nat
  deriving DecidableEq, Repr

/-- What waits for a weir bucket (R275, Table 10-5): the load that runs, the index and offset reads of an
EMBED_LOOKUP, the output of an EMBED_LOOKUP or a REPLAY, a transfer of the sluice. -/
inductive Waiter where
  | load
  | reads (tenant qp index : Nat)
  | output (tenant qp index : Nat)
  | move (t : Transfer)
  deriving DecidableEq, Repr

/-- A governed transfer whose pieces have not all passed its bucket when its engine asked (R276): the
partition, the bucket (0 host DMA, 1 migration, 2 bulk) and the bytes left of each of its transfers, in their order. -/
structure Governed where
  who : Waiter
  partition : Nat
  bucket : Nat
  left : List Nat
  deriving DecidableEq, Repr

/-- A check unit (R272 to R274): the configuration in force, the running value, the byte count and
what row 4 latched. -/
structure Cku where
  config : Nat
  poly : Word64
  init : Word64
  crc : Nat
  bytes : Nat
  result : Nat
  latched : Nat
  /-- its configuration was written since the latest boundary (R426) -/
  written : Bool
  deriving DecidableEq, Repr

/-- A check unit after reset: nothing configured, nothing latched. -/
def freshCku : Cku :=
  { config := 0, poly := 0x1EDC6F41, init := 0xFFFFFFFF, crc := 0, bytes := 0, result := 0, latched := 0, written := false }

/-- A host access queued for a host window (R177): layer (quadrant * 8 + layer), the access and for a
Nuxus access its header. -/
inductive HostAccess where
  | read (address : Nat)
  | write (address : Nat) (data : List Byte)
  | atomic (address elemType : Nat) (data : List Byte) (ack : Option (Nat × Nat))
  deriving DecidableEq, Repr

/-! ## The step (chapters 1, 9, 11) -/

/-- One entry of the length table (R15), with the drafts it verifies and its chunk. -/
structure RowPlan where
  ctx : Nat
  committed : Nat
  nodes : Nat
  drafts : List Nat
  chunkFirst : Nat
  chunkLast : Nat
  /-- a prompt chunk is processed -/
  chunk : Bool
  /-- the chunk recomputes dropped positions (R216) -/
  recompute : Bool
  /-- the chunk completes the pending tokens (R137) -/
  lastChunk : Bool
  home : Nat
  probe : Bool
  deriving DecidableEq, Repr

/-- What the SU decided for one sequence (R233, R238). -/
structure SeqResult where
  ctx : Nat
  tokens : List Nat
  drafted : Nat
  reached : Bool
  endReason : Nat
  stopIndex : Nat
  nextDrafts : List Nat
  /-- its first token is the first after a prompt or APPEND (Table 09-4) -/
  first : Bool
  deriving DecidableEq, Repr

/-- What kind of step runs (R11). -/
inductive StepKind where
  | main | draft (depth : Nat) | lookup | replay (ctx : Nat)
  deriving DecidableEq, Repr

/-- A section as the TTB placed it (R291). -/
structure Placed where
  engine : Nat
  quads : Nat
  startSlot : Nat
  length : Nat
  flags : Nat
  tensor : Nat
  deriving DecidableEq, Repr

/-- The step built in row 10 or in flight. -/
structure Step where
  kind : StepKind
  slot : Nat
  counter : Nat
  cls : Nat
  mode : Nat
  hot : Bool
  derated : Bool
  level : Nat
  rows : List RowPlan
  lookups : List Lookup
  sections : List Placed
  /-- step length in slots -/
  slots : Nat
  generation : Nat
  started : Bool
  /-- 2^-16 ns -/
  startTime : Nat
  voided : Bool
  voidedBlocks : List Nat
  substituted : Bool
  /-- hold periods of the hold in progress (R278, R280) -/
  heldPeriods : Nat
  /-- experts filled at routing points: layer, quadrant, streamed, on NBUs (R131) -/
  expertFill : List (Nat × Nat × List Nat × List Nat)
  results : List SeqResult
  deriving DecidableEq, Repr

/-- One entry of the scalar register file (Table 06-4). -/
structure Scalar where
  position : Nat
  rows : Nat
  home : Nat
  int4 : Bool
  temperature : Word32
  adapter : Nat
  adapterScale : Word32
  chunkFirst : Nat
  chunkLast : Nat
  window : Nat
  deriving DecidableEq, Repr

/-- An NBU as its command window shows it (Table 07-2), with the held partial of R157. -/
structure Nbu where
  busy : Bool
  heldValid : Bool
  poisoned : Bool
  overrun : Bool
  corrected : Nat
  runningTag : Word32
  lastTag : Word32
  /-- held statistics, one (m, l, o) for each query row -/
  held : List (Word32 × Word32 × List Word32)
  output : List Byte
  deriving DecidableEq, Repr

/-- An idle NBU. -/
def idleNbu : Nbu :=
  { busy := false, heldValid := false, poisoned := false, overrun := false, corrected := 0,
    runningTag := 0, lastTag := 0, held := [], output := [] }

/-! ## Faults and spares (chapter 14) -/

/-- A fault-log entry (Table 14-10). -/
structure FaultEntry where
  time : Nat
  step : Nat
  cls : Nat
  domain : DomainId
  cause : Nat
  action : Nat
  quadrant : Nat
  slot : Nat
  detail : Nat
  deriving DecidableEq, Repr

/-- A recovery domain that is not plainly in service (R355). -/
structure DomainState where
  id : DomainId
  /-- 1 recovering, 2 offline on its resource -/
  state : Nat
  opened : Nat
  unit : Nat
  /-- recovery itself is complete; the window closes at the end of a step without fault -/
  recovered : Bool
  /-- the domain escalates at the next row 6 -/
  escalating : Bool
  /-- the fault's log entry, written when row 6 knows the action (Table 14-10) -/
  entry : Option FaultEntry
  deriving DecidableEq, Repr

/-- An entry of the health record in flash (R363). -/
inductive HealthEntry where
  | unit (domain : DomainId) (unit : Nat)
  | repair (r : Repair)
  | frame (tier frame : Nat)
  deriving DecidableEq, Repr

/-- The dump in progress or done (R373, Table 14-8): its header's fields. -/
structure Dump where
  toReserve : Bool
  complete : Bool
  hostFailed : Bool
  cause : Nat
  domain : Nat
  quadrant : Nat
  inst : Nat
  time : Nat
  step : Nat
  /-- timetable position at detection: [23:0] slot, [24] in a boundary, [28:25] its row -/
  position : Nat
  deriving DecidableEq, Repr

/-- The state of the fault machinery (R352 to R376). -/
structure Faults where
  /-- global log: count 32 bits, the entries newest first, at most 65,536 (registers show 256), R420, reset 0 -/
  logCount : Nat
  log : List FaultEntry
  /-- quadrant logs, R420 -/
  quadCount : FMap Nat
  quadLog : FMap (List FaultEntry)
  /-- domains recovering or offline, R355 -/
  domains : List DomainState
  /-- attributed STEP and UNIT faults: unit and boundary, R357 -/
  history : List (DomainId × Nat × Nat)
  /-- units whose retirement waits for row 6, R357, R359 -/
  retiring : List (DomainId × Nat)
  /-- tile states: quadrant * 512 + tile (PA tiles from 256), Table 17-7 coding; unlisted: as built -/
  tiles : FMap Nat
  /-- NBU states: ((quadrant * 8 + layer) * 16 + group) * 32 + position; unlisted: as built -/
  nbus : FMap Nat
  /-- lane groups with their spare in service: bond, command-path toward layer and toward die -/
  bondSpares : List (Nat × Nat)
  cmdSpares : List (Nat × Nat)
  /-- used spare rows of a bank: (layer index * 1024 + bank); used columns -/
  rowsUsed : FMap Nat
  columnsUsed : FMap Nat
  /-- HEALTH mismatches awaiting a second one: NBU key and boundary, Table 14-3 -/
  mismatches : List (Nat × Nat)
  /-- UNIT_MAP_GEN, 32 bits, reset 0, R360 -/
  mapGen : Nat
  /-- SPARES_LOW, 1 bit, reset 0, R361 -/
  sparesLow : Bool
  /-- DA_PROMPT_MODE of each quadrant, R138, reset 0 -/
  daPrompt : List Bool
  /-- FATAL, CAUSE 16 bits, FATAL_DOMAIN 8 bits, reset 0, R373 -/
  fatal : Bool
  cause : Nat
  fatalDomain : Nat
  /-- DUMP_DONE, DUMP_IN_RESERVE, reset 0 -/
  dumpDone : Bool
  dumpInReserve : Bool
  dump : Option Dump
  /-- plain content of the dump reserve, reset empty, R374 -/
  reserve : List Byte
  /-- forced hot and derated variants until the release thresholds, R354 -/
  forcedThermal : Bool
  /-- refresh and derating states in force, Table 07-6 -/
  hot : Bool
  derated : Bool
  /-- retired frames by tier (0, 1, 2): count and list, R365 -/
  retiredFrames : List (Nat × Nat)
  /-- domains whose fault waits for step end to be voided by attribution: COMMAND_ERRORS by layer -/
  commandErrors : FMap Nat
  eccCorrected : FMap Nat
  eccUe : FMap Nat
  timingFaults : FMap Nat
  nonfiniteKv : FMap Nat
  nonfiniteLogit : FMap Nat
  substitutions : FMap Nat
  heldSlots : FMap Nat
  /-- WINDOW_PEAK by layer, 8 bits, reset 0, Table 17-8 -/
  windowPeak : FMap Nat
  /-- control cores: 0 in service, 1 halted, 2 offline, 3 restarted and rejoining at the next boundary; reset
  both in service, R371 -/
  cores : List Nat
  /-- contexts whose private data is damaged beyond recompute: they end FAULTED at the next boundary, R368 -/
  damaged : List Nat
  deriving DecidableEq, Repr

/-! ## Time, power, boot, security -/

/-- Device time (R343 to R351, Table 17-4). `count` is in 2^-48 ns, `phase` counts aclk since the
latest reference edge. -/
structure Clock where
  count : Nat
  phase : Nat
  /-- INCREMENT, 64 bits, reset 0x000A000000000000 -/
  increment : Nat
  /-- STEER, signed 32 bits, reset 0 -/
  steer : Int
  /-- REF_LOCKED, TIME_LOCKED, REF_PRESENT, 1 bit each, reset 0 -/
  refLocked : Bool
  timeLocked : Bool
  refPresent : Bool
  /-- REF_LOSS 32 bits, THETA signed 64 bits, TIME_FAILS 32 bits, reset 0 -/
  refLoss : Nat
  theta : Int
  timeFails : Nat
  /-- consecutive exchanges with |theta| at most 2 ns, above 4 ns, and failed, R349 -/
  good : Nat
  bad : Nat
  failed : Nat
  /-- the PF latch pair, Table 13-1, reset 0 -/
  latch0 : Latch
  latch1 : Latch
  /-- an accepted TIME_SET that waits for row 7, R350 -/
  pendingSet : Option Nat
  /-- sequence of the TIME REQUEST in flight -/
  exchange : Option Nat
  nextExchange : Nat
  /-- the latest whole second a pulse was given for, R346 -/
  lastPulse : Nat
  deriving DecidableEq, Repr

/-- The power and envelope block (R391 to R400, Table 17-5). -/
structure Power where
  /-- the input is applied and every rail is in regulation -/
  on : Bool
  /-- POWER_WARN, 1 bit, reset 0 -/
  warn : Bool
  /-- phases shed or retired, numbers 0 to 25; PHASES reset 26 -/
  shed : List Nat
  /-- BMC_LIMIT, 12 bits, reset 2,600 -/
  bmcLimit : Nat
  /-- EFFECTIVE, 12 bits, reset 2,400: as first used in row 10 -/
  effective : Nat
  /-- LEVEL 2 bits, PACE 13 bits, reset 0 -/
  level : Nat
  pace : Nat
  /-- consecutive row-10 tests below 90 percent, R398 -/
  below : Nat
  /-- INTERRUPTIONS, 32 bits, reset 0 at power-on, R392 -/
  interruptions : Nat
  /-- VIN 16 bits, IIN, PIN, PAVG 32 bits, ENERGY 64 bits, reset 0 -/
  vin : Nat
  iin : Nat
  pin : Nat
  pavg : Nat
  energy : Nat
  /-- COOLANT_IN, COOLANT_OUT 16 bits, reset 0 -/
  coolantIn : Nat
  coolantOut : Nat
  /-- PHASE_I, PHASE_T of each phase; RAIL of each rail, reset 0 -/
  phaseCurrent : FMap Nat
  phaseTemp : FMap Nat
  rail : FMap Nat
  /-- layer temperatures (quadrant * 8 + layer), signed 0.25 degrees, reset 0 -/
  layerTemp : FMap Int
  /-- DIE_TEMP (quadrant * 16 + sensor), signed 16 bits, reset 0, Table 17-7 -/
  dieTemp : FMap Int
  /-- PKG_TEMP by channel as State.channels, signed 16 bits, reset 0, Table 17-9 -/
  pkgTemp : FMap Int
  deriving DecidableEq, Repr

/-- How far the module has come (Table 16-6, BOOT_STAGE, R389). -/
inductive BootPhase where
  /-- no power, or the rails are not in regulation -/
  | off
  /-- PERST# is asserted: the boot ROM has not started -/
  | held
  /-- both banks failed (R382) -/
  | bootFail
  /-- images verified; training runs (BOOT_STAGE 3) -/
  | training
  /-- the wipe of Table 15-9 runs (BOOT_STAGE 4) -/
  | wiping
  /-- READY (BOOT_STAGE 5) -/
  | ready
  deriving DecidableEq, Repr

/-- Boot, link and rack state (chapter 16). -/
structure Boot where
  phase : BootPhase
  /-- WIPE_DONE, 1 bit, reset 0 -/
  wipeDone : Bool
  /-- the wipe in progress belongs to a warm reset (R402) -/
  warm : Bool
  /-- LINK_WIDTH, LINK_RATE, reset 0 -/
  linkWidth : Nat
  linkRate : Nat
  /-- CXL.cache is enabled on the link (CACHE_ON) -/
  cxlCache : Bool
  /-- LATCH_OPEN, REMOVE_READY, reset 0; a REMOVE_REQ that waits for a boundary -/
  latchOpen : Bool
  latchStops : Bool
  latchExpired : Bool
  removeReady : Bool
  removing : Bool
  /-- presses counted in BOOT_FAIL or FATAL and overlong closures (R408) -/
  pressesIgnored : Nat
  /-- ATTN_BTN# pulses given (R408) -/
  attnPulses : Nat
  /-- safe to pull after an evacuation (R342) -/
  evacuated : Bool
  /-- the sideband is in I3C mode with this dynamic address (R446) -/
  i3c : Option Nat
  /-- the indirect address of command 0x48 (R446), 32 bits, 0 at power-on -/
  indirect : Word32
  /-- staged repairs in flash (R414) and discarded ones SPARE_MAP reports -/
  staged : List Repair
  discarded : List Repair
  /-- entries of the health record that training has read: their repairs are hard (R363) -/
  hard : Nat
  deriving DecidableEq, Repr

/-- Life-cycle states (Table 15-2), LC_STATE coding of Table 17-6. -/
inductive LifeCycle where
  | blank | provisioned | operational | debug | rma | retired
  deriving DecidableEq, Repr

/-- An enrolled package key pair (R78): RSA key id, SLH-DSA key id. -/
structure KeyPair where
  rsa : Word64
  slh : Word64
  deriving DecidableEq, Repr

/-- What measurements 5 to 8 report (Table 15-6), as of the start of the latest boundary (R386). -/
structure Snapshot where
  mapGen : Nat
  tiles : FMap Nat
  nbus : FMap Nat
  policy : Nat
  ideRequired : Nat
  enrolled : List KeyPair
  /-- sealed RWL fields by bit address, beside those at their reset values -/
  sealedRegs : FMap Nat
  /-- slot, state, package hash -/
  slots : List (Nat × Nat × Nat)
  /-- adapter, owner, package hash -/
  adapters : List (Nat × Nat × Nat)
  /-- package hashes of the table sets -/
  tables : List Nat
  tenants : FMap TenantParams
  deriving DecidableEq, Repr

/-- Nothing reported yet. -/
def freshSnapshot : Snapshot :=
  { mapGen := 0, tiles := [], nbus := [], policy := 0, ideRequired := 0, enrolled := [], sealedRegs := [],
    slots := [], adapters := [], tables := [], tenants := [] }

/-- The SPDM responder of one function (R384, R385): how far negotiation has come, the open sessions,
and the digest the latest signed response covered. -/
structure Spdm where
  version : Bool
  capabilities : Bool
  algorithms : Bool
  handshaking : List Nat
  sessions : List Nat
  nextSession : Nat
  lastSigned : Option (BitVec 384)
  keyUpdates : Nat
  deriving DecidableEq, Repr

/-- A responder with nothing negotiated. -/
def freshSpdm : Spdm :=
  { version := false, capabilities := false, algorithms := false, handshaking := [], sessions := [],
    nextSession := 0, lastSigned := none, keyUpdates := 0 }

/-- An IDE stream (R387): its keys are set, it is in the Secure state, its key generation. -/
structure IdeStream where
  programmed : Bool
  secure : Bool
  keyGen : Nat
  deriving DecidableEq, Repr

/-- The security core (R377 to R390, Table 17-6). -/
structure Security where
  /-- LC_STATE 3 bits, LC_COUNT 8 bits, MIN_SVN 16 bits: fused -/
  state : LifeCycle
  count : Nat
  minSvn : Nat
  /-- GRADE 8 bits: fused, 0 LT9-768A, 1 LT9-768S -/
  gradeS : Bool
  /-- fused-off home positions: (quadrant * 8 + layer) * 16 + group to position, R145 -/
  fusedPos : FMap Nat
  /-- BOOT_BANK, BOOTED 1 bit; the two bundles in flash, R382, R383 -/
  bootBank : Nat
  booted : Nat
  bank0 : FwBundle
  bank1 : FwBundle
  /-- MB_BUSY 1 bit, MB_REASON 8 bits, reset 0 -/
  busy : Bool
  reason : Nat
  /-- NONCE, 256 bits, random: a free value -/
  nonce : BitVec 256
  /-- the ownership keys (id of the RSA key and of the SLH key), enrolled package keys, flash -/
  owner : Option KeyPair
  enrolled : List KeyPair
  /-- ENROLL and REVOKE that wait for the next boundary -/
  enrolling : List (Bool × KeyPair)
  /-- the device secret is readable -/
  secret : Bool
  /-- generations: provider storage key, dump key, the next fresh key -/
  providerKey : Nat
  dumpKey : Option Nat
  nextKey : Nat
  /-- SPDM responders by function, IDE streams by number -/
  spdm : FMap Spdm
  ide : FMap IdeStream
  /-- measurement 4 as recorded at boot: LC_STATE, LC_COUNT, MIN_SVN, R386 -/
  bootState : List Nat
  /-- measurements 5 to 8 as of the latest boundary, R386 -/
  snapshot : Snapshot
  deriving DecidableEq, Repr

/-! ## Nuxus (chapter 12) -/

/-- Port states (Table 12-1). -/
inductive PortState where
  | down | training | up | failed
  deriving DecidableEq, Repr

/-- One Nuxus port (Table 18-8, R306 to R314). -/
structure Port where
  state : PortState
  failReason : Nat
  autoTrainings : Nat
  rxReplaced : Nat
  txReplaced : Nat
  laneWear : List Nat
  wearRun : FMap Nat
  peerId : Nat
  peerRole : Nat
  peerEpoch : Nat
  bitErrors : FMap Nat
  fecCorrected : Nat
  fecUncorrectable : Nat
  replays : Nat
  crcErrors : Nat
  badMessages : Nat
  credits : FMap Nat
  sent : FMap Nat
  eye : FMap Nat
  /-- next sequence number to send, last received in order, 12 bits, R310 -/
  nextSeq : Nat
  lastSeq : Nat
  /-- sequence numbers kept for replay, oldest first, at most 512, R312 -/
  unacked : List Nat
  /-- data flits received since the last acknowledgement, R312 -/
  sinceAck : Nat
  acksSent : Nat
  naksSent : Nat
  /-- consecutive replays of one flit, R313 -/
  replayRun : Nat
  /-- virtual channels of the flits that wait for a credit or a replay buffer entry, oldest first, R314 -/
  waiting : List Nat
  /-- waits for row 7: 1 DOWN, 2 TRAINING -/
  pending : Nat
  /-- boundary from which the junction uses the port -/
  usableFrom : Nat
  deriving DecidableEq, Repr

/-- A port after reset (Table 18-8): DOWN. -/
def freshPort : Port :=
  { state := .down, failReason := 0, autoTrainings := 0, rxReplaced := 7, txReplaced := 7,
    laneWear := [], wearRun := [], peerId := 0, peerRole := 0, peerEpoch := 0, bitErrors := [],
    fecCorrected := 0, fecUncorrectable := 0, replays := 0, crcErrors := 0, badMessages := 0,
    credits := [], sent := [], eye := [], nextSeq := 0, lastSeq := 0, unacked := [], sinceAck := 0,
    acksSent := 0, naksSent := 0, replayRun := 0, waiting := [], pending := 0, usableFrom := 0 }

/-- Roles (Table 12-7). -/
inductive Role where
  | standalone | manager | worker | spare
  deriving DecidableEq, Repr

/-- A member-table entry of a manager (Table 18-9). -/
structure Member where
  id : Nat
  role : Role
  epoch : Nat
  /-- it has sent a READY at its epoch, R333 -/
  joined : Bool
  /-- consecutive aborts it caused, R332 -/
  aborts : Nat
  deriving DecidableEq, Repr

/-- A request this module has outstanding (R320). -/
structure Outstanding where
  destination : Nat
  tag : Nat
  /-- 1 READ, 2 WRITE, 3 ATOMIC of the mailbox, 4 TIME -/
  op : Nat
  /-- the position or module RESOLVE has been asked for, R336 -/
  resolving : Bool
  /-- the one further attempt of R336 has been made -/
  retried : Bool
  deriving DecidableEq, Repr

/-- A role change that waits for row 7 (R326, R440). -/
structure RoleChange where
  target : Nat
  grant : RoleGrant
  atStep : Nat
  deriving DecidableEq, Repr

/-- The junction and role block (R315 to R342, Table 18-9). -/
structure Junction where
  /-- ROLE 2 bits, POSITION 6 bits, LEVEL 2 bits, ROLE_EPOCH 32 bits, reset 0 -/
  role : Role
  position : Nat
  level : Nat
  epoch : Nat
  /-- MANAGER_ID, DOMAIN_MGR_ID, 10 bits, reset 0 -/
  managerId : Nat
  domainMgr : Nat
  /-- the manager's epoch as RESOLVE_REPLY last named it: the model's own, log 21 -/
  managerEpoch : Nat
  /-- EVAC_STATE 3 bits, EVAC_PEER 10 bits, reset 0; at the manager the positions of the worker and the spare,
  and the workers whose requests wait, R338 -/
  evacState : Nat
  evacPeer : Nat
  evacWorker : Nat
  evacSpare : Nat
  evacQueue : List Nat
  /-- at the worker: groups sent, those not yet acknowledged, whether it has reported, R339, R340 -/
  sentGroups : List Nat
  unacked : List Nat
  reported : Bool
  /-- at the manager: group steps pause, R340; the switchover is due in the next row 7 -/
  paused : Bool
  switchover : Bool
  /-- at the manager: positions of members declared failed, R358 -/
  lost : List Nat
  /-- STALE_REFUSED, STALE_DISCARDED, ROUTE_DISCARDED 64 bits, ABORTS, RESOLVES 32 bits, reset 0 -/
  staleRefused : Nat
  staleDiscarded : Nat
  routeDiscarded : Nat
  aborts : Nat
  resolves : Nat
  /-- the member table by position, without the manager itself, reset empty -/
  members : FMap Member
  /-- role changes that wait for row 7 -/
  changes : List RoleChange
  /-- RA_BUSY 1 bit, RA_STATUS 8 bits, RA_TIMEOUT 1 bit, reset 0; RA_DATA 4,096 bytes, reset 0 -/
  raBusy : Bool
  raStatus : Nat
  raTimeout : Bool
  raData : List Byte
  /-- requests outstanding, R320; the next tag, 16 bits -/
  outstanding : List Outstanding
  nextTag : Nat
  /-- latest READY of each position, R304, R328 -/
  readies : List ReadyBody
  /-- positions whose READY for the step being prepared is in -/
  readyFor : List Nat
  /-- the plan of the group step being prepared -/
  plan : Option PlanBody
  /-- start time of the next group step, stamp in 2^-16 ns, R304 -/
  startAt : Option Nat
  /-- the READY of this boundary has been sent -/
  readySent : Bool
  /-- epochs issued as manager above EPOCH_BASE, R334 -/
  issued : Nat
  deriving DecidableEq, Repr

/-- A Nuxus message sent (Table 12-5): type, destination, tag, epoch, status, address and data words. -/
structure SentMsg where
  kind : Nat
  destination : Nat
  tag : Nat
  epoch : Nat
  status : Nat
  address : Nat
  values : List Nat
  data : List Byte
  deriving DecidableEq, Repr

/-! ## What the block has sent -/

/-- An answer on the CXL link, the sideband, DOE or JTAG. -/
inductive Reply where
  | cxlData (address : Nat) (data : List Byte)
  | cxlPoison (address : Nat)
  | cxlDone (address : Nat)
  | cxlError (address : Nat)
  | sideband (word : Word32)
  | nack
  | spdmVersions (versions : List Nat)
  | spdmCapabilities (chunked cert challenge meas keyExchange heartbeat keyUpdate : Bool)
  | spdmAlgorithms
  | spdmDigests (slots : List Nat) (digest : BitVec 384)
  | spdmCertificate (offset : Nat) (data : List Byte)
  | spdmSigned (kind : Nat) (digest : BitVec 384) (signature : List Byte)
  | spdmMeasurements (index : Nat) (blocks : List (Nat × List Nat))
  | spdmFinish (session : Nat)
  | spdmHeartbeat (session : Nat)
  | spdmKeyUpdate (session operation : Nat)
  | spdmEnd (session : Nat)
  | spdmError (code : Nat)
  | pqSignature (digest : BitVec 384) (signature : List Byte)
  | pqCertificate (offset : Nat) (data : List Byte)
  | doeProtocols (index vendor kind next : Nat)
  | ideAck (stream : Nat)
  | fuses (gradeS : Bool) (fused : FMap Nat) (repairs : List HealthEntry)
  | spares (rowsUsed rowsFree columnsUsed columnsFree : Nat) (discarded : List Repair)
  | health (entries : List HealthEntry)
  | mailbox (reason : Nat)
  deriving DecidableEq, Repr

/-- An MSI-X message sent (R47, R435). -/
structure MsixMessage where
  tenant : Nat
  vector : Nat
  address : Word64
  data : Word32
  deriving DecidableEq, Repr

/-- Everything sent to the outside, newest first, beside the writes that stand in host memory. -/
structure Output where
  msix : List MsixMessage
  nuxus : List SentMsg
  replies : List Reply
  /-- PPS_OUT pulses: whole seconds, newest first (R346) -/
  pps : List Nat
  /-- back-invalidate snoops, block numbers, newest first (R251) -/
  snoops : List Nat
  /-- the sideband alert pin is asserted (R361, R373, R446) -/
  alert : Bool
  deriving DecidableEq, Repr

/-- The host platform the block reaches over CXL: its memory and its IOMMU (R44, R49). -/
structure Platform where
  mem : List Host.Cell
  ranges : List IommuRange
  deriving DecidableEq, Repr

/-! ## The machine -/

/-- The state of the LT9. -/
structure State where
  /-- waiting commands, first in first out: the model's own -/
  pending : List Instr
  /-- free-value counter: the model's own, reset 0, DESIGN CHOICE (log 1) -/
  freeIndex : Nat
  /-- RW and RWL register fields by PF BAR0 bit address; unlisted: the reset value (R10) -/
  regs : FMap Nat
  /-- the same fields as latched at the start of the latest boundary (R417) -/
  latched : FMap Nat
  /-- lower halves of 64-bit fields waiting for their upper half (R415) -/
  halves : FMap Nat
  /-- SEAL_STATE, 6 bits, reset 0 -/
  seals : BitVec 6
  /-- REFUSED_COUNT 32, REFUSED_ADDR 26, REFUSED_KIND 4 bits, reset 0 (R416) -/
  refusedCount : Nat
  refusedAddr : Nat
  refusedKind : Nat
  /-- LOAD_REASON 8, LOAD_CMD_ID 32, LOAD_OFFSET 64 bits, reset 0 (R101) -/
  loadReason : Nat
  loadCmdId : Nat
  loadOffset : Nat
  /-- TPL_MIN, TPL_MAX 8 bits, FW_VERSION 64 bits: of the running firmware -/
  tplMin : Nat
  tplMax : Nat
  fwVersion : Word64
  /-- STEP_COUNTER, 64 bits, reset 0 (R300) -/
  stepCounter : Nat
  /-- boundaries since reset (R202, R357) -/
  boundary : Nat
  /-- stamp of the latest boundary, 2^-16 ns (R26) -/
  stamp : Nat
  /-- page-table generation (R27) -/
  generation : Nat
  clock : Clock
  power : Power
  boot : Boot
  security : Security
  faults : Faults
  /-- tenants; unlisted: after reset -/
  tenants : FMap Tenant
  /-- queue pairs by tenant * 16 + number; unlisted: DISABLED -/
  qps : FMap Qp
  /-- contexts; unlisted: FREE since reset (R51) -/
  ctxs : FMap Ctx
  /-- model slots; unlisted: EMPTY -/
  slots : FMap ModelSlot
  adapters : FMap Adapter
  tableSets : List TableSet
  nextVersion : Nat
  loads : List LoadJob
  lookups : List Lookup
  /-- main-model steps started since the last lookup step (R95) -/
  sinceLookup : Nat
  /-- group map; unlisted: FREE (R192) -/
  groups : FMap Group
  images : FMap SpillImage
  pools : FMap Pool
  diversions : List Diversion
  bindings : List PrefixBinding
  nodes : List PrefixNode
  imports : List ImportJob
  exports : List ExportJob
  /-- page-table pieces in use of 131,072 (R193) -/
  piecesUsed : Nat
  /-- history chunks in use of 67,108,864 (R218) -/
  historyUsed : Nat
  /-- what returns to a free list, with the boundary whose row 5 returns it (R202, R254) -/
  grace : List (Nat × GraceItem)
  /-- recency count of handles, nodes and adapters (R204, R209) -/
  useCount : Nat
  /-- placement table; unlisted: UNMAPPED (R247) -/
  blocks : FMap Block
  /-- lower-tier frames in use beside images and mirrors of blocks -/
  tierUsed : List (Nat × Nat)
  sluice : Sluice
  /-- T1 channels 0 to 19, T2 channels 32 to 47 (Table 17-9) -/
  channels : FMap Channel
  /-- weir buckets by partition * 4 + bucket; unlisted: full (R276) -/
  buckets : FMap Bucket
  /-- governed transfers that wait for a bucket, in the order in which they asked (R276); reset none -/
  governed : List Governed
  /-- outputs that wait for their bucket; reset none -/
  outgoing : List Outgoing
  /-- check units by quadrant * 16 + unit (R272) -/
  ckus : FMap Cku
  /-- host queues by layer index (R177) -/
  hostQueues : FMap (List HostAccess)
  /-- atomic-cache lines in use by quadrant, newest first (R167) -/
  atomicCache : FMap (List Nat)
  /-- contents of the device-physical range, sparse, unlisted bytes 0 (R244, R250, R389) -/
  mem : List Host.Cell
  /-- contents of device-held T0 frames, by frame * 2 MiB + offset, unlisted bytes 0 (R244) -/
  bank : List Host.Cell
  /-- poisoned device-physical lines (R281, R368) -/
  poisoned : List Nat
  /-- staging SRAM buffers (R114) -/
  staging : FMap (List Word32)
  /-- logits handed to the SU: context * 32 + row, draft heads as rows 16 on (R123, R223) -/
  logits : FMap (List Word32)
  /-- NBUs by (layer index * 256 + quad); unlisted: idle -/
  nbus : FMap Nbu
  /-- the two scalar banks and the bank the VE reads (R142, R143) -/
  bank0 : List Scalar
  bank1 : List Scalar
  activeBank : Nat
  bankReady : Bool
  /-- the timetable check of the boundary agreed (R370) -/
  checked : Bool
  /-- the step built in row 10 or in flight -/
  step : Option Step
  /-- main step that follows the draft steps of a round (R224) -/
  round : Option Step
  /-- wait periods still to run before the step (R25, R399) -/
  waits : Nat
  /-- boundaries in a row with no sequence at risk (R67) -/
  calm : Nat
  /-- completions and end entries to be written in row 3 -/
  outbox : List Completion
  /-- token-ring entries to be written in row 3: context and the 16 bytes -/
  ringOut : List (Nat × BitVec 128)
  /-- Nuxus ports, by number; unlisted: DOWN, as after reset (R306, Table 18-8) -/
  ports : FMap Port
  junction : Junction
  host : Platform
  out : Output
  /-- health record in flash (R363) -/
  health : List HealthEntry
  /-- boundaries of the latest replay step of each slot (R302) -/
  lastReplay : FMap Nat
  deriving DecidableEq, Repr

/-! ## Reset -/

/-- A firmware image as the model has it in flash at reset: verified, security version 0
(DESIGN CHOICE, log 3). -/
def flashImage : FwImage := { svn := 0, rsaOk := true, slhOk := true, version := 0, digest := 0 }

/-- The bundle in both flash banks at reset (DESIGN CHOICE, log 3). -/
def flashBundle : FwBundle := { security := flashImage, control := flashImage, training := flashImage }

/-- Counters and records of the fault machinery after a cold reset. -/
def freshFaults : Faults :=
  { logCount := 0, log := [], quadCount := [], quadLog := [], domains := [], history := [],
    retiring := [], tiles := [], nbus := [], bondSpares := [], cmdSpares := [], rowsUsed := [],
    columnsUsed := [], mismatches := [], mapGen := 0, sparesLow := false,
    daPrompt := [false, false, false, false], fatal := false, cause := 0, fatalDomain := 0,
    dumpDone := false, dumpInReserve := false, dump := none, reserve := [], forcedThermal := false, hot := false,
    derated := false, retiredFrames := [], commandErrors := [], eccCorrected := [], eccUe := [],
    timingFaults := [], nonfiniteKv := [], nonfiniteLogit := [], substitutions := [],
    heldSlots := [], windowPeak := [], cores := [0, 0], damaged := [] }

/-- Device time at a cold reset (Table 13-3). -/
def freshClock : Clock :=
  { count := 0, phase := 0, increment := 0x000A000000000000, steer := 0, refLocked := false,
    timeLocked := false, refPresent := false, refLoss := 0, theta := 0, timeFails := 0, good := 0,
    bad := 0, failed := 0, latch0 := freshLatch, latch1 := freshLatch, pendingSet := none,
    exchange := none, nextExchange := 0, lastPulse := 0 }

/-- The power block at power-on (Table 17-5). -/
def freshPower : Power :=
  { on := true, warn := false, shed := [], bmcLimit := 2600, effective := 2400, level := 0,
    pace := 0, below := 0, interruptions := 0, vin := 0, iin := 0, pin := 0, pavg := 0, energy := 0,
    coolantIn := 0, coolantOut := 0, phaseCurrent := [], phaseTemp := [], rail := [],
    layerTemp := [], dieTemp := [], pkgTemp := [] }

/-- The sluice after reset (Table 17-10). -/
def freshSluice : Sluice :=
  { commands := [], unsealing := [], issued := 0, done := 0, result := 0, last := 0,
    transfers := [], promotions := 0, demotions := 0, refetches := 0, refetchFails := 0,
    lostBlocks := 0, codecOverrun := 0, codecShort := 0, codecTable := 0, imageCrc := 0,
    rawBlocks := 0, decoded := [] }

/-- The junction after a cold reset (Table 16-5: STANDALONE, epoch 0). -/
def freshJunction : Junction :=
  { role := .standalone, position := 0, level := 0, epoch := 0, managerId := 0, domainMgr := 0,
    managerEpoch := 0, evacState := 0, evacPeer := 0, evacWorker := 0, evacSpare := 0, evacQueue := [],
    sentGroups := [], unacked := [], reported := false, paused := false, switchover := false, lost := [],
    staleRefused := 0, staleDiscarded := 0, routeDiscarded := 0, aborts := 0, resolves := 0, members := [],
    changes := [], raBusy := false, raStatus := 0, raTimeout := false, raData := [], outstanding := [],
    nextTag := 0, readies := [], readyFor := [], plan := none, startAt := none, readySent := false,
    issued := 0 }

/-- Boot state: powered, PERST# asserted (R405). -/
def freshBoot : Boot :=
  { phase := .held, wipeDone := false, warm := false, linkWidth := 0, linkRate := 0,
    cxlCache := false, latchOpen := false, latchStops := false, latchExpired := false,
    removeReady := false, removing := false, pressesIgnored := 0, attnPulses := 0,
    evacuated := false, i3c := none, indirect := 0, staged := [], discarded := [], hard := 0 }

/-- The security core of a module as manufactured (Table 15-4): BLANK, no transition made. The fused
and flashed values are DESIGN CHOICE (log 3). -/
def freshSecurity : Security :=
  { state := .blank, count := 0, minSvn := 0, gradeS := false, fusedPos := [], bootBank := 0,
    booted := 0, bank0 := flashBundle, bank1 := flashBundle, busy := false, reason := 0, nonce := 0,
    owner := none, enrolled := [], enrolling := [], secret := true, providerKey := 0,
    dumpKey := none, nextKey := 1, spdm := [], ide := [], bootState := [], snapshot := freshSnapshot }

/-- The machine right after reset: power applied, PERST# still asserted, every register at its reset
value, nothing resident, memory with nothing listed (R403, R405). -/
def State.reset : State :=
  { pending := [], freeIndex := 0, regs := [], latched := [], halves := [], seals := 0,
    refusedCount := 0, refusedAddr := 0, refusedKind := 0, loadReason := 0, loadCmdId := 0,
    loadOffset := 0, tplMin := 0, tplMax := 0, fwVersion := 0, stepCounter := 0, boundary := 0,
    stamp := 0, generation := 0, clock := freshClock, power := freshPower, boot := freshBoot,
    security := freshSecurity, faults := freshFaults,
    tenants := [(0, { freshTenant with params := some tenant0Params })], qps := [], ctxs := [],
    slots := [], adapters := [], tableSets := [], nextVersion := 0, loads := [], lookups := [],
    sinceLookup := 0, groups := [], images := [], pools := [], diversions := [], bindings := [],
    nodes := [], imports := [], exports := [], piecesUsed := 0, historyUsed := 0, grace := [],
    useCount := 0, blocks := [], tierUsed := [], sluice := freshSluice, channels := [], buckets := [], governed := [], outgoing := [],
    ckus := [], hostQueues := [], atomicCache := [], mem := [], bank := [], poisoned := [],
    staging := [], logits := [], nbus := [], bank0 := [], bank1 := [], activeBank := 0,
    bankReady := true, checked := true, step := none, round := none, waits := 0, calm := 0,
    outbox := [], ringOut := [], ports := [], junction := freshJunction,
    host := { mem := [], ranges := [] },
    out := { msix := [], nuxus := [], replies := [], pps := [], snoops := [], alert := false }, health := [],
    lastReplay := [] }

/-! ## How a step can stop -/

/-- The faults of the model. Both are safe: they stop the model where the spec describes no event. -/
inductive Fault where
  /-- A command names a unit the LT9 does not have (a tenant above 255, a port above 7, a descriptor of
  another opcode): raised by every meaning for an ill-formed command. Safe: no hardware event is
  stopped, since there is none. -/
  | noSuchUnit
  /-- A CXL.mem or Nuxus access outside the 4 TiB range of R244, of a length the link does not carry, or
  a remote access to a module id above 1,023: raised by the CXL.mem meanings. Safe. -/
  | outsideRange
  deriving DecidableEq, Repr

/-- The refusals of the model. -/
inductive Refusal where
  /-- The command has no meaning in this model yet: only Dispatch answers it. Safe. -/
  | notModelled (mnemonic : String)
  deriving DecidableEq, Repr

end Sys2Proof.Machine
end

