-- ==== Sys2Proof/Machine/Codec.lean ====
section
/-! DEFINITION. The lossless codec of stored images (R260 to R264): canonical code tables, encoding and
decoding of 4 KiB codec blocks, the layout of a compressed image. -/

namespace Sys2Proof.Machine

/-- Symbols of length 1 to 15 of a table, by length, then by symbol (R262). -/
def codeOrder (lengths : List Nat) : List (Nat × Nat) :=
  sortBy (fun a b => decide (a.1 < b.1))
    ((lengths.mapIdx fun i n => (n, i)).filter fun p => decide (0 < p.1))

/-- Canonical codes: the first is 0, each later one the previous plus 1, shifted left by the
difference in lengths (R262): (symbol, length, code). -/
def codesFrom : Nat → Nat → List (Nat × Nat) → List (Nat × Nat × Nat)
  | _, _, [] => []
  | prevLen, next, (n, v) :: r =>
    let c := next * 2 ^ (n - prevLen)
    (v, n, c) :: codesFrom n (c + 1) r

def codes (lengths : List Nat) : List (Nat × Nat × Nat) :=
  let o := codeOrder lengths
  codesFrom ((o.headD (0, 0)).1) 0 o

/-- The mode a tensor format needs (R261). -/
def codecMode (fmt : Nat) : Nat :=
  if fmt = 0x01 then 2 else if fmt = 0x11 ∨ fmt = 0x14 ∨ fmt = 0x22 then 1 else 0

/-- A table is valid for a tensor's format (R261): lengths at most 15, a complete prefix code or one
symbol of length 1, nibble tables without symbols 16 to 255, a matching mode. -/
def codecValid (t : CodecTable) (fmt : Nat) : Bool :=
  let present := t.lengths.filter fun n => decide (0 < n)
  decide (t.lengths.length = 256) && t.lengths.all (fun n => decide (n ≤ 15)) &&
    (decide (sumOf (present.map fun n => 2 ^ (15 - n)) = 2 ^ 15) || (present == [1])) &&
    decide (t.mode = codecMode fmt) &&
    (!(t.mode == 1) || (t.lengths.drop 16).all fun n => decide (n = 0))

/-- The symbols of plain bytes in a mode. -/
def codecSymbols (mode : Nat) (bs : List Byte) : List Nat :=
  if mode = 1 then (bs.map fun b => [b.toNat % 16, b.toNat / 16]).flatten
  else if mode = 2 then (leWords 2 (bs.length / 2) bs).map fun w => bitsOf w 7 8
  else bs.map BitVec.toNat

/-- The residue bytes of mode 2: bit 15 in bit 7, bits [6:0] below (R262). -/
def codecResidues (mode : Nat) (bs : List Byte) : List Byte :=
  if mode = 2 then
    (leWords 2 (bs.length / 2) bs).map fun w => BitVec.ofNat 8 (bitsOf w 15 1 * 128 + bitsOf w 0 7)
  else []

/-- The bits of a code, most significant first. -/
def codeBits (n c : Nat) : List Bool := (List.range n).map fun i => bitOf c (n - 1 - i)

/-- Bytes filled from bit 7 down to bit 0; the last one filled up with zeros. -/
def packBits : Nat → List Bool → List Byte
  | 0, _ => []
  | k + 1, l =>
    if l.isEmpty then []
    else
      let b := l.take 8
      let v := (b ++ List.replicate (8 - b.length) false).foldl (fun a x => 2 * a + bit x) 0
      BitVec.ofNat 8 v :: packBits k (l.drop 8)

def unpackBits (bs : List Byte) : List Bool :=
  (bs.map fun b => (List.range 8).map fun i => bitOf b.toNat (7 - i)).flatten

/-- The payload of a codec block and its raw flag (R263). -/
def codecEncode (t : CodecTable) (bs : List Byte) : List Byte × Bool :=
  let cs := codes t.lengths
  let syms := codecSymbols t.mode bs
  let coded := syms.map fun v => (cs.find? fun c => c.1 == v)
  if coded.any Option.isNone then (bs, true)
  else
    let bits := (coded.map fun c => match c with
      | some c => codeBits c.2.1 c.2.2
      | none => []).flatten
    let out := codecResidues t.mode bs ++ packBits (bits.length / 8 + 1) bits
    if 4096 ≤ out.length then (bs, true) else (out, false)

/-- The errors a codec block can show (Table 10-8). -/
inductive CodecError where
  | short | overrun | table
  deriving DecidableEq, Repr

/-- The next symbol of a bit stream: the code of at most 15 bits that matches. -/
def nextSymbol (cs : List (Nat × Nat × Nat)) (l : List Bool) : Option (Nat × List Bool) :=
  ((cs.find? fun c => decide (c.2.1 ≤ l.length) && (l.take c.2.1 == codeBits c.2.1 c.2.2))).map
    fun c => (c.1, l.drop c.2.1)

def takeSymbols (cs : List (Nat × Nat × Nat)) : Nat → List Bool → Option (List Nat × List Bool)
  | 0, l => some ([], l)
  | n + 1, l =>
    match nextSymbol cs l with
    | none => none
    | some (v, l) => (takeSymbols cs n l).map fun x => (v :: x.1, x.2)

/-- The plain bytes of symbols with their residues. -/
def fromSymbols (mode : Nat) (res : List Byte) (syms : List Nat) : List Byte :=
  if mode = 1 then
    (leWords 1 (syms.length / 2) []).mapIdx fun i _ =>
      BitVec.ofNat 8 (syms.getD (2 * i) 0 + 16 * syms.getD (2 * i + 1) 0)
  else if mode = 2 then
    (List.zipWith (fun (r : Byte) v =>
      leBytes (bitsOf r.toNat 7 1 * 2 ^ 15 + v * 2 ^ 7 + bitsOf r.toNat 0 7) 2) res syms).flatten
  else syms.map fun v => BitVec.ofNat 8 v

/-- Decodes a codec block (R264): header fields, the table of its slot with its generation, payload. -/
def codecDecode (raw : Bool) (declared generation : Nat) (tbl : Option (Nat × CodecTable))
    (payload : List Byte) : Except CodecError (List Byte) :=
  if raw then
    if payload.length < declared then .error .short
    else if declared < payload.length then .error .overrun
    else .ok payload
  else
    match tbl with
    | none => .error .table
    | some (g, t) =>
      if g ≠ generation then .error .table
      else
        let nres := if t.mode = 2 then declared / 2 else 0
        let nsym := if t.mode = 1 then 2 * declared else if t.mode = 2 then declared / 2 else declared
        if payload.length < nres then .error .short
        else
          match takeSymbols (codes t.lengths) nsym (unpackBits (payload.drop nres)) with
          | none => .error .short
          | some (syms, rest) =>
            if decide (8 ≤ rest.length) || rest.any id then .error .overrun
            else .ok (fromSymbols t.mode (payload.take nres) syms)

/-- The payload of every codec block of a compressed image, with its raw flag; none where the layout
runs past 2 MiB, so that the sluice writes a plain image (R260). -/
def imageBlocks (t : CodecTable) (byte : Nat → Byte) : List (List Byte × Bool) :=
  (List.range 512).map fun i => codecEncode t ((List.range 4096).map fun j => byte (i * 4096 + j))

def roundUp64 (n : Nat) : Nat := (n + 63) / 64 * 64

def imagePlain (l : List (List Byte × Bool)) : Bool :=
  decide (2097152 < 4096 + sumOf (l.map fun p => roundUp64 p.1.length))

/-- The number of raw codec blocks an image holds (RAW_BLOCKS). -/
def imageRaw (l : List (List Byte × Bool)) : Nat := (l.filter Prod.snd).length

/-- A codec block header (Table 10-7). -/
def codecHeader (len : Nat) (raw : Bool) (slot generation declared : Nat) : Nat :=
  len + 2 ^ 13 * bit raw + 2 ^ 14 * slot + 2 ^ 16 * generation + 2 ^ 24 * declared

end Sys2Proof.Machine
end

