-- ==== Sys2Proof/Config.lean ====
section
/-! DEFINITION. The free values: what the spec leaves open and the machine goes on with. Each is a
constant with no body, so nothing can be proved of its value. A first argument named `n` is the
state's free-value counter. -/

namespace Sys2Proof.Config

/-- The logits of a row the commands hand no logits for (log 2): counter, context, row, token. -/
opaque logit (n ctx row token : Nat) : Word32

/-- The bits the transcendental units return for the inputs R121 gives no fixed result (log 2). -/
opaque expUnit : Word32 → Word32
opaque logUnit : Word32 → Word32
opaque recipUnit : Word32 → Word32
opaque rsqrtUnit : Word32 → Word32
opaque sinUnit : Word32 → Word32
opaque cosUnit : Word32 → Word32
opaque tanhUnit : Word32 → Word32
opaque erfUnit : Word32 → Word32

/-- The reduced rotary angle of a dimension pair at a position, exact to 2^-40 before it is an FP32 input of
the units (R122, log 2). -/
opaque rotaryAngle (base scale : Word32) (dims pair position : Nat) : Word32

/-- What the security core's random generator returns (R229, R377, log 15): 64 and 256 bits, by the
free-value counter. -/
opaque random64 (n : Nat) : Word64
opaque random256 (n : Nat) : BitVec 256

/-- What check units 0 to 3 of a quadrant latch, which the sluice uses for block CRCs as it likes (R267,
R272, R274, log 17): counter, unit, 0 result or 1 byte count. -/
opaque sluiceUnit (n unit part : Nat) : Word64

/-- The residual streams and routing records of a replayed row (R303, log 2): counter, row, byte. -/
opaque replayByte (n row i : Nat) : Byte

/-- The oscillator steering a member settles on from an offset (R349, log 22): counter; in 0.001 ppm. -/
opaque memberSteer (n : Nat) : BitVec 32

/-- Whether an RSASSA-PSS signature verifies over a package hash under the key of an id, and whether an
SLH-DSA signature does (R77, R78): the keys and the algorithms stand outside the state (log 12). -/
opaque rsaVerifies (key : Word64) (hash : BitVec 384) (signature : List Byte) : Bool
opaque slhVerifies (key : Word64) (hash : BitVec 384) (signature : List Byte) : Bool

/-- Whether every fixed section and every variant of a template meets the timing rules of R168, R169,
R173, R175 and R176: the derivation is the firmware's (R171, R292, log 13): firmware version, the
template's bytes. -/
opaque variantsHold (firmware : Word64) (template : List Byte) : Bool

/-- The slots a section takes whose sizing rule needs what the spec leaves to the firmware (Table 11-4,
log 13): firmware version, rule, tensor, rows, chunk tokens, variant, unit-map generation. -/
opaque sectionSlots (firmware : Word64) (rule tensor rows tokens variant map : Nat) : Nat

/-- The whole 16-slot periods a variant other than the base variant inserts in a template (R292, log 13):
firmware version, class and mode, variant. -/
opaque variantPeriods (firmware : Word64) (template variant : Nat) : Nat

/-- Slots of a firmware lookup template for a number of indices (R95, log 13). -/
opaque lookupSlots (firmware : Word64) (indices variant : Nat) : Nat

/-- Wait periods that a core running alone takes to write the idle scalar bank (R371, log 6): counter. -/
opaque corePeriods (n : Nat) : Nat

/-- The template versions a firmware accepts, lowest and highest (R75, Table 17-2, log 3): firmware version. -/
opaque templateMin (firmware : Word64) : BitVec 8
opaque templateMax (firmware : Word64) : BitVec 8

/-- Whether the cable in a cage is one R447 accepts, where the command does not say it (log 26): counter. -/
opaque cableOk (n : Nat) : Bool

/-- The certificate chains of slot 0 and of the SLH-DSA keys (R384, R385, log 28), by what the alias keys are
derived from: life-cycle state and the digests of measurements 1 to 3. -/
opaque rsaChain (key : List Nat) : List Byte
opaque slhChain (key : List Nat) : List Byte

/-- The bytes of a signature under an alias key (R385, log 28): the key's name, RSA or SLH-DSA, the digest signed, byte. -/
opaque signatureByte (key : List Nat) (slh : Bool) (digest : BitVec 384) (i : Nat) : Byte

/-- The digest of what a signed SPDM response covers, its transcript (R385, log 28): counter. -/
opaque transcript (n : Nat) : BitVec 384

/-- The keys a signed command's payload holds, whose layout the spec does not give, by their ids (Table 15-4, log
27): payload; 0 and 1 the ownership pair, 2 and 3 the package pair, RSA first. -/
opaque payloadKey (payload : List Byte) (k : Nat) : Word64

/-- Which of several failed checks MB_REASON names, and the reason of a failure the codes do not name (R380, R423,
log 27): counter. -/
opaque pickReason (n : Nat) : Nat

/-- The first 8 bytes of SHA-384 over the device's RSA identity public key (Table 15-3, log 27). -/
opaque identityId : Word64

/-- SHA-384 over the active-unit map (1) and over the sealed RWL fields (2), whose layout the spec does not give
(Table 15-6, log 28). -/
opaque listDigest (kind : Nat) (l : List (Nat × Nat)) : BitVec 384

/-- SHA-384 of the boot ROM (Table 15-6). -/
opaque bootRom : BitVec 384

/-- What a sensor of the module reads at a boundary (R395, log 25): counter, sensor. -/
opaque measured (n sensor : Nat) : Nat

/-- The line of a block, the page slot of a group or the word of a page where a data error lies, which its command
does not name (R281, R367, log 24): counter. -/
opaque errorPlace (n : Nat) : Nat

/-- The firmware trace of a dump: its entries of 16 bytes and whether it is truncated (Table 14-9, log 24): counter. -/
opaque firmwareTrace (n : Nat) : List Byte × Bool

end Sys2Proof.Config
end

