-- ==== Sys2Proof/Machine/Flags.lean ====
section
/-! DEFINITION. The codes the LT9 writes: completion statuses, queue-pair reasons, refusal kinds, end
reasons and load reasons, and the flag bytes made of them. -/

namespace Sys2Proof.Machine

/-! ## Completion statuses (Table 02-7) -/

abbrev stOk : Nat := 0x00
abbrev stIllegalState : Nat := 0x01
abbrev stBadDescriptor : Nat := 0x02
abbrev stNoContext : Nat := 0x03
abbrev stQuota : Nat := 0x04
abbrev stBudget : Nat := 0x05
abbrev stUnknownHandle : Nat := 0x06
abbrev stAccess : Nat := 0x07
abbrev stModelUnavailable : Nat := 0x08
abbrev stDeadlineMissed : Nat := 0x09
abbrev stCancelled : Nat := 0x0A
abbrev stEvicted : Nat := 0x0B
abbrev stFaulted : Nat := 0x0C
abbrev stUnsupported : Nat := 0x0D
abbrev stRoleStale : Nat := 0x0F

/-! ## Queue-pair reasons (Table 18-4) -/

abbrev rsNone : Nat := 0
abbrev rsNotReady : Nat := 1
abbrev rsLifecycle : Nat := 2
abbrev rsResetting : Nat := 3
abbrev rsQuota : Nat := 4
abbrev rsSize : Nat := 5
abbrev rsBaseAlign : Nat := 6
abbrev rsDbAlign : Nat := 7
abbrev rsTranslate : Nat := 8
abbrev rsWindow : Nat := 9
abbrev rsDbShared : Nat := 10
abbrev rsSqOverflow : Nat := 16
abbrev rsCqHead : Nat := 17
abbrev rsDbFault : Nat := 18
abbrev rsSqFault : Nat := 19
abbrev rsCqFault : Nat := 20

/-- The flag byte of a completion (Table 02-5): [0] phase, [1] FINAL, [2] DEADLINE_MISSED. -/
def completionFlags (phase final late : Bool) : Nat := bit phase + 2 * bit final + 4 * bit late

/-- The phase bit of entry `n` of a ring of `size` entries: 1 on the first pass, inverted on each
later pass (Table 02-5, R43). -/
def phaseOf (n size : Nat) : Bool := n / size % 2 == 0

/-- The 32 bytes of a completion (Table 02-5). -/
def completionBytes (cmdId sqHead status flags handle detail : Nat) (result : BitVec 128) :
    List Byte :=
  leBytes cmdId 4 ++ leBytes sqHead 2 ++ leBytes status 1 ++ leBytes flags 1 ++
    leBytes handle 4 ++ leBytes detail 4 ++ leBytes result.toNat 16

/-- An ACCESS or BAD_DESCRIPTOR detail for a field of the request block (R35, Table 02-5). -/
def blockDetail (offset : Nat) : Nat := 0x10000 + offset

end Sys2Proof.Machine
end

