-- ==== Sys2Proof/Machine/Operands.lean ====
section
/-! DEFINITION. The operand forms: the header and operands of descriptors (Tables 02-2 and 02-3), the
fields of request blocks (Table 02-10) and of tenant parameter blocks (Table 02-6). -/

namespace Sys2Proof.Machine

/-- A little-endian field of `n` bytes at byte `o` of a word. -/
def fieldAt (w o n : Nat) : Nat := bitsOf w (8 * o) (8 * n)

/-- A field of a descriptor. -/
def dField (d : DescWord) (o n : Nat) : Nat := fieldAt d.toNat o n

/-- A field of a request block. -/
def rField (b : BlockWord) (o n : Nat) : Nat := fieldAt b.toNat o n

/-! ## Descriptors -/

def dOpcode (d : DescWord) : Nat := dField d 0x00 1
def dVersion (d : DescWord) : Nat := dField d 0x01 1
def dNoIrq (d : DescWord) : Bool := bitOf (dField d 0x02 2) 0
def dCmdId (d : DescWord) : Nat := dField d 0x04 4
def dHandle (d : DescWord) : Nat := dField d 0x08 4

/-- The opcodes of Table 02-3. -/
def knownOpcode (op : Nat) : Bool :=
  (decide (1 ≤ op) && decide (op ≤ 9)) || (decide (0x10 ≤ op) && decide (op ≤ 0x12)) ||
    (decide (0x20 ≤ op) && decide (op ≤ 0x26))

/-- The opcodes only tenant 0 may use (R6). -/
def providerOpcode (op : Nat) : Bool := decide (0x20 ≤ op) && decide (op ≤ 0x26)

/-- A descriptor carries a sequence handle (Table 02-2). -/
def carriesHandle (d : DescWord) : Bool :=
  let op := dOpcode d
  (decide (2 ≤ op) && decide (op ≤ 7)) || decide (op = 0x25) ||
    (decide (op = 0x11) && decide (dField d 0x10 1 = 0))

/-- The bytes 0x10 to 0x3F that Table 02-3 gives an opcode, as offset and size. -/
def operandBytes (op : Nat) : List (Nat × Nat) :=
  if op = 0x01 then [(0x10, 8)]
  else if op = 0x02 then [(0x10, 8), (0x18, 4)]
  else if op = 0x03 then [(0x10, 4)]
  else if op = 0x07 then [(0x10, 8), (0x18, 4)]
  else if op = 0x08 then [(0x10, 8)]
  else if op = 0x09 then [(0x10, 8)]
  else if op = 0x10 then [(0x10, 8), (0x18, 8), (0x20, 8), (0x28, 4), (0x2C, 2), (0x2E, 1), (0x2F, 1)]
  else if op = 0x11 then [(0x10, 1), (0x11, 1)]
  else if op = 0x20 then [(0x10, 8), (0x18, 8), (0x20, 1), (0x21, 1)]
  else if op = 0x21 then [(0x21, 1)]
  else if op = 0x22 then [(0x10, 8), (0x18, 8), (0x20, 1), (0x22, 2), (0x24, 1)]
  else if op = 0x23 then [(0x22, 2)]
  else if op = 0x24 then [(0x10, 8), (0x18, 8), (0x20, 1), (0x21, 1), (0x22, 2)]
  else if op = 0x25 then [(0x10, 8), (0x18, 8), (0x20, 8)]
  else if op = 0x26 then [(0x10, 8), (0x18, 1)]
  else []

/-- A byte of 0x10 to 0x3F that the opcode assigns. -/
def operandByte (op o : Nat) : Bool :=
  (operandBytes op).any fun f => decide (f.1 ≤ o) && decide (o < f.1 + f.2)

/-- The offset of the first reserved field of a descriptor that is not 0 (check 4, R9): the flags, the
handle of a descriptor that carries none, the reserved word, an operand byte of no field. -/
def reservedDetail (d : DescWord) : Option Nat :=
  let op := dOpcode d
  if dField d 0x02 2 / 2 ≠ 0 then some 0x02
  else if !(carriesHandle d) && decide (dHandle d ≠ 0) then some 0x08
  else if dField d 0x0C 4 ≠ 0 then some 0x0C
  else
    match (List.range 48).find? fun i => !(operandByte op (0x10 + i)) && decide (dField d (0x10 + i) 1 ≠ 0) with
    | some i => some (0x10 + i)
    | none =>
      if op = 0x11 ∧ dField d 0x10 1 ≠ 2 ∧ dField d 0x11 1 ≠ 0 then some 0x11
      else none

/-- The offset of the first operand of a descriptor that is out of range or not aligned (check 5,
Table 02-3, R92, R93, R301). -/
def rangeDetail (d : DescWord) : Option Nat :=
  let op := dOpcode d
  let first (l : List (Bool × Nat)) : Option Nat := (l.find? Prod.fst).map Prod.snd
  if op = 0x01 then first [(decide (dField d 0x10 8 % 64 ≠ 0), 0x10)]
  else if op = 0x02 then
    first [(decide (dField d 0x10 8 % 4 ≠ 0), 0x10),
      (decide (dField d 0x18 4 = 0) || decide (1048576 < dField d 0x18 4), 0x18)]
  else if op = 0x03 then first [(decide (dField d 0x10 4 = 0), 0x10)]
  else if op = 0x07 ∨ op = 0x08 ∨ op = 0x09 then first [(decide (dField d 0x10 8 = 0), 0x10)]
  else if op = 0x10 then
    first [(decide (dField d 0x10 8 % 4 ≠ 0), 0x10), (decide (dField d 0x18 8 % 4 ≠ 0), 0x18),
      (decide (dField d 0x20 8 % 64 ≠ 0), 0x20),
      (decide (dField d 0x28 4 = 0) || decide (65536 < dField d 0x28 4), 0x28),
      (decide (1 < dField d 0x2F 1), 0x2F)]
  else if op = 0x11 then
    first [(decide (2 < dField d 0x10 1), 0x10), (decide (15 < dField d 0x11 1), 0x11)]
  else if op = 0x20 then
    first [(decide (1 < dField d 0x20 1), 0x20), (decide (15 < dField d 0x21 1), 0x21)]
  else if op = 0x21 then first [(decide (15 < dField d 0x21 1), 0x21)]
  else if op = 0x22 then
    first [(decide (1 < dField d 0x20 1), 0x20), (decide (4095 < dField d 0x22 2), 0x22)]
  else if op = 0x23 then first [(decide (4095 < dField d 0x22 2), 0x22)]
  else if op = 0x24 then
    first [(decide (1 < dField d 0x20 1), 0x20), (decide (1 < dField d 0x21 1), 0x21),
      (decide (dField d 0x21 1 = 0) && decide (63 < dField d 0x22 2), 0x22)]
  else if op = 0x25 then first [(decide (dField d 0x18 8 % 64 ≠ 0), 0x18)]
  else none

/-- The host-memory areas a descriptor fixes (R459): address, bytes, written, and the detail of the
field that names the area. -/
def descAreas (d : DescWord) : List (Nat × Nat × Bool × Nat) :=
  let op := dOpcode d
  if op = 0x01 then [(dField d 0x10 8, 512, false, 0x10)]
  else if op = 0x02 then [(dField d 0x10 8, 4 * dField d 0x18 4, false, 0x10)]
  else if op = 0x10 then [(dField d 0x18 8, 4 * (dField d 0x28 4 + 1), false, 0x18)]
  else if op = 0x20 ∨ op = 0x22 ∨ op = 0x24 then
    if dField d 0x20 1 = 0 then [(dField d 0x10 8, dField d 0x18 8, false, 0x10)] else []
  else if op = 0x25 then [(dField d 0x18 8, dField d 0x20 8, true, 0x18)]
  else if op = 0x26 then [(dField d 0x10 8, 64, false, 0x10)]
  else []

/-! ## Request blocks (Table 02-10) -/

def rVersion (b : BlockWord) : Nat := rField b 0x000 1
def rClass (b : BlockWord) : Nat := rField b 0x001 1 % 4
def rCancelOnMiss (b : BlockWord) : Bool := bitOf (rField b 0x002 2) 0
def rSeedGiven (b : BlockWord) : Bool := bitOf (rField b 0x002 2) 1
def rPrefixValid (b : BlockWord) : Bool := bitOf (rField b 0x002 2) 2
def rBitmap (b : BlockWord) : Bool := bitOf (rField b 0x002 2) 3
def rSpecOff (b : BlockWord) : Bool := bitOf (rField b 0x002 2) 4
def rSlot (b : BlockWord) : Nat := rField b 0x004 1
def rVector (b : BlockWord) : Nat := rField b 0x005 1
def rAdapter (b : BlockWord) : Nat := rField b 0x006 2
def rPrompt (b : BlockWord) : Nat := rField b 0x008 8
def rPromptLen (b : BlockWord) : Nat := rField b 0x010 4
def rMaxNew (b : BlockWord) : Nat := rField b 0x014 4
def rPrefix (b : BlockWord) : Nat := rField b 0x018 8
def rFirstDeadline (b : BlockWord) : Nat := rField b 0x020 8
def rInterToken (b : BlockWord) : Nat := rField b 0x028 4
def rSeed (b : BlockWord) : Nat := rField b 0x030 8
def rRing (b : BlockWord) : Nat := rField b 0x038 8
def rRingSize (b : BlockWord) : Nat := rField b 0x040 2
def rPolicy (b : BlockWord) : Nat := rField b 0x042 1
def rTag (b : BlockWord) : Nat := rField b 0x048 8
def rTemperature (b : BlockWord) : Word32 := BitVec.ofNat 32 (rField b 0x080 4)
def rTopK (b : BlockWord) : Nat := rField b 0x084 2
def rBiasCount (b : BlockWord) : Nat := rField b 0x086 2
def rTopP (b : BlockWord) : Word32 := BitVec.ofNat 32 (rField b 0x088 4)
def rMinP (b : BlockWord) : Word32 := BitVec.ofNat 32 (rField b 0x08C 4)
def rPresence (b : BlockWord) : Word32 := BitVec.ofNat 32 (rField b 0x090 4)
def rFrequency (b : BlockWord) : Word32 := BitVec.ofNat 32 (rField b 0x094 4)
def rRepetition (b : BlockWord) : Word32 := BitVec.ofNat 32 (rField b 0x098 4)
def rEndCount (b : BlockWord) : Nat := rField b 0x09C 1
def rStopCount (b : BlockWord) : Nat := rField b 0x09D 1
def rBiasAddr (b : BlockWord) : Nat := rField b 0x0A0 8
def rAllowedAddr (b : BlockWord) : Nat := rField b 0x0A8 8
def rStopAddr (b : BlockWord) : Nat := rField b 0x0B0 8
def rEndToken (b : BlockWord) (i : Nat) : Nat := rField b (0x0C0 + 4 * i) 4
def rRingHead (b : BlockWord) : Nat := rField b 0x1C0 4

/-- The end tokens a request names. -/
def rEndTokens (b : BlockWord) : List Nat := (List.range (rEndCount b)).map (rEndToken b)

/-- The reserved fields of a request block: offset and bits that must be 0, as (offset, bytes, shift). -/
def requestReserved : List (Nat × Nat × Nat) :=
  [(0x001, 1, 2), (0x002, 2, 5), (0x02C, 4, 0), (0x043, 5, 0), (0x050, 48, 0), (0x09E, 2, 0),
    (0x0B8, 8, 0), (0x0E0, 224, 0), (0x1C4, 60, 0)]

/-- A power of two from `lo` to `hi`. -/
def pow2In (lo hi n : Nat) : Bool :=
  decide (lo ≤ n) && decide (n ≤ hi) && decide (2 ^ Nat.log2 n = n)

/-! ## Tenant parameter blocks (Table 02-6) -/

/-- A reserved field of a parameter block is not 0, or a field lies outside its range (R462). -/
def paramsBad (w : Nat) : Bool :=
  decide (fieldAt w 0x00 1 / 2 ≠ 0) || decide (16 < fieldAt w 0x01 1) ||
    decide (3 < fieldAt w 0x02 1) || decide (31 < fieldAt w 0x03 1) ||
    decide (65536 < fieldAt w 0x04 4) ||
    (decide (fieldAt w 0x10 8 ≠ 0) &&
      (decide (fieldAt w 0x08 4 < 1000) || decide (60000 < fieldAt w 0x08 4))) ||
    decide (fieldAt w 0x0C 4 ≠ 0) || decide (fieldAt w 0x20 32 ≠ 0)

end Sys2Proof.Machine
end

