-- ==== Sys2Proof/WellFormed.lean ====
section
/-! DEFINITION. Which commands name something the LT9 has: the ranges of tenants, queue pairs, ports,
quadrants, layers, blocks and channels, and the opcode of a descriptor. A command that is not well
formed stands for no event of the hardware. -/

namespace Sys2Proof

/-- Tenants are numbered 0 to 255 (R5). -/
def tenantOk (t : Nat) : Bool := decide (t < 256)

/-- Queue pairs are numbered 0 to 15 (R29). -/
def qpOk (q : Nat) : Bool := decide (q < 16)

/-- Blocks of 2 MiB in 4 TiB (R244). -/
def blockOk (b : Nat) : Bool := decide (b < 2097152)

/-- Nuxus ports NX0 to NX7 (R306). -/
def portOk (p : Nat) : Bool := decide (p < 8)

/-- Quadrants 0 to 3 and DRAM layers 0 to 7 (Table 01-1). -/
def layerOk (q l : Nat) : Bool := decide (q < 4) && decide (l < 8)

/-- A fetched descriptor of an opcode (R33): its byte 0 is the opcode. -/
def Fetched.wf (op : Nat) (d : Fetched) : Bool :=
  tenantOk d.tenant && qpOk d.qp && decide (d.desc.toNat % 256 = op)

/-- T1 has channels 0 to 19, T2 channels 0 to 15 (Table 17-9). -/
def channelOk (tier c : Nat) : Bool :=
  (decide (tier = 1) && decide (c < 20)) || (decide (tier = 2) && decide (c < 16))

/-- A path of a register write names a function the LT9 has (R428). -/
def RegPath.wf : RegPath → Bool
  | .pf => true
  | .vf t => decide (0 < t) && tenantOk t

/-- The bytes of BAR0 a path reaches: 32 MiB of the PF (Table 17-1), one tenant block of a VF (R5). -/
def RegPath.barSize : RegPath → Nat
  | .pf => 0x2000000
  | .vf _ => 0x10000

/-- A repair names one of the 1,024 banks of a layer (R414). -/
def Repair.wf (r : Repair) : Bool := layerOk r.quad r.layer && decide (r.bank < 1024)

/-- The instances of a recovery domain in its quadrant, or in the module (Tables 14-2 and 14-10). -/
def domainInstances (code : Nat) : Nat :=
  [0, 128, 100, 168, 640, 256, 8192, 1, 20, 16, 8, 26, 2].getD code 0

/-- A recovery domain of Table 14-2. -/
def DomainId.wf (d : DomainId) : Bool := decide (d.quad < 4) && decide (d.inst < domainInstances d.code)

/-- A table entry is one of 64 vectors (R437). -/
def MsixChange.wf : MsixChange → Bool
  | .capability _ _ => true
  | .entry v _ _ _ => decide (v < 64)

/-- A header names modules by 10 bits and a tenant by 8 (Table 12-4). -/
def MsgHead.wf (h : MsgHead) : Bool := decide (h.source < 1024) && tenantOk h.tenant

/-- The CXL link is trained at a width and a rate of Table 17-2, or not at all. -/
def linkOk (w r : Nat) : Bool :=
  decide (w = 0) || ((decide (w = 1) || decide (w = 2) || decide (w = 4) || decide (w = 8)) && decide (1 ≤ r) && decide (r ≤ 6))

namespace Instr

/-- A command names only what the LT9 has. -/
def wf : Instr → Bool
  | .doorbellInvalidate t q _ => tenantOk t && qpOk q
  | .doorbellPoll t q _ => tenantOk t && qpOk q
  | .atsInvalidation p _ _ _ => decide (p < 2 ^ 20)
  | .openSeq d => d.wf 0x01 && (d.early.isSome || d.req.isSome)
  | .append d => d.wf 0x02
  | .pause d => d.wf 0x03
  | .resume d => d.wf 0x04
  | .cancel d => d.wf 0x05
  | .close d => d.wf 0x06
  | .exportPrefix d => d.wf 0x07
  | .importPrefix d => d.wf 0x08
  | .dropPrefix d => d.wf 0x09
  | .embedLookup d => d.wf 0x10
  | .query d => d.wf 0x11
  | .fence d => d.wf 0x12
  | .loadModel d => d.wf 0x20
  | .unloadModel d => d.wf 0x21
  | .loadAdapter d => d.wf 0x22
  | .unloadAdapter d => d.wf 0x23
  | .loadTable d => d.wf 0x24
  | .replay d => d.wf 0x25
  | .setTenant d => d.wf 0x26
  | .loadFinish _ => true
  | .sweepDone sl _ => decide (sl < 16)
  | .stepBoundary _ => true
  | .waitPeriod => true
  | .stepStart _ => true
  | .routingPoint _ _ => true
  | .holdPoint bs => bs.all blockOk
  | .holdTimeout b => blockOk b
  | .hostWindow q l => layerOk q l
  | .timingFault d _ _ => d.wf
  | .controlFault d _ _ _ => d.wf
  | .dataError _ _ _ => true
  | .refetchDone b _ => blockOk b
  | .promotionDone b _ => blockOk b
  | .demotionDone b _ => blockOk b
  | .spillDone _ => true
  | .prefetchDone _ _ => true
  | .tailCopyDone c => decide (c < 65536)
  | .diversionCopyDone q l quad => layerOk q l && decide (quad < 256)
  | .prefixHashDone c _ => decide (c < 65536)
  | .prefixLookupDone c => decide (c < 65536)
  | .scrubPass fs => fs.all fun f => decide (f.tier = 1) || decide (f.tier = 2)
  | .cxlMemRead _ => true
  | .cxlMemWrite _ _ => true
  | .sluiceSeal b => blockOk b
  | .sluiceUnseal b => blockOk b
  | .sluiceRelease b => blockOk b
  | .qpEnable p t q => p.wf && tenantOk t && qpOk q
  | .qpDisable p t q => p.wf && tenantOk t && qpOk q
  | .moderationWrite p t v _ _ => p.wf && tenantOk t && decide (v < 64)
  | .vectorTimeThreshold t v => tenantOk t && decide (v < 64)
  | .msixUnmask t c => tenantOk t && c.wf
  | .latchCapture p _ t _ => p.wf && tenantOk t
  | .tenantSeal p t => p.wf && tenantOk t
  | .sealSet _ => true
  | .registerWrite p o sz _ => p.wf && decide (0 < sz) && decide (o + sz ≤ p.barSize)
  | .coldReset _ => true
  | .warmReset _ => true
  | .functionLevelReset t => tenantOk t
  | .flrClearDone t => tenantOk t
  | .removeReq => true
  | .dumpRelease => true
  | .powerOn _ => true
  | .trainingComplete w r _ => linkOk w r
  | .wipeDone => true
  | .cxlLinkRetrain w r _ => linkOk w r
  | .powerWarn _ => true
  | .powerWarnClear _ => true
  | .inputInterruption => true
  | .powerLoss => true
  | .phaseFault p => decide (p < 26)
  | .railFault => true
  | .cxlLinkLoss => true
  | .layerOvertemp q l _ => layerOk q l
  | .wearThreshold d _ => d.wf
  | .escalation d _ => d.wf
  | .coreWatchdog c => decide (c < 2)
  | .coreRestartDone c _ => decide (c < 2)
  | .channelTrainingLoss t c => channelOk t c
  | .channelRetrained t c => channelOk t c
  | .fatalFault _ d _ => decide (d.quad < 4)
  | .dumpDone _ => true
  | .attentionPress _ => true
  | .latchOpen => true
  | .latchClose => true
  | .latchTimeout => true
  | .refInLock _ => true
  | .refInLoss => true
  | .ppsOut => true
  | .timeRequest => true
  | .timeReply h _ => h.wf
  | .timeSet _ => true
  | .portEnable p _ => portOk p
  | .portDisable p => portOk p
  | .retrain p => portOk p
  | .trainingDone p _ _ _ => portOk p
  | .laneLockLoss p _ => portOk p
  | .laneErrorPeriod p _ => portOk p
  | .flitReceive p _ => portOk p
  | .ackTimer p => portOk p
  | .roleSet h _ => h.wf
  | .roleAck h _ _ => h.wf
  | .resolve h _ _ => h.wf
  | .resolveReply h _ _ _ => h.wf
  | .stepPlan h _ => h.wf
  | .evacuate h _ _ _ => h.wf
  | .ready h _ => h.wf
  | .readyTimeout _ => true
  | .joinTimeout p => decide (p < 64)
  | .start h _ => h.wf
  | .abort h => h.wf
  | .act h _ _ => h.wf
  | .read h => h.wf
  | .readData h _ _ => h.wf
  | .write h _ => h.wf
  | .writeAck h _ => h.wf
  | .atomic h _ _ => h.wf
  | .pageData h _ _ _ => h.wf
  | .pageAck h _ => h.wf
  | .bulkData h b _ _ => h.wf && blockOk b
  | .requestTimeout _ _ => true
  | .raGo => true
  | .becomeDomainManager => true
  | .returnToStandalone => true
  | .evacuationWipe => true
  | .ideStreamInsecure _ => true
  | .provision _ => true
  | .activate _ => true
  | .deactivate _ => true
  | .debugEnter _ => true
  | .debugExit _ => true
  | .rmaEnter _ => true
  | .rmaExit _ => true
  | .retire _ => true
  | .enroll _ => true
  | .revoke _ => true
  | .fwUpdate _ _ => true
  | .commitSvn _ => true
  | .getVersion f => tenantOk f
  | .getCapabilities f => tenantOk f
  | .negotiateAlgorithms f => tenantOk f
  | .getDigests f => tenantOk f
  | .getCertificate f _ _ _ => tenantOk f
  | .challenge f _ _ => tenantOk f
  | .getMeasurements f _ _ _ => tenantOk f
  | .keyExchange f _ _ => tenantOk f
  | .finish f _ _ => tenantOk f
  | .heartbeat f _ => tenantOk f
  | .keyUpdate f _ _ => tenantOk f
  | .endSession f _ => tenantOk f
  | .getPqSignature f => tenantOk f
  | .getPqCertificate f _ => tenantOk f
  | .sidebandPowerRead _ => true
  | .sidebandBmcLimit _ => true
  | .sidebandIndicators _ => true
  | .sidebandColdReset => true
  | .sidebandWarmReset => true
  | .sidebandStatusRead => true
  | .sidebandCauseRead => true
  | .sidebandIndirectAddress _ => true
  | .sidebandIndirectRead => true
  | .i3cDynamicAddress a => decide (a < 128)
  | .fuseRead q => decide (q < 4)
  | .spareMap q l b => layerOk q l && decide (b < 1024)
  | .healthRead q => decide (q < 4)
  | .repairStage r => r.wf
  | .timeRequestReceived h _ _ _ => h.wf
  | .refInPresent => true
  | .perstDeassert => true
  | .weirRefill => true
  | .ideKm _ _ _ => true
  | .doeDiscovery f _ => tenantOk f

end Instr

end Sys2Proof
end

