-- ==== Sys2Proof/Machine/Ops.lean ====
section
/-! DEFINITION. The named operations every meaning is written over: how a meaning answers, device
time, register fields, host memory through windows and the IOMMU, interrupts, completions. -/

namespace Sys2Proof.Machine

/-! ## How a meaning answers -/

/-- A well-formed command has its effect; an ill-formed one is no event of the hardware. -/
def run (i : Instr) (s : State) (f : State → State) : Host.Outcome State Fault Refusal :=
  if i.wf then .next (f s) else .fault .noSuchUnit

/-- An effect that needs the input power (R391, R392). -/
def whenOn (f : State → State) (s : State) : State := if s.power.on then f s else s

/-- The module serves its hosts: power on, boot finished, no FATAL fault (R373, R405). -/
def State.serving (s : State) : Bool :=
  s.power.on && decide (s.boot.phase = .ready) && !s.faults.fatal

/-- An effect of the engines that run only while the module serves (R373, R405). -/
def whenServing (f : State → State) (s : State) : State := if s.serving then f s else s

/-- Registers answer: power is on and the boot ROM has started (R405). -/
def State.answers (s : State) : Bool :=
  s.power.on && !decide (s.boot.phase = .off) && !decide (s.boot.phase = .held)

/-- An effect of a register write or a message. -/
def whenAnswering (f : State → State) (s : State) : State := if s.answers then f s else s

/-- Every block answers: BOOT_FAIL and RETIRED expose the global block and the security mailbox only (R379,
R382). -/
def State.exposed (s : State) : Bool :=
  s.answers && !decide (s.boot.phase = .bootFail) && !decide (s.security.state = .retired)

/-- An effect of a register write outside those two blocks. -/
def whenExposed (f : State → State) (s : State) : State := if s.exposed then f s else s

/-- The next free value's number, and the state that has used it (log 1). -/
def takeFree (s : State) : Nat × State := (s.freeIndex, { s with freeIndex := s.freeIndex + 1 })

/-! ## Device time (R343, R344) -/

/-- The clock `n` aclk later: at each sixth aclk the counter adds INCREMENT (R344). -/
def Clock.advance (c : Clock) (n : Nat) : Clock :=
  let t := c.phase + n
  { c with count := (c.count + t / 6 * c.increment) % 2 ^ 112, phase := t % 6 }

/-- The stamp in 2^-16 ns: `k` aclk after an edge it adds k * INCREMENT / 6, rounded down (R344). -/
def Clock.stamp (c : Clock) : Nat := (c.count + c.phase * c.increment / 6) / 2 ^ 32

/-- Device time in 2^-16 ns. -/
def State.now (s : State) : Nat := s.clock.stamp

/-- Whole nanoseconds of a stamp. -/
def nsOf (t : Nat) : Nat := t / 65536

/-- A stamp from whole nanoseconds. -/
def ofNs (n : Nat) : Nat := n * 65536

/-- `n` aclk pass, while the module has power and its boot ROM has started the counter (R343,
Table 13-3). -/
def passAclk (n : Nat) (s : State) : State :=
  if s.answers then { s with clock := s.clock.advance n } else s

/-- `n` slots of 64 aclk pass (R7). -/
def passSlots (n : Nat) (s : State) : State := passAclk (64 * n) s

/-- What the block does with no command waiting: one slot of device time passes (log 4). -/
def idle (s : State) : State := passSlots 1 s

/-! ## Register fields (R415) -/

/-- The bit address of a field of PF BAR0. -/
def fieldKey (off lsb : Nat) : Nat := off * 8 + lsb

/-- The present value of an RW field, `d` its reset value. -/
def State.reg (s : State) (off lsb d : Nat) : Nat := fmGet s.regs (fieldKey off lsb) d

/-- The value a field had at the start of the latest boundary (R417). -/
def State.regL (s : State) (off lsb d : Nat) : Nat := fmGet s.latched (fieldKey off lsb) d

/-- A field set. -/
def setReg (off lsb v : Nat) (s : State) : State :=
  { s with regs := fmSet s.regs (fieldKey off lsb) v }

/-- The base of a tenant block in PF BAR0 (R5). -/
def tenantBase (t : Nat) : Nat := 0x1000000 + t * 0x10000

/-- The base of a queue-pair sub-block (Table 18-3). -/
def qpBase (t q : Nat) : Nat := tenantBase t + 0x100 + q * 0x100

/-- The base of a model-slot sub-block (Table 17-3). -/
def slotBase (k : Nat) : Nat := 0x1000 + k * 0x100

/-- The base of the junction block (Table 17-1). -/
def junctionBase : Nat := 0x310000

/-- The base of a port block (Table 17-1). -/
def portBase (p : Nat) : Nat := 0x300000 + p * 0x1000

/-- The base of the sluice block (Table 17-1). -/
def sluiceBase : Nat := 0x500000

/-- The base of a weir partition (Table 17-1). -/
def weirBase (w : Nat) : Nat := 0x600000 + w * 0x100

/-- The base of a check unit (Table 17-1): unit number quadrant * 16 + unit. -/
def ckuBase (u : Nat) : Nat := 0x501000 + u * 0x100

def State.sqBase (s : State) (t q : Nat) : Nat := s.reg (qpBase t q) 0 0
def State.cqBase (s : State) (t q : Nat) : Nat := s.reg (qpBase t q + 0x08) 0 0
def State.dbAddr (s : State) (t q : Nat) : Nat := s.reg (qpBase t q + 0x10) 0 0
def State.sqSize (s : State) (t q : Nat) : Nat := s.reg (qpBase t q + 0x18) 0 0
def State.cqSize (s : State) (t q : Nat) : Nat := s.reg (qpBase t q + 0x1C) 0 0
def State.dbMode (s : State) (t q : Nat) : Nat := s.reg (qpBase t q + 0x20) 0 0
/-- CQ_VECTOR applies to completions written from the next boundary (R433). -/
def State.cqVector (s : State) (t q : Nat) : Nat := s.regL (qpBase t q + 0x24) 0 0
def State.errorVector (s : State) (t : Nat) : Nat := s.reg (tenantBase t + 0x3000) 0 0
def State.modCount (s : State) (t v : Nat) : Nat := s.reg (tenantBase t + 0x3100 + 4 * v) 0 1
def State.modTime (s : State) (t v : Nat) : Nat := s.reg (tenantBase t + 0x3100 + 4 * v) 16 0
def State.pasid (s : State) (t : Nat) : Nat := s.reg (tenantBase t + 0x10) 0 0
def State.pasidValid (s : State) (t : Nat) : Bool := s.reg (tenantBase t + 0x10) 31 0 == 1
def State.moduleId (s : State) : Nat := s.reg junctionBase 0 0
def State.healthVector (s : State) : Nat := s.reg 0x50 0 0

/-! ## Tables with defaults -/

def State.tenant (s : State) (t : Nat) : Tenant := fmGet s.tenants t freshTenant
def State.qp (s : State) (t q : Nat) : Qp := fmGet s.qps (t * 16 + q) freshQp
def State.ctx (s : State) (c : Nat) : Ctx := fmGet s.ctxs c freshCtx
def State.slot (s : State) (k : Nat) : ModelSlot := fmGet s.slots k emptySlot
def State.block (s : State) (b : Nat) : Block := fmGet s.blocks b unmappedBlock
def State.port (s : State) (p : Nat) : Port := fmGet s.ports p freshPort

def modTenant (t : Nat) (f : Tenant → Tenant) (s : State) : State :=
  { s with tenants := fmModify s.tenants t freshTenant f }
def modQp (t q : Nat) (f : Qp → Qp) (s : State) : State :=
  { s with qps := fmModify s.qps (t * 16 + q) freshQp f }
def modCtx (c : Nat) (f : Ctx → Ctx) (s : State) : State :=
  { s with ctxs := fmModify s.ctxs c freshCtx f }
def modSlot (k : Nat) (f : ModelSlot → ModelSlot) (s : State) : State :=
  { s with slots := fmModify s.slots k emptySlot f }
def modBlock (b : Nat) (f : Block → Block) (s : State) : State :=
  { s with blocks := fmModify s.blocks b unmappedBlock f }
def modPort (p : Nat) (f : Port → Port) (s : State) : State :=
  { s with ports := fmModify s.ports p freshPort f }

/-- Counts gathered for a tenant until the next row 8 (R436). -/
def count (t : Nat) (f : Counters → Counters) (s : State) : State :=
  modTenant t (fun x => { x with gathered := f x.gathered }) s

/-- The parameters of a tenant; a tenant without parameters has quotas of 0 (R38). -/
def Tenant.enabled (x : Tenant) : Bool :=
  match x.params with
  | some p => p.enabled
  | none => false

def Tenant.qpQuota (x : Tenant) : Nat :=
  match x.params with
  | some p => if p.enabled then p.qpQuota else 0
  | none => 0

def Tenant.ctxQuota (x : Tenant) : Nat :=
  match x.params with
  | some p => if p.enabled then p.ctxQuota else 0
  | none => 0

def Tenant.highest (x : Tenant) : Nat := (x.params.map TenantParams.highest).getD 0

def Tenant.partition (x : Tenant) : Nat := (x.params.map TenantParams.partition).getD 0

/-- Tokens per period is not 0: the tenant has a budget (R70). -/
def Tenant.limited (x : Tenant) : Bool :=
  match x.params with
  | some p => decide (p.perPeriod ≠ 0)
  | none => false

/-! ## Sequences -/

/-- The live states (chapter 3). -/
def SeqState.live : SeqState → Bool
  | .admitted | .prompt | .decode | .siding | .parked | .dormant => true
  | .free | .draining | .done | .faulted => false

/-- The states from which sequences are taken into steps (Table 03-1). -/
def SeqState.working : SeqState → Bool
  | .admitted | .prompt | .decode => true
  | _ => false

/-- The code of Table 03-1. -/
def SeqState.code : SeqState → Nat
  | .free => 0 | .admitted => 1 | .prompt => 2 | .decode => 3 | .siding => 4 | .parked => 5
  | .dormant => 6 | .draining => 7 | .done => 8 | .faulted => 9

/-- The handle of a context (R34): index in [15:0], incarnation in [31:16]. -/
def handleOf (i : Nat) (c : Ctx) : Nat := i % 65536 + 65536 * (c.incarnation % 65536)

/-- The contexts that a test takes, by rising index. -/
def State.ctxsWhere (s : State) (p : Ctx → Bool) : List (Nat × Ctx) := s.ctxs.filter fun x => p x.2

/-- A tenant's context count (R52). -/
def State.ctxCount (s : State) (t : Nat) : Nat :=
  (s.ctxsWhere fun c => decide (c.tenant = t) && !decide (c.state = .free)).length

/-- A context is live (R350, R411). -/
def State.anyLive (s : State) : Bool := s.ctxs.any fun x => x.2.state.live

/-! ## Host memory (R49, R434) -/

/-- How far from `a` on the windows of a tenant grant an access, in one window. -/
def windowEnd (s : State) (t a : Nat) (wr : Bool) (w : Nat) : Nat :=
  let b := tenantBase t + 0x2000 + w * 0x40
  let base := s.reg b 0 0
  let size := s.reg (b + 8) 0 0
  let ok := if wr then s.reg (b + 16) 1 0 == 1 else s.reg (b + 16) 0 0 == 1
  if ok && decide (base ≤ a) && decide (a < base + size) then base + size else 0

/-- Every byte of an area lies in windows that grant the permission (R434). -/
def windowsCover (s : State) (t a e : Nat) (wr : Bool) : Nat → Bool
  | 0 => decide (e ≤ a)
  | fuel + 1 =>
    if e ≤ a then true
    else
      let n := maxOf ((List.range 8).map (windowEnd s t a wr))
      if n ≤ a then false else windowsCover s t n e wr fuel

def inWindows (s : State) (t a n : Nat) (wr : Bool) : Bool :=
  decide (a + n ≤ 2 ^ 64) && windowsCover s t a (a + n) wr 9

/-- How far from `a` on one IOMMU range translates an access (R49). -/
def rangeEnd (p a : Nat) (wr : Bool) (r : IommuRange) : Nat :=
  if decide (r.pasid = p) && (if wr then r.write else r.read) && decide (r.base ≤ a) &&
      decide (a < r.base + r.size) then r.base + r.size else 0

def rangesCover (l : List IommuRange) (p a e : Nat) (wr : Bool) : Nat → Bool
  | 0 => decide (e ≤ a)
  | fuel + 1 =>
    if e ≤ a then true
    else
      let n := maxOf (l.map (rangeEnd p a wr))
      if n ≤ a then false else rangesCover l p n e wr fuel

/-- Every byte of an area translates under the tenant's PASID with a permission; a PASID that is not
valid fails every translation (Table 18-2). -/
def translates (s : State) (t a n : Nat) (wr : Bool) : Bool :=
  s.pasidValid t && rangesCover s.host.ranges (s.pasid t) a (a + n) wr (s.host.ranges.length + 1)

/-- The host address of one byte under a PASID: the first range that holds it. -/
def translate (l : List IommuRange) (p a : Nat) : Option Nat :=
  (l.find? fun r => decide (r.pasid = p) && decide (r.base ≤ a) && decide (a < r.base + r.size)).map
    fun r => r.target + (a - r.base)

/-- One byte of host memory under a PASID. -/
def hostByte (h : Platform) (p a : Nat) : Byte :=
  match translate h.ranges p a with
  | some x => memByte h.mem x
  | none => 0

/-- `n` bytes read under a PASID. -/
def hostBytes (h : Platform) (p a : Nat) : Nat → List Byte
  | 0 => []
  | n + 1 => hostByte h p a :: hostBytes h p (a + 1) n

/-- Bytes written under a PASID. -/
def hostPut (h : Platform) (p a : Nat) : List Byte → Platform
  | [] => h
  | b :: r =>
    match translate h.ranges p a with
    | some x => hostPut { h with mem := memSet h.mem x b } p (a + 1) r
    | none => hostPut h p (a + 1) r

/-- An area a tenant may reach now: inside its windows and translated (R49). -/
def reachable (s : State) (t a n : Nat) (wr : Bool) : Bool :=
  inWindows s t a n wr && translates s t a n wr

/-- A read of host memory for a tenant; none where it lies outside the windows or does not translate. -/
def readHost (s : State) (t a n : Nat) : Option (List Byte) :=
  if reachable s t a n false then some (hostBytes s.host (s.pasid t) a n) else none

/-- A write of host memory for a tenant. -/
def writeHost (s : State) (t a : Nat) (bs : List Byte) : Option State :=
  if reachable s t a bs.length true then
    some { s with host := hostPut s.host (s.pasid t) a bs }
  else none

/-- Host software's own changes to its memory and its IOMMU. -/
def hostChange (u : HostUpdate) (s : State) : State :=
  let m := u.writes.foldl (fun m w => memWrite m w.1 w.2) s.host.mem
  { s with host := { mem := m, ranges := u.ranges.getD s.host.ranges } }

/-! ## Interrupts (R50, R435, R457) -/

/-- A required IDE stream holds back the hosts' traffic: with IDE_REQUIRED, one not Secure, or none yet (R387, log 28). -/
def State.ideHeld (s : State) : Bool :=
  (s.reg 0x4C 0 0 == 1) && !(!s.security.ide.isEmpty && s.security.ide.all fun x => x.2.secure)

/-- The function may send the message of a vector: Enable, no Function Mask, the entry unmasked
(R457). -/
def sendable (x : Tenant) (v : Nat) : Bool :=
  x.msixEnable && !x.functionMask && !(fmGet x.vectors v freshVector).masked

def modVector (t v : Nat) (f : MsixVector → MsixVector) (s : State) : State :=
  modTenant t (fun x => { x with vectors := fmModify x.vectors v freshVector f }) s

def State.vector (s : State) (t v : Nat) : MsixVector := fmGet (s.tenant t).vectors v freshVector

/-- Sends a vector's message. -/
def sendMsix (t v : Nat) (s : State) : State :=
  let e := s.vector t v
  { s with out := { s.out with msix := { tenant := t, vector := v, address := e.address, data := e.data } :: s.out.msix } }

/-- A vector fires (R435): the message where it can be sent, otherwise its PBA bit; PENDING falls
to 0. -/
def fireVector (t v : Nat) (s : State) : State :=
  if sendable (s.tenant t) v then modVector t v (fun e => { e with pending := 0, pba := false }) (sendMsix t v s)
  else modVector t v (fun e => { e with pending := 0, pba := true }) s

/-- The vector's moderation says it fires now: its count threshold is met, or its oldest event has
waited its time threshold (R50, R435). -/
def moderationMet (s : State) (t v : Nat) : Bool :=
  let e := s.vector t v
  decide (e.pending ≠ 0) &&
    (decide (s.modCount t v ≤ e.pending) || decide (e.oldest + ofNs (1000 * s.modTime t v) ≤ s.now) ||
      decide (s.errorVector t = v))

/-- An event of a vector: counted, then moderated; the error vector is not moderated (R50, R435). -/
def raiseVector (t v : Nat) (s : State) : State :=
  let now := s.now
  let s := modVector t v (fun e =>
    { e with pending := e.pending + 1, oldest := if e.pending = 0 then now else e.oldest }) s
  if moderationMet s t v then fireVector t v s else s

/-- The messages that have become sendable go out, once each (R435, R457). -/
def sendOwed (t : Nat) (s : State) : State :=
  (List.range 64).foldl (fun s v =>
    if (s.vector t v).pba && sendable (s.tenant t) v then
      modVector t v (fun e => { e with pba := false }) (sendMsix t v s)
    else s) s

/-! ## Completions (R36, R37, R47) -/

/-- A queue pair enters ERROR with a reason; the tenant's error vector fires (Table 02-1). -/
def qpError (t q reason : Nat) (s : State) : State :=
  if (s.qp t q).state = .active then
    raiseVector t (s.errorVector t)
      (modQp t q (fun x => { x with state := .error, reason := reason }) s)
  else s

/-- A completion for a fetched descriptor, to be written in row 3. -/
def completeFetched (d : Fetched) (status detail : Nat) (handle : Nat) (result : BitVec 128)
    (s : State) : State :=
  { s with outbox := s.outbox ++ [{ tenant := d.tenant, qp := d.qp, index := d.index, cmdId := dCmdId d.desc, status := status, detail := detail, handle := handle, final := false, late := false, noIrq := dNoIrq d.desc, result := result }] }

/-- A completion that carries the descriptor's own handle where it has one (Table 02-5). -/
def complete (d : Fetched) (status detail : Nat) (s : State) : State :=
  completeFetched d status detail (if carriesHandle d.desc then dHandle d.desc else 0) 0 s

/-- The completion of a descriptor that has run (R32 step 6). -/
def completeRun (r : Running) (status detail handle : Nat) (result : BitVec 128) (s : State) : State :=
  let s := modQp r.tenant r.qp (fun x =>
    { x with running := x.running.filter fun y => decide (y.index ≠ r.index) }) s
  { s with outbox := s.outbox ++ [{ tenant := r.tenant, qp := r.qp, index := r.index, cmdId := r.cmdId, status := status, detail := detail, handle := handle, final := false, late := false, noIrq := r.noIrq, result := result }] }

/-- The running entry of a descriptor. -/
def runningOf (d : Fetched) : Running :=
  { tenant := d.tenant, qp := d.qp, index := d.index, cmdId := dCmdId d.desc,
    noIrq := dNoIrq d.desc, opcode := dOpcode d.desc }

/-- A descriptor stays in effect without a completion yet. -/
def startRunning (d : Fetched) (s : State) : State :=
  modQp d.tenant d.qp (fun x => { x with running := x.running ++ [runningOf d] }) s

/-- Completions a queue pair owes (R37): fetched descriptors that have not completed, completions
not yet written, and one FINAL for each sequence opened through it that is live or DRAINING. -/
def owed (s : State) (t q : Nat) : Nat :=
  let x := s.qp t q
  x.queue.length + x.running.length +
    (s.outbox.filter fun c => decide (c.tenant = t) && decide (c.qp = q)).length +
    (s.ctxsWhere fun c => decide (c.tenant = t) && decide (c.qp = q) && c.replay.isNone &&
      (c.state.live || (decide (c.state = .draining) && !((c.drain.map Drain.silent).getD false)))).length

/-- One completion written to its CQ (R36, R44): one aligned 32-byte write with the phase of its pass.
A write that fails translation or lies outside the windows puts the queue pair into ERROR. -/
def writeCompletion (c : Completion) (s : State) : State :=
  let t := c.tenant
  let q := c.qp
  let x := s.qp t q
  let size := s.cqSize t q
  let a := s.cqBase t q + x.written % size * 32
  let bytes := completionBytes c.cmdId x.fetched c.status
    (completionFlags (phaseOf x.written size) c.final c.late) c.handle c.detail c.result
  match writeHost s t a bytes with
  | some s =>
    let s := modQp t q (fun x => { x with written := x.written + 1 }) s
    count t (fun k => { k with status := fmAdd k.status c.status 1 }) s
  | none => qpError t q rsCqFault s

/-! ## Messages on other links -/

/-- A reply to a requester outside. -/
def reply (r : Reply) (s : State) : State :=
  { s with out := { s.out with replies := r :: s.out.replies } }

/-! ## Nuxus links (R310 to R323) -/

/-- The virtual channel of a message type (Table 12-5). -/
def vcOf (kind : Nat) : Nat := if kind < 0x10 then 0 else kind / 16

/-- The receive flits of a virtual channel (Table 12-3). -/
def vcFlits (vc : Nat) : Nat := [128, 32, 1024, 64, 256, 256, 160, 128].getD vc 0

/-- The virtual channels in the order of the junction's priority (Table 12-3). -/
def vcOrder : List Nat := [1, 2, 0, 4, 5, 3, 6, 7]

/-- The port that carries a flit from a module to another (R321); none: no UP port in the mask. A route in
force is the one latched at the boundary. -/
def routePort (s : State) (source destination : Nat) : Option Nat :=
  let mask := s.regL (junctionBase + 0x2000 + destination) 0 0
  let l := (List.range 8).filter fun p =>
    bitOf mask p && decide ((s.port p).state = .up) && decide ((s.port p).usableFrom ≤ s.boundary)
  l[source % max 1 l.length]?

/-- A data flit may leave: a credit of its channel is held and the replay buffer has room (R312, R314). -/
def mayLeave (x : Port) (vc : Nat) : Bool := decide (0 < fmGet x.credits vc 0) && decide (x.unacked.length < 512)

/-- A data flit leaves on a channel. -/
def leave (x : Port) (vc : Nat) : Port :=
  { x with credits := fmSet x.credits vc (fmGet x.credits vc 0 - 1), nextSeq := (x.nextSeq + 1) % 4096, unacked := x.unacked ++ [x.nextSeq], sent := fmAdd x.sent vc 1 }

/-- One data flit: sent, or waiting behind those of its channel. -/
def sendFlit (vc : Nat) (x : Port) : Port :=
  if mayLeave x vc && !(x.waiting.contains vc) then leave x vc else { x with waiting := x.waiting ++ [vc] }

/-- `n` flits of a channel. -/
def sendFlits (vc : Nat) : Nat → Port → Port
  | 0, x => x
  | n + 1, x => sendFlits vc n (sendFlit vc x)

/-- Flits that waited leave, channels in order of priority (R315). -/
def drainPort (x : Port) : Port :=
  vcOrder.foldl (fun x vc =>
    (x.waiting.filter (· == vc)).foldl (fun x _ =>
      if mayLeave x vc then { leave x vc with waiting := x.waiting.erase vc } else x) x) x

/-- Flits a message of `n` data bytes takes with its 32-byte header (R311, R316). -/
def flitsOf (n : Nat) : Nat := ceilDiv (32 + n) 240

/-- The data bytes of a message; a list of numbers counts 4 bytes each (log 20). -/
def messageBytes (m : SentMsg) : Nat := m.data.length + 4 * m.values.length

/-- A Nuxus message sent: to this module itself, by the port its route gives, or discarded and counted
(R321). -/
def sendMsg (m : SentMsg) (s : State) : State :=
  let n := flitsOf (messageBytes m)
  let put (s : State) : State := { s with out := { s.out with nuxus := m :: s.out.nuxus } }
  if m.destination = s.moduleId then put s
  else
    match routePort s s.moduleId m.destination with
    | some p => put (modPort p (sendFlits (vcOf m.kind) n) s)
    | none => { s with junction := { s.junction with routeDiscarded := s.junction.routeDiscarded + n } }

/-- The response that answers a request that goes no further: status, from this module (R316, R321, R335). -/
def answerStatus (dest tag status : Nat) (s : State) : State :=
  sendMsg { kind := 0x40, destination := dest, tag := tag, epoch := 0, status := status, address := 0, values := [], data := [] } s

/-- Folds an effect over a list, first element first. -/
def forEach {α : Type} (l : List α) (f : α → State → State) (s : State) : State :=
  l.foldl (fun s a => f a s) s

end Sys2Proof.Machine
end

