-- ==== Sys2Proof/Machine/Units.lean ====
section
/-! DEFINITION. Recovery domains, the fault log, spares and the unit map (chapter 14): what a fault is
attributed to, when it escalates, which spare is brought in, and the stop of a FATAL fault. -/

namespace Sys2Proof.Machine

/-! ## The active-unit map (R145, R360) -/

/-- The key of an NBU position in the map of NBU states. Position 17 holds, plus 1, the home position
the group's spare serves. -/
def nbuKey (q l g p : Nat) : Nat := ((q * 8 + l) * 16 + g) * 32 + p

/-- The state of an NBU position, coded as DA_MAP: 0 active, 1 free spare, 2 spare in use, 3 retired,
4 fused off. -/
def nbuState (s : State) (q l g p : Nat) : Nat :=
  fmGet s.faults.nbus (nbuKey q l g p)
    (if p = 16 then 1
     else if s.security.gradeS && (fmGet s.security.fusedPos ((q * 8 + l) * 16 + g) 15 == p) then 4
     else 0)

/-- The home position the spare of a group serves. -/
def spareServes (s : State) (q l g : Nat) : Option Nat :=
  let v := fmGet s.faults.nbus (nbuKey q l g 17) 0
  if nbuState s q l g 16 = 2 ∧ v ≠ 0 then some (v - 1) else none

/-- The position that serves a quad; none: the quad is plain (R144). -/
def quadPosition (s : State) (q l quad : Nat) : Option Nat :=
  let g := quad / 16
  let h := quad % 16
  if nbuState s q l g h = 0 then some h
  else if spareServes s q l g = some h then some 16
  else none

def quadPlain (s : State) (q l quad : Nat) : Bool := (quadPosition s q l quad).isNone

/-- The quads of a layer that are plain for good (R188): only those of groups with a position not
active. -/
def plainQuads (s : State) (q l : Nat) : List Nat :=
  if s.faults.nbus.isEmpty && !s.security.gradeS then []
  else (List.range 256).filter (quadPlain s q l)

/-- The key of a tile: DA tiles from 0, PA tiles from 256. -/
def tileKey (q : Nat) (pa : Bool) (i : Nat) : Nat := q * 512 + (if pa then 256 else 0) + i

/-- The tiles built: 100 DA and 168 PA in a quadrant. -/
def tilesBuilt (pa : Bool) : Nat := if pa then 168 else 100

/-- The first spare tile (R360). -/
def firstSpare (pa : Bool) : Nat := if pa then 160 else 96

/-- The state of a tile, coded as DA_MAP. In an LT9-768S the tiles before the spares beyond the active
count are fused off (Table 00-1; which they are is the model's choice, log 3). -/
def tileState (s : State) (q : Nat) (pa : Bool) (i : Nat) : Nat :=
  fmGet s.faults.tiles (tileKey q pa i)
    (if firstSpare pa ≤ i then 1
     else if s.security.gradeS && decide ((if pa then 150 else 90) ≤ i) then 4
     else 0)

/-- The active tiles of a quadrant, ascending: the map's positions (R360). -/
def activeTiles (s : State) (q : Nat) (pa : Bool) : List Nat :=
  (List.range (tilesBuilt pa)).filter fun i => tileState s q pa i == 0 || tileState s q pa i == 2

/-- The active DA tiles; in DA prompt mode the PA has none (R138, Table 17-7). -/
def daActive (s : State) (q : Nat) : Nat := (activeTiles s q false).length
def paActive (s : State) (q : Nat) : Nat :=
  if s.faults.daPrompt.getD q false then 0 else (activeTiles s q true).length

/-- Some of the adapters that rows name target a tensor (R88, R132). -/
def adapterTargets (s : State) (rows : List RowPlan) (t : Tensor) : Bool :=
  rows.any fun r =>
    match (fmFind s.adapters (s.ctx r.ctx).adapter).bind Adapter.package with
    | some p => p.tensors.any fun x =>
        (x.role == 0x12 || x.role == 0x13) && x.targetRole == t.role && x.layer == t.layer && x.expert == t.expert
    | none => false

/-! ## The fault log (R420) -/

/-- The quadrant of a domain in the log: none for codes 8 to 12. -/
def logsInQuadrant (d : DomainId) : Bool := decide (0 < d.code) && decide (d.code ≤ 7)

/-- Writes an entry to the log of its domain (R420, Table 14-9). -/
def writeLog (e : FaultEntry) (s : State) : State :=
  let f := s.faults
  if logsInQuadrant e.domain && decide (e.cls ≠ 4) then
    { s with faults := { f with quadCount := fmAdd f.quadCount e.domain.quad 1, quadLog := fmModify f.quadLog e.domain.quad [] fun l => (e :: l).take 65536 } }
  else { s with faults := { f with logCount := f.logCount + 1, log := (e :: f.log).take 65536 } }

/-- An entry for a fault detected now. -/
def faultEntry (s : State) (cls : Nat) (d : DomainId) (cause action slot detail : Nat) : FaultEntry :=
  { time := nsOf s.now, step := s.stepCounter, cls := cls, domain := d, cause := cause,
    action := action, quadrant := if logsInQuadrant d then d.quad else 0xFF, slot := slot,
    detail := detail }

/-- The domain that stands for none. -/
def noDomain : DomainId := { code := 0, quad := 0, inst := 0 }

/-! ## FATAL (R373) -/

/-- Slots since a stamp. -/
def slotsSince (s : State) (t : Nat) : Nat :=
  let slot := 64 * s.clock.increment / 6
  if slot = 0 then 0 else (s.now - t) * 2 ^ 32 / slot

/-- The timetable position of Table 14-8: the slot within a step in flight, or within the boundary, of which row
10 is then the latest. -/
def positionOf (s : State) : Nat :=
  match s.step.map fun x => (x.started, x.startTime) with
  | some (true, t) => slotsSince s t % 2 ^ 24
  | _ => slotsSince s s.stamp % 2 ^ 24 + 2 ^ 24 + 10 * 2 ^ 25

/-- The dump begins: its header's fields as they stand at detection (Table 14-8). -/
def startDump (cause : Nat) (d : DomainId) (s : State) : Dump :=
  { toReserve := false, complete := false, hostFailed := false, cause := cause, domain := d.code,
    quadrant := if logsInQuadrant d then d.quad else 0xFF, inst := d.inst, time := nsOf s.now,
    step := s.stepCounter, position := positionOf s }

/-- A FATAL fault: every SSQ stops, FATAL and the cause are set, the health vector is raised, the
sideband alert is asserted, the dump begins (R373). -/
def fatal (cause : Nat) (d : DomainId) (s : State) : State :=
  if s.faults.fatal then s
  else
    let s := forEach (s.faults.domains.filterMap DomainState.entry) writeLog s
    let s := writeLog (faultEntry s 4 d cause 5 0 0) s
    let dump := startDump cause d s
    let s := { s with faults := { s.faults with fatal := true, cause := cause, fatalDomain := d.code, dump := some dump, dumpDone := false }, step := none, round := none, out := { s.out with alert := true } }
    raiseVector 0 s.healthVector s

/-! ## Spares (Table 14-4) -/

/-- Spare rows of a bank used; the bank is layer index * 1024 + bank. -/
def rowsUsed (s : State) (b : Nat) : Nat := fmGet s.faults.rowsUsed b 0

/-- Spares of a class left and used in an instance (Tables 14-4 and 17-2): class, quadrant, layer (or
port), instance; none where the selection names no instance. -/
def sparesOf (s : State) (cls q l i : Nat) : Option (Nat × Nat) :=
  let layer := q * 8 + l
  if cls = 0 ∧ q < 4 ∧ l < 8 ∧ i < 1024 then
    some (256 - rowsUsed s (layer * 1024 + i), rowsUsed s (layer * 1024 + i))
  else if cls = 1 ∧ q < 4 ∧ l < 8 ∧ i < 1024 then
    let u := fmGet s.faults.columnsUsed (layer * 1024 + i) 0
    some (32 - u, u)
  else if cls = 2 ∧ q < 4 ∧ i < 640 then
    let u := bit (s.faults.bondSpares.any fun x => decide (x = (q, i)))
    some (1 - u, u)
  else if cls = 3 ∧ q < 4 ∧ l < 8 ∧ i < 32 then
    let u := bit (s.faults.cmdSpares.any fun x => decide (x = (q, l * 32 + i)))
    some (1 - u, u)
  else if cls = 4 ∧ q < 4 ∧ l < 8 ∧ i < 16 then
    let f := bit (nbuState s q l i 16 == 1)
    some (f, 1 - f)
  else if cls = 5 ∧ q < 4 then
    let n := ((List.range 4).filter fun k => tileState s q false (96 + k) == 1).length
    some (n, 4 - n)
  else if cls = 6 ∧ q < 4 then
    let n := ((List.range 8).filter fun k => tileState s q true (160 + k) == 1).length
    some (n, 8 - n)
  else if cls = 7 ∧ l < 8 then
    let p := s.port l
    let u := bit (decide (p.rxReplaced ≠ 7)) + bit (decide (p.txReplaced ≠ 7))
    some (2 - u, u)
  else if cls = 8 then some (2 - min 2 s.power.shed.length, min 2 s.power.shed.length)
  else if cls = 9 then
    let u := min 1 (s.faults.cores.filter fun c => decide (c ≠ 0)).length
    some (1 - u, u)
  else none

/-- A quad of a layer is plain other than by a fused-off home position (Table 14-4). -/
def anyLostQuad (s : State) (q l : Nat) : Bool :=
  (plainQuads s q l).any fun d => nbuState s q l (d / 16) (d % 16) != 4

/-- The classes with an instance that meets its SPARES_LOW condition, as their count (Table 14-4). -/
def lowInstances (s : State) (cls : Nat) : Nat :=
  if cls = 0 then (s.faults.rowsUsed.filter fun p => decide (240 ≤ p.2)).length
  else if cls = 1 then (s.faults.columnsUsed.filter fun p => decide (28 ≤ p.2)).length
  else if cls = 2 then
    ((List.range 4).filter fun q =>
      decide (64 ≤ (s.faults.bondSpares.filter fun x => x.1 == q).length)).length
  else if cls = 3 then
    ((List.range 64).filter fun k =>
      decide (4 ≤ (s.faults.cmdSpares.filter fun x => x.1 * 16 + x.2 / 16 == k).length)).length
  else if cls = 4 then
    ((List.range 32).filter fun k =>
      let q := k / 8
      let l := k % 8
      decide (((List.range 16).filter fun g => nbuState s q l g 16 == 1).length < 8) ||
        anyLostQuad s q l).length
  else if cls = 5 then
    ((List.range 4).filter fun q => ((sparesOf s 5 q 0 0).getD (1, 0)).1 == 0).length
  else if cls = 6 then
    ((List.range 4).filter fun q => decide (((sparesOf s 6 q 0 0).getD (8, 0)).1 ≤ 2)).length
  else if cls = 7 then
    ((List.range 8).filter fun p =>
      decide ((s.port p).rxReplaced ≠ 7) || decide ((s.port p).txReplaced ≠ 7) ||
        !(s.port p).laneWear.isEmpty).length
  else if cls = 8 then bit (decide (1 ≤ s.power.shed.length))
  else if cls = 9 then bit (s.faults.cores.any fun c => decide (c = 2))
  else 0

/-- When a SPARES_LOW condition first holds: the bit, the health vector, the alert (R361). -/
def checkSpares (s : State) : State :=
  if !s.faults.sparesLow && (List.range 10).any fun c => decide (0 < lowInstances s c) then
    raiseVector 0 s.healthVector
      { s with faults := { s.faults with sparesLow := true }, out := { s.out with alert := true } }
  else s

/-! ## Retiring units (R360, R362) -/

def setNbu (q l g p v : Nat) (s : State) : State :=
  { s with faults := { s.faults with nbus := fmSet s.faults.nbus (nbuKey q l g p) v } }

def setTile (q : Nat) (pa : Bool) (i v : Nat) (s : State) : State :=
  { s with faults := { s.faults with tiles := fmSet s.faults.tiles (tileKey q pa i) v } }

/-- A new active-unit map: the generation rises (R360). -/
def newMap (s : State) : State := { s with faults := { s.faults with mapGen := (s.faults.mapGen + 1) % 2 ^ 32 } }

/-- An entry in the health record (R363). -/
def record (e : HealthEntry) (s : State) : State := { s with health := s.health ++ [e] }

/-- Retires an NBU position: the group's spare takes a home position's quad where it is free; otherwise
the quad becomes plain (R182, R362). Answers the action of Table 14-10. -/
def retireNbu (d : DomainId) (p : Nat) (s : State) : Nat × State :=
  let q := d.quad
  let l := d.inst / 16
  let g := d.inst % 16
  if nbuState s q l g p = 3 ∨ nbuState s q l g p = 4 then (0, s)
  else
    let s := record (.unit d p) s
    if p = 16 then (3, newMap (setNbu q l g 16 3 s))
    else if nbuState s q l g 16 = 1 then
      (2, newMap (setNbu q l g 17 (p + 1) (setNbu q l g 16 2 (setNbu q l g p 3 s))))
    else (3, newMap (setNbu q l g p 3 s))

/-- PA tiles fewer than 128: DA prompt mode until the next cold reset (R138). -/
def checkPrompt (q : Nat) (s : State) : State :=
  if (activeTiles s q true).length < 128 then
    { s with faults := { s.faults with daPrompt := listSet s.faults.daPrompt q true } }
  else s

/-- DA tiles fewer than 64: FATAL, ARRAY_MIN (R362). -/
def checkArray (d : DomainId) (s : State) : State :=
  if (activeTiles s d.quad false).length < 64 then fatal 0x15 d s else s

/-- Retires a tile: the lowest free spare enters the map in its physical order (R360). -/
def retireTile (d : DomainId) (pa : Bool) (s : State) : Nat × State :=
  let q := d.quad
  let st := tileState s q pa d.inst
  if st = 3 ∨ st = 4 then (0, s)
  else
    let s := record (.unit d d.inst) (setTile q pa d.inst 3 s)
    let r :=
      match (List.range (tilesBuilt pa)).find? fun i => tileState s q pa i == 1 with
      | some i => if st = 1 then (3, s) else (2, newMap (setTile q pa i 2 s))
      | none => (3, newMap s)
    (r.1, if pa then checkPrompt q r.2 else checkArray d r.2)

/-- Retires a lane: the group's spare comes in; FATAL where it is in service already (R356, R362). -/
def retireLane (d : DomainId) (s : State) : Nat × State :=
  let cmd := d.code == 5
  let used := if cmd then s.faults.cmdSpares else s.faults.bondSpares
  if used.any fun x => decide (x = (d.quad, d.inst)) then (5, fatal 0x10 d s)
  else
    let s := record (.unit d 0) s
    (2, if cmd then { s with faults := { s.faults with cmdSpares := (d.quad, d.inst) :: s.faults.cmdSpares } }
        else { s with faults := { s.faults with bondSpares := (d.quad, d.inst) :: s.faults.bondSpares } })

/-! ## Retired frames (R365) -/

/-- A frame leaves its tier's free list for good; the first 65,536 of a tier enter the health record. -/
def retireFrame (tier f : Nat) (s : State) : State :=
  if s.faults.retiredFrames.any fun x => decide (x = (tier, f)) then s
  else
    let n := (s.faults.retiredFrames.filter fun x => x.1 == tier).length
    let s := { s with faults := { s.faults with retiredFrames := (tier, f) :: s.faults.retiredFrames } }
    if n < 65536 then record (.frame tier f) s else s

/-- The T0 frame that holds a row of a bank (R187, R245): quad `bank / 4`, bank `bank % 4` of it. -/
def frameOfRow (q l bank row : Nat) : Nat :=
  q * 98304 + ((bank % 4 * 12 + row / 1024) * 256 + bank / 4) * 8 + l

/-- Soft repair of a row onto a spare row of its bank; with none left its 2 MiB position is retired
(R364, R365, Table 14-2). -/
def repairRow (d : DomainId) (row : Nat) (s : State) : Nat × State :=
  let key := (d.quad * 8 + d.inst / 1024) * 1024 + d.inst % 1024
  if rowsUsed s key < 256 then
    (2, record (.repair { isRow := true, quad := d.quad, layer := d.inst / 1024, bank := d.inst % 1024, line := row })
      { s with faults := { s.faults with rowsUsed := fmAdd s.faults.rowsUsed key 1 } })
  else (3, retireFrame 0 (frameOfRow d.quad (d.inst / 1024) (d.inst % 1024) row) s)

/-! ## Phases, cores and channels off their resource (Table 14-2, R356) -/

/-- Phases in service: 26 less those shed (R393). -/
def phasesOf (s : State) : Nat := 26 - s.power.shed.length

def shedPhase (p : Nat) (s : State) : State :=
  if s.power.shed.contains p then s
  else { s with power := { s.power with shed := p :: s.power.shed } }

def setCore (c v : Nat) (s : State) : State :=
  { s with faults := { s.faults with cores := listSet s.faults.cores c v } }

/-- A channel's state. -/
def channelKey (tier c : Nat) : Nat := (tier - 1) * 32 + c

def modChannel (tier c : Nat) (f : Channel → Channel) (s : State) : State :=
  { s with channels := fmModify s.channels (channelKey tier c) freshChannel f }

def State.channel (s : State) (tier c : Nat) : Channel :=
  fmGet s.channels (channelKey tier c) freshChannel

/-- A domain goes offline on its resource (Table 14-2, R356). Answers the action of Table 14-10. -/
def goOffline (d : DomainId) (unit : Nat) (s : State) : Nat × State :=
  if d.code = 1 then retireNbu d unit s
  else if d.code = 2 then retireTile d false s
  else if d.code = 3 then retireTile d true s
  else if d.code = 4 ∨ d.code = 5 then retireLane d s
  else if d.code = 6 then repairRow d unit s
  else if d.code = 7 then (5, fatal 0x10 d s)
  else if d.code = 8 then (4, record (.unit d 0) (modChannel 1 d.inst (fun c => { c with offline := true, trained := false, retraining := false }) s))
  else if d.code = 9 then (4, record (.unit d 0) (modChannel 2 d.inst (fun c => { c with offline := true, trained := false, retraining := false }) s))
  else if d.code = 11 then (4, shedPhase d.inst s)
  else if d.code = 12 then
    if (s.faults.cores.getD (1 - d.inst) 0) = 0 then (4, setCore d.inst 2 s) else (5, fatal 0x10 d s)
  else (4, s)

/-! ## Attribution (R353, R355 to R357) -/

/-- A domain that takes part in steps (Table 14-2). -/
def inSteps (d : DomainId) : Bool := decide (0 < d.code) && decide (d.code ≤ 7)

def State.domain (s : State) (d : DomainId) : Option DomainState :=
  s.faults.domains.find? fun x => decide (x.id = d)

def setDomain (x : DomainState) (s : State) : State :=
  { s with faults := { s.faults with domains := x :: s.faults.domains.filter fun y => decide (y.id ≠ x.id) } }

def dropDomain (d : DomainId) (s : State) : State :=
  { s with faults := { s.faults with domains := s.faults.domains.filter fun y => decide (y.id ≠ d) } }

/-- The unit a fault counts against under R357: NBU positions, tiles, lanes and control cores. -/
def countedUnit (d : DomainId) : Bool := decide (d.code ≤ 5) || decide (d.code = 12)

/-- Three faults of one unit within 65,536 boundaries retire it at the next row 6 (R357). -/
def noteFault (d : DomainId) (unit : Nat) (s : State) : State :=
  let h := (d, unit, s.boundary) :: s.faults.history
  let n := (h.filter fun x => decide (x.1 = d) && x.2.1 == unit && decide (s.boundary < x.2.2 + 65536)).length
  let s := { s with faults := { s.faults with history := h } }
  if countedUnit d && decide (3 ≤ n) && !(s.faults.retiring.any fun x => decide (x = (d, unit))) then
    { s with faults := { s.faults with retiring := s.faults.retiring ++ [(d, unit)] } }
  else s

/-- A STEP or UNIT fault attributed to a domain: its window opens, or, within it, the domain escalates:
at the next row 6 for a domain of steps, at once for the others (R355, R356). -/
def chargeFault (cls : Nat) (d : DomainId) (unit cause slot detail : Nat) (s : State) : State :=
  let e := faultEntry s cls d cause 0 slot detail
  let s := noteFault d unit s
  match s.domain d with
  | some x =>
    if x.state = 2 ∧ !(inSteps d) then writeLog e s
    else if inSteps d then
      let s := match x.entry with
        | some old => writeLog old s
        | none => s
      setDomain { x with escalating := true, unit := unit, entry := some e } s
    else
      let r := goOffline d unit s
      writeLog { e with action := r.1 } (setDomain { x with state := 2, escalating := false } r.2)
  | none =>
    if inSteps d then
      setDomain { id := d, state := 1, opened := nsOf s.now, unit := unit, recovered := false, escalating := false, entry := some e } s
    else
      writeLog e (setDomain { id := d, state := 1, opened := nsOf s.now, unit := unit, recovered := false, escalating := false, entry := none } s)

/-- Voids the step in flight, once (R282, R353). -/
def voidStep (s : State) : State :=
  match s.step with
  | some x => if x.started then { s with step := some { x with voided := true } } else s
  | none => s

/-- A STEP fault: the step is voided and the fault attributed (R352, R353). -/
def stepFault (d : DomainId) (unit cause slot detail : Nat) (s : State) : State :=
  chargeFault 2 d unit cause slot detail (voidStep s)

/-- A UNIT fault: no step is voided (R352). -/
def unitFault (d : DomainId) (unit cause slot detail : Nat) (s : State) : State :=
  chargeFault 3 d unit cause slot detail s

/-! ## Row 6 (R355 to R360) -/

/-- The retest of a recovering domain in row 6: failed, it counts as a second fault; passed, recovery is
complete and the fault's entry is written with action 1 (a row repair brings a spare row in). -/
def retest (failed : List DomainId) (x : DomainState) (s : State) : State :=
  if x.state ≠ 1 ∨ !(inSteps x.id) ∨ x.recovered then s
  else if failed.contains x.id then setDomain { x with escalating := true } s
  else
    let r := if x.id.code = 6 then repairRow x.id x.unit s else (1, s)
    let s := match x.entry with
      | some e => writeLog { e with action := r.1 } r.2
      | none => r.2
    setDomain { x with recovered := true, entry := none } s

/-- A domain of steps that escalates goes offline on its resource. -/
def escalate (x : DomainState) (s : State) : State :=
  let r := goOffline x.id x.unit s
  let s := match x.entry with
    | some e => writeLog { e with action := r.1 } r.2
    | none => r.2
  setDomain { x with state := 2, escalating := false, recovered := true, entry := none } s

/-- Retires what the wear monitors and R357 have named. -/
def retireNamed (u : DomainId × Nat) (s : State) : State :=
  if u.1.code = 12 then s
  else (goOffline u.1 u.2 s).2

/-- Row 6: escalations, retests, retirements; then the spare-budget test (Table 01-3, R361). -/
def swapSpares (failed : List DomainId) (s : State) : State :=
  let doms := s.faults.domains
  let s := forEach doms (fun x s => if x.escalating && inSteps x.id then escalate x s else retest failed x s) s
  let todo := s.faults.retiring
  let s := forEach todo retireNamed { s with faults := { s.faults with retiring := [] } }
  checkSpares s

/-- The windows that close at the end of a step without fault (R355): recovered domains of steps whose
step was not voided. -/
def closeWindows (stepRan : Bool) (s : State) : State :=
  if stepRan then
    { s with faults := { s.faults with domains := s.faults.domains.filter fun x =>
        !(inSteps x.id && x.recovered && !x.escalating) } }
  else s

/-- Every domain of steps has completed recovery (R353). -/
def domainsReady (s : State) : Bool :=
  s.faults.domains.all fun x => !(inSteps x.id) || x.recovered || decide (x.state = 2)

end Sys2Proof.Machine
end

