-- ==== Sys2Proof/Machine/Tiers.lean ====
section
/-! DEFINITION. Memory tiers (chapter 10): frames and free lists, the placement table, the sluice's
moves, host access to the device-physical range, data errors and the refetch ladder. -/

namespace Sys2Proof.Machine

/-! ## Frames (R245, R463) -/

def blockBytes : Nat := 2097152

/-- A frame of a tier as one number: tier * 2^21 + frame. -/
def frameCode (tier f : Nat) : Nat := tier * 2097152 + f
def codeTier (c : Nat) : Nat := c / 2097152
def codeFrame (c : Nat) : Nat := c % 2097152

/-- The frames of a tier (Table 10-1). -/
def tierFrames (tier : Nat) : Nat := if tier = 0 then 393216 else if tier = 1 then 655360 else 1048576

/-- The frames of one channel of a lower tier. -/
def channelFrames (tier : Nat) : Nat := if tier = 1 then 32768 else 65536

def channelCount (tier : Nat) : Nat := if tier = 1 then 20 else 16

/-- Frames set aside at cold reset (R463): the history area and the journal take the last 33,792 of T1,
the dump reserve the last 128 of T2 channels 0 and 8 (which frames they are is the model's choice,
log 9). -/
def reservedFrame (tier f : Nat) : Bool :=
  if tier = 1 then decide (621568 ≤ f)
  else if tier = 2 then
    (decide (65408 ≤ f) && decide (f < 65536)) || (decide (589696 ≤ f) && decide (f < 589824))
  else false

def reservedCount (tier : Nat) : Nat := if tier = 1 then 33792 else if tier = 2 then 256 else 0

/-- The T0 frames that blocks hold or that a move fills. -/
def blockT0 (b : Block) : List Nat :=
  b.t0.toList ++ (b.target.toList.filter fun c => codeTier c == 0).map codeFrame

/-- The lower-tier frames a block holds or that a move fills. -/
def blockLower (tier : Nat) (b : Block) : List Nat :=
  (if (if b.imageT2 then 2 else 1) = tier then b.image.toList else []) ++
    (if tier = 2 then b.mirror.toList else []) ++
    (b.target.toList.filter fun c => codeTier c == tier).map codeFrame

def graceFrames (tier : Nat) (s : State) : List Nat :=
  s.grace.filterMap fun g =>
    match g.2 with
    | .t0Frame f => if tier = 0 then some f else none
    | .tierFrame t f => if tier = t then some f else none
    | _ => none

def retiredOf (tier : Nat) (s : State) : List Nat :=
  (s.faults.retiredFrames.filter fun x => x.1 == tier).map Prod.snd

/-- Frames of spill images still in their grace period. -/
def graceImages (s : State) : List Nat :=
  s.grace.filterMap fun g => match g.2 with
    | .image r => some r
    | _ => none

/-- The frames of a lower tier in use: images, mirrors, targets, spill images, others, in grace. -/
def lowerUsed (tier : Nat) (s : State) : List Nat :=
  (s.blocks.map fun b => blockLower tier b.2).flatten ++
    ((s.images.filter fun i => i.2.tier == tier).map fun i => i.2.frames).flatten ++
    ((s.tierUsed.filter fun x => x.1 == tier).map Prod.snd) ++ graceFrames tier s

def lowerFree (s : State) (tier : Nat) (used : List Nat) (f : Nat) : Bool :=
  !(reservedFrame tier f) && !(used.contains f) && !((retiredOf tier s).contains f) &&
    !(s.channel tier (f / channelFrames tier)).offline

/-- The near quadrant of a channel (Table 10-1). -/
def nearQuadrant (tier c : Nat) : Nat := if tier = 1 then c / 5 else c / 4

/-- Frames of a tier that are free: built, less those set aside, used, retired or on an offline
channel. -/
def freeCount (s : State) (tier : Nat) : Nat :=
  let off := (List.range (channelCount tier)).filter fun c => (s.channel tier c).offline
  let gone := dedup (lowerUsed tier s ++ retiredOf tier s)
  let gone := gone.filter fun f => !(off.contains (f / channelFrames tier))
  tierFrames tier - reservedCount tier - gone.length - off.length * channelFrames tier

/-- The T0 positions that pools hold as extents in a quadrant. -/
def extentPositions (s : State) (q : Nat) : List Nat :=
  (s.pools.map fun p => p.2.extents.getD q []).flatten

/-- A quad of a pool's placement list (R188). -/
def inPlacement (p : Pool) (q l quad : Nat) : Bool :=
  !(p.plain.any fun x => decide (x = (q, l * 256 + quad)))

/-- A T0 frame's place: quadrant, position, quad, layer (R245). -/
def framePlace (f : Nat) : Nat × Nat × Nat × Nat :=
  let r := f % 98304
  (f / 98304, r / 2048, r / 8 % 256, r % 8)

/-- The frame at a place. -/
def frameAt (q p quad l : Nat) : Nat := q * 98304 + (p * 256 + quad) * 8 + l

/-- A T0 frame that a pool's extent covers. -/
def extentFrame (s : State) (f : Nat) : Bool :=
  let x := framePlace f
  s.pools.any fun p =>
    (p.2.extents.getD x.1 []).contains x.2.1 && inPlacement p.2 x.1 x.2.2.2 x.2.2.1

/-- T0 frames in use beside extents. -/
def t0Used (s : State) : List Nat := (s.blocks.map fun b => blockT0 b.2).flatten ++ graceFrames 0 s

def t0Free (s : State) (used : List Nat) (f : Nat) : Bool :=
  !(used.contains f) && !((retiredOf 0 s).contains f) && !(extentFrame s f)

/-- Free T0 frames of a quadrant. -/
def t0FreeCount (s : State) (q : Nat) : Nat :=
  let used := dedup ((t0Used s ++ retiredOf 0 s).filter fun f => f / 98304 == q && !(extentFrame s f))
  let ext := sumOf (s.pools.map fun p =>
    (p.2.extents.getD q []).length * (2048 - (p.2.plain.filter fun x => x.1 == q).length))
  98304 - used.length - ext

/-- The highest number below `n` that a test takes. -/
def lastBelow (p : Nat → Bool) : Nat → Nat → Option Nat
  | 0, _ => none
  | _, 0 => none
  | fuel + 1, n + 1 => if p n then some n else lastBelow p fuel n

/-- A T0 frame in a quadrant, from the highest free number downwards: on compute quads only for blocks that
NBU jobs read; otherwise on plain quads first (R248). -/
def findT0 (s : State) (q : Nat) (nbuRead : Bool) : Option Nat :=
  let used := t0Used s
  let ok (plain : Bool) (r : Nat) : Bool :=
    let f := q * 98304 + r
    let x := framePlace f
    t0Free s used f && (quadPlain s q x.2.2.2 x.2.2.1 == plain)
  let anyPlain := (List.range 8).any fun l => !(plainQuads s q l).isEmpty
  let search (plain : Bool) : Option Nat := (lastBelow (ok plain) 98304 98304).map (q * 98304 + ·)
  if nbuRead then search false
  else if anyPlain then
    match search true with
    | some f => some f
    | none => search false
  else search false

/-- T0 frames of a quadrant that standing reservations have yet to fill (R99). -/
def reservedT0 (s : State) (q : Nat) : Nat := sumOf (s.loads.map fun j => j.reserved.getD q 0)

/-- T0 frames of a quadrant in their grace period. -/
def graceT0 (s : State) (q : Nat) : Nat := ((graceFrames 0 s).filter fun f => f / 98304 == q).length

/-- A T0 frame for a use other than a reserved load: standing reservations keep theirs (R99, R463). -/
def takeT0 (s : State) (q : Nat) (nbuRead : Bool) : Option Nat :=
  if reservedT0 s q + 1 ≤ t0FreeCount s q + graceT0 s q then findT0 s q nbuRead else none

/-- The channels of a tier, near ones of a quadrant first, then far ones by ring hops, ties to the lower
quadrant number (R255). -/
def ringHops (a b : Nat) : Nat :=
  let d := (a + 4 - b) % 4
  min d (4 - d)

def channelsNear (tier q : Nat) : List Nat :=
  (List.range (channelCount tier)).filter fun c => nearQuadrant tier c == q

def channelsFar (tier q : Nat) : List Nat :=
  sortBy (fun a b =>
      lexLt [ringHops q (nearQuadrant tier a), nearQuadrant tier a, a]
        [ringHops q (nearQuadrant tier b), nearQuadrant tier b, b])
    ((List.range (channelCount tier)).filter fun c => nearQuadrant tier c != q)

/-- The lowest free frame of the first of some channels that has one. -/
def frameOnChannels (s : State) (tier : Nat) (used : List Nat) : List Nat → Option Nat
  | [] => none
  | c :: r =>
    if (s.channel tier c).offline then frameOnChannels s tier used r
    else
      match firstFrom (lowerFree s tier used) (c * channelFrames tier) (channelFrames tier) with
      | some f => some f
      | none => frameOnChannels s tier used r

/-- Frames of a tier that standing reservations have yet to fill: entry 4 for T1, 5 for T2 (R99). -/
def reservedFor (s : State) (tier : Nat) : Nat :=
  sumOf (s.loads.map fun j => j.reserved.getD (3 + tier) 0)

/-- Frames of a lower tier in their grace period. -/
def graceCount (s : State) (tier : Nat) : Nat :=
  (graceFrames tier s).length +
    sumOf ((graceImages s).map fun r => match fmFind s.images r with
      | some i => if i.tier = tier then i.frames.length else 0
      | none => 0)

/-- A tier has room for `n` frames of a transfer other than a reserved load (R463). -/
def hasRoom (s : State) (tier n : Nat) : Bool :=
  decide (n ≤ freeCount s tier) &&
    decide (reservedFor s tier + n ≤ freeCount s tier + graceCount s tier)

/-- The lowest free frame of a tier for a transfer that is not a load's (log 9). -/
def takeLower (s : State) (tier : Nat) : Option Nat :=
  if hasRoom s tier 1 then
    frameOnChannels s tier (lowerUsed tier s) (List.range (channelCount tier))
  else none

/-- `n` free frames of a tier. -/
def takeLowerN (s : State) (tier n : Nat) : Option (List Nat) :=
  if hasRoom s tier n then
    let used := lowerUsed tier s
    let l := takeFrom (lowerFree s tier used) n 0 (tierFrames tier)
    if l.length = n then some l else none
  else none

/-! ## Blocks (R247 to R254) -/

/-- HOST_LIMIT (R244). -/
def hostLimit (s : State) : Nat := s.reg sluiceBase 0 0x80000

/-- A block of the host region. -/
def inHost (s : State) (b : Nat) : Bool := decide (b < hostLimit s)

/-- What leaves a block's copies in row 4 returns in row 5 of the second boundary after (R254). -/
def releaseLater (g : GraceItem) (s : State) : State := { s with grace := s.grace ++ [(s.boundary + 2, g)] }

/-- The frames of a block's copies enter their grace period. -/
def releaseCopies (b : Block) (s : State) : State :=
  let s := match b.t0 with
    | some f => releaseLater (.t0Frame f) s
    | none => s
  let s := match b.image with
    | some f => releaseLater (.tierFrame (if b.imageT2 then 2 else 1) f) s
    | none => s
  let s := match b.mirror with
    | some f => releaseLater (.tierFrame 2 f) s
    | none => s
  match b.target with
  | some c => releaseLater (if codeTier c = 0 then .t0Frame (codeFrame c) else .tierFrame (codeTier c) (codeFrame c)) s
  | none => s

/-- A transfer of a block leaves the sluice's list. -/
def ofBlock (n : Nat) : Transfer → Bool
  | .refetch b => b == n
  | .promotion b _ => b == n
  | .demotion b => b == n
  | _ => false

def dropTransfers (p : Transfer → Bool) (s : State) : State :=
  let moves (w : Waiter) : Bool := match w with
    | .move t => p t
    | _ => false
  { s with
    sluice := { s.sluice with transfers := s.sluice.transfers.filter fun t => !(p t) },
    governed := s.governed.filter fun g => !(moves g.who) }

def addTransfer (t : Transfer) (s : State) : State :=
  { s with sluice := { s.sluice with transfers := s.sluice.transfers ++ [t] } }

/-- A block becomes UNMAPPED: its lines are back-invalidated, its frames leave under R254, a transfer in
progress is abandoned, its content is gone (R251, Table 10-6). -/
def unmapBlock (n : Nat) (s : State) : State :=
  if (s.block n).state = .unmapped then s
  else
    let b := s.block n
    let s := { s with out := { s.out with snoops := n :: s.out.snoops } }
    let s := dropTransfers (ofBlock n) (releaseCopies b s)
    { s with blocks := fmErase s.blocks n, mem := memClear s.mem (n * blockBytes) blockBytes, poisoned := s.poisoned.filter fun a => decide (a / 32768 ≠ n) }

/-- A block of a table set, or of a tensor of routed experts: NBU jobs read it (R248). -/
def nbuReads (s : State) (n : Nat) : Bool :=
  let b := s.block n
  if b.slot = 0xFF then
    s.tableSets.any fun t => decide (t.firstBlock ≤ n) && decide (n < t.firstBlock + t.blocks)
  else
    match (s.slot b.slot).package with
    | some p => (p.tensors[b.tensor]?).any fun t => decide (t.expert < 0x8000)
    | none => false

/-- A promotion issued: a T0 frame of the home quadrant is taken (Table 10-6). -/
def issuePromotion (cls n : Nat) (s : State) : State :=
  let b := s.block n
  if b.state = .mapped ∧ b.sealed ∧ b.t0.isNone then
    match takeT0 s b.home (nbuReads s n) with
    | some f =>
      addTransfer (.promotion n cls)
        (modBlock n (fun b => { b with state := .promoting, target := some (frameCode 0 f) }) s)
    | none => s
  else s

/-- A demotion issued: a lower-tier frame is taken, T1 before T2 near first (R256; the order of channels
is R255's, log 9). -/
def issueDemotion (n : Nat) (s : State) : State :=
  let b := s.block n
  if b.state = .mapped ∧ b.sealed ∧ b.t0.isSome ∧ b.image.isNone then
    let pick (tier : Nat) : Option Nat :=
      if hasRoom s tier 1 then
        frameOnChannels s tier (lowerUsed tier s) (channelsNear tier b.home ++ channelsFar tier b.home)
      else none
    let issue (tier f : Nat) : State :=
      addTransfer (.demotion n)
        (modBlock n (fun b => { b with state := .demoting, target := some (frameCode tier f) }) s)
    match pick 1 with
    | some f => issue 1 f
    | none =>
      match pick 2 with
      | some f => issue 2 f
      | none => s
  else s

/-! ## Images (R259 to R263) -/

/-- The tensor a package block belongs to. -/
def blockTensor (s : State) (n : Nat) : Option Tensor :=
  let b := s.block n
  if b.slot = 0xFF then none
  else (s.slot b.slot).package.bind fun p => p.tensors[b.tensor]?

/-- The newer of a tensor's table slots: number, generation and table (R263). -/
def newestTable (s : State) (slot tensor : Nat) : Option (Nat × Nat × CodecTable) :=
  let c := fmGet (s.slot slot).codecSlots tensor { slot0 := none, slot1 := none, newest := 0, sweeping := false }
  let t := if c.newest = 0 then c.slot0 else c.slot1
  t.map fun x => (c.newest, x.1, x.2)

def memAt (s : State) (a : Nat) : Byte := memByte s.mem a

/-- An image written for a block: its codec slot, generation and whether it is plain (R259, R260,
R263), and the raw codec blocks counted. -/
def writeImage (n : Nat) (s : State) : State :=
  let b := s.block n
  if b.slot = 0xFF then modBlock n (fun b => { b with plainImage := true, codec := 0, generation := 0 }) s
  else
    match newestTable s b.slot b.tensor with
    | none => modBlock n (fun b => { b with plainImage := true, codec := 0, generation := 0 }) s
    | some (k, g, t) =>
      let l := imageBlocks t fun i => memAt s (n * blockBytes + i)
      if imagePlain l then modBlock n (fun b => { b with plainImage := true, codec := k, generation := g }) s
      else
        modBlock n (fun b => { b with plainImage := false, codec := k, generation := g })
          { s with sluice := { s.sluice with rawBlocks := s.sluice.rawBlocks + imageRaw l } }

/-! ## Data errors and the refetch ladder (R281 to R286) -/

/-- The cause code of a data error (Table 14-7). -/
def dataCause : DataErr → Nat
  | .t0Ue => 0x0B | .tierUe => 0x0C | .imageCrc => 0x0D
  | .codecOverrun => 0x0E | .codecShort => 0x0E | .codecTable => 0x0E | .holdTimeout => 0x0F

/-- The counter of a data error (Table 17-10). -/
def countErr (e : DataErr) (s : State) : State :=
  let u := s.sluice
  match e with
  | .codecOverrun => { s with sluice := { u with codecOverrun := u.codecOverrun + 1 } }
  | .codecShort => { s with sluice := { u with codecShort := u.codecShort + 1 } }
  | .codecTable => { s with sluice := { u with codecTable := u.codecTable + 1 } }
  | .imageCrc => { s with sluice := { u with imageCrc := u.imageCrc + 1 } }
  | _ => s

/-- A block's origin can be read again: kinds 1, 2 and 3 (R81, R283). -/
def hasOrigin (b : Block) : Bool := decide (b.originKind ≠ 0)

/-- The first rung from `r` on that has a source (R283): 0 a verified copy, 1 the mirror, 2 the origin;
3 where none is left. -/
def nextRung (b : Block) (r : Nat) : Nat :=
  let copy := if b.failedCopy = 0 then b.image.isSome else b.t0.isSome
  if r = 0 ∧ copy then 0
  else if r ≤ 1 ∧ b.mirror.isSome then 1
  else if r ≤ 2 ∧ hasOrigin b then 2
  else 3

/-- The owner of a block that is LOST is marked at the next boundary (R285). -/
def noteLost (n : Nat) (s : State) : State :=
  let b := s.block n
  let s := { s with sluice := { s.sluice with lostBlocks := s.sluice.lostBlocks + 1 } }
  let s := if b.slot ≠ 0xFF then modSlot b.slot (fun x => { x with lost := true }) s else s
  { s with adapters := fmMap s.adapters fun _ a =>
      if a.firstBlock ≤ n ∧ n < a.firstBlock + a.blocks then { a with unusable := true } else a }

/-- A block becomes LOST. -/
def loseBlock (n : Nat) (s : State) : State :=
  dropTransfers (ofBlock n) (noteLost n (modBlock n (fun b => { b with state := .lost, target := none }) s))

/-- The fresh frame a refetched copy is written to: in T0 first, else in a lower tier (R283). -/
def refetchTarget (s : State) (n : Nat) (b : Block) : Option Nat :=
  let lower (t : Nat) : Option Nat := (takeLower s t).map (frameCode t)
  let first := if b.t0.isNone then (takeT0 s b.home (nbuReads s n)).map (frameCode 0) else none
  match first with
  | some f => some f
  | none =>
    if b.image.isSome then none
    else
      match lower (if b.imageT2 then 2 else 1) with
      | some f => some f
      | none => lower (if b.imageT2 then 1 else 2)

/-- Issues a refetch from the rung that stands next, or loses the block (R283, R285). -/
def issueRefetch (n r : Nat) (s : State) : State :=
  let b := s.block n
  let k := nextRung b r
  if k = 3 then loseBlock n s
  else
    let t := refetchTarget s n b
    addTransfer (.refetch n)
      (modBlock n (fun b => { b with rung := k, target := t })
        { s with sluice := { s.sluice with refetches := s.sluice.refetches + 1 } })

/-- A refetch fails (R283): counted; the third failure, or no source left, loses the block. -/
def refetchFailed (n : Nat) (s : State) : State :=
  let s := dropTransfers (ofBlock n)
    { s with sluice := { s.sluice with refetchFails := s.sluice.refetchFails + 1 } }
  let s := modBlock n (fun b => { b with refetches := b.refetches + 1 }) s
  if 3 ≤ (s.block n).refetches then loseBlock n s
  else issueRefetch n ((s.block n).rung + 1) s

/-- A data error in a package block (R281 to R286): the failed copy's frame is retired, the block enters
REFETCHING; in a block already there it is a failure of the refetch in progress. -/
def packageError (n : Nat) (e : DataErr) (s : State) : State :=
  let b := s.block n
  let s := countErr e s
  let d : DomainId := { code := 0, quad := b.home, inst := 0 }
  let s := writeLog (faultEntry s 1 d (dataCause e) 0 0 n) s
  if b.state = .lost ∨ b.state = .unmapped then s
  else if b.state = .refetching then refetchFailed n s
  else
    let t0Failed := decide (e = .t0Ue) || (b.t0.isSome && b.image.isNone && decide (e ≠ .holdTimeout))
    let s := dropTransfers (ofBlock n) s
    if e = .holdTimeout then
      issueRefetch n 0 (modBlock n (fun b => { b with state := .refetching, target := none, failedCopy := 0 }) s)
    else if t0Failed then
      let s := match b.t0 with
        | some f => retireFrame 0 f s
        | none => s
      issueRefetch n 0 (modBlock n (fun b => { b with state := .refetching, t0 := none, target := none, failedCopy := 0 }) s)
    else
      let s := match b.image with
        | some f => retireFrame (if b.imageT2 then 2 else 1) f s
        | none => s
      issueRefetch n 0 (modBlock n (fun b => { b with state := .refetching, image := none, target := none, failedCopy := 1 }) s)

/-- A refetched copy arrives and verifies: it is recorded where its frame lies (Table 10-6). -/
def refetchOk (n : Nat) (s : State) : State :=
  let b := s.block n
  match (match b.target with
    | some c => some c
    | none => refetchTarget s n b) with
  | none =>
    if b.t0.isSome ∨ b.image.isSome then
      modBlock n (fun b => { b with state := .mapped, refetches := 0, rung := 0 }) (dropTransfers (ofBlock n) s)
    else s
  | some c =>
    let s := dropTransfers (ofBlock n) s
    if codeTier c = 0 then
      modBlock n (fun b => { b with state := .mapped, t0 := some (codeFrame c), target := none, refetches := 0, rung := 0 }) s
    else
      writeImage n (modBlock n (fun b => { b with state := .mapped, image := some (codeFrame c), imageT2 := codeTier c == 2, target := none, refetches := 0, rung := 0 }) s)

/-! ## Host access to the range (R250) -/

/-- The outcome of a CXL.mem access (Table 10-4). -/
inductive Access where
  | zeros | served | failed | fresh
  deriving DecidableEq, Repr

/-- Table 10-4. -/
def accessOf (s : State) (n : Nat) (wr : Bool) : Access :=
  let b := s.block n
  match b.state with
  | .unmapped => if wr then (if inHost s n then .fresh else .failed) else .zeros
  | .lost => .failed
  | .mapped =>
    if !b.sealed then .served
    else if wr then .failed
    else if b.keyOwner = 0 then .served
    else .failed
  | .promoting | .demoting =>
    if wr then .failed else if b.keyOwner = 0 then .served else .failed
  | .refetching =>
    if wr then .failed
    else if (b.t0.isSome || b.image.isSome) && decide (b.keyOwner = 0) then .served
    else .failed

/-- The T0 quadrant of a fresh host block: n mod 4, or the one with the most free frames, ties to the
lowest (R250). -/
def freshFrame (s : State) (n : Nat) : Option (Nat × Nat) :=
  match takeT0 s (n % 4) false with
  | some f => some (n % 4, f)
  | none =>
    let q := (leastBy (fun a b => decide (t0FreeCount s b < t0FreeCount s a)) (List.range 4)).getD 0
    (takeT0 s q false).map fun f => (q, f)

/-- A fresh host block: zero-filled, MAPPED, not sealed. -/
def mapFresh (n q f : Nat) (s : State) : State :=
  let s := { s with mem := memClear s.mem (n * blockBytes) blockBytes }
  modBlock n (fun _ => { unmappedBlock with t0 := some f, state := .mapped, home := q }) s

/-- The read keeps a decoded codec block of an image: the last 64 (R250). -/
def noteDecoded (n a : Nat) (s : State) : State :=
  let k := (n, a % blockBytes / 4096)
  let l := s.sluice.decoded.filter fun x => decide (x ≠ k)
  { s with sluice := { s.sluice with decoded := (k :: l).take 64 } }

/-! ## Row 4 of the sluice (R249, R256, R424) -/

/-- The result code of a sluice command (Table 17-10). -/
def finishCommand (block result : Nat) (s : State) : State :=
  { s with sluice := { s.sluice with done := s.sluice.done + 1, result := result, last := block } }

/-- The block CRC of a block's content (R267). -/
def blockCrc (s : State) (n : Nat) : Word32 :=
  BitVec.ofNat 32 (crc32c (memBytes s.mem (n * blockBytes) blockBytes))

/-- One SEAL, UNSEAL or RELEASE in row 4 (Table 10-3). -/
def sluiceCommand (op : SluiceOp) (n : Nat) (s : State) : State :=
  let b := s.block n
  if !(inHost s n) then finishCommand n 2 s
  else
    match op with
    | .seal =>
      if b.state = .unmapped then finishCommand n 1 s
      else finishCommand n 0 (modBlock n (fun b => { b with sealed := true, crc := blockCrc s n }) s)
    | .unseal =>
      if b.state ≠ .unmapped ∧ b.t0.isNone then
        issuePromotion 8 n { s with sluice := { s.sluice with unsealing := s.sluice.unsealing ++ [n] } }
      else
        let s := match b.image with
          | some f => releaseLater (.tierFrame (if b.imageT2 then 2 else 1) f) s
          | none => s
        let s := match b.mirror with
          | some f => releaseLater (.tierFrame 2 f) s
          | none => s
        let s := if b.state = .unmapped then s
          else modBlock n (fun b => { b with sealed := false, image := none, mirror := none }) s
        finishCommand n 0 s
    | .release => finishCommand n 0 (unmapBlock n s)

/-- The sluice takes its commands in the order written (R424), and the UNSEALs whose promotion is done. -/
def sluiceCommands (s : State) : State :=
  let ready := s.sluice.unsealing.filter fun n => (s.block n).t0.isSome
  let s := { s with sluice := { s.sluice with unsealing := s.sluice.unsealing.filter fun n => (s.block n).t0.isNone } }
  let s := forEach ready (sluiceCommand .unseal) s
  let cmds := s.sluice.commands
  forEach cmds (fun c => sluiceCommand c.1 c.2) { s with sluice := { s.sluice with commands := [] } }

/-- A command enters the queue of 64; one that finds it full is discarded with result 3 (R424). -/
def queueSluice (op : SluiceOp) (n : Nat) (s : State) : State :=
  if 64 ≤ s.sluice.commands.length then
    { s with sluice := { s.sluice with result := 3, last := n, done := s.sluice.done + 1 } }
  else
    { s with sluice := { s.sluice with commands := s.sluice.commands ++ [(op, n)], issued := s.sluice.issued + 1 } }

/-- BLOCK_FREE_TARGET (R256). -/
def freeTarget (s : State) : Nat := s.reg (sluiceBase + 8) 0 1024

/-- The T0 copies of a quadrant that may leave, oldest last use first, then highest block number: sealed
package blocks MAPPED with a T0 copy, not read in the step just ended (R256). -/
def victims (s : State) (q : Nat) : List Nat :=
  let l := s.blocks.filter fun b =>
    decide (b.2.state = .mapped) && b.2.sealed && !(inHost s b.1) && b.2.home == q &&
      b.2.t0.isSome && decide (b.2.lastUse < s.boundary)
  (sortBy (fun (a b : Nat × Block) => lexLt [a.2.lastUse, -(a.1 : Int)] [b.2.lastUse, -(b.1 : Int)]) l).map Prod.fst

/-- One victim: a block with an image loses its T0 copy; one without is first demoted (R256). -/
def evictBlock (n : Nat) (s : State) : State :=
  let b := s.block n
  if b.image.isSome then
    match b.t0 with
    | some f => releaseLater (.t0Frame f) (modBlock n (fun b => { b with t0 := none }) s)
    | none => s
  else issueDemotion n s

/-- Row 4 keeps BLOCK_FREE_TARGET frames free in each quadrant, counting frames already leaving. -/
def keepFree (s : State) : State :=
  forEach (List.range 4) (fun q s =>
    let coming := (graceFrames 0 s).filter fun f => f / 98304 == q
    let short := freeTarget s - (t0FreeCount s q + coming.length)
    forEach ((victims s q).take short) evictBlock s) s

end Sys2Proof.Machine
end

