-- ==== Sys2Proof/Machine/Pages.lean ====
section
/-! DEFINITION. Key/value pages, groups and pools (chapter 8): placement, page tables, writing and
sharing pages, spill, prefetch and drop. -/

namespace Sys2Proof.Machine

/-! ## Page slots and placement (R183 to R191) -/

/-- Bytes of one token in a page slot (Table 08-1): 17D/8 for INT8, 5D/4 for INT4. -/
def tokenBytes (d : Nat) (int4 : Bool) : Nat := if int4 then 5 * d / 4 else 17 * d / 8

/-- The size of a page slot. -/
def slotBytes (p : Pool) : Nat := 256 * tokenBytes p.headDim p.int4

/-- Slots in a 2 MiB block, F of Table 08-1. -/
def slotsPerBlock (p : Pool) : Nat := blockBytes / slotBytes p

/-- The length of a quadrant's placement list, N_q (R188). -/
def listLength (p : Pool) (q : Nat) : Nat := 2048 - (p.plain.filter fun x => x.1 == q).length

/-- Entry `n` of a quadrant's placement list: layer * 256 + quad, by layer, then quad (R188). -/
def listEntry (p : Pool) (q n : Nat) : Nat :=
  if (p.plain.filter fun x => x.1 == q).isEmpty then n
  else ((List.range 2048).filter fun k => !(p.plain.any fun x => decide (x = (q, k)))).getD n 0

/-- The heads of a quadrant: first and number (R189). -/
def headRange (p : Pool) (q : Nat) : Nat × Nat :=
  if 4 ≤ p.heads then
    let h0 := (q * p.heads + 3) / 4
    (h0, ((q + 1) * p.heads + 3) / 4 - h0)
  else (0, p.heads)

/-- Pages of one frame set in a quadrant. -/
def pagesIn (p : Pool) (q : Nat) : Nat := p.layers * (headRange p q).2

/-- The quadrants a frame set uses, and its number among the sets of each (R189). -/
def setQuadrants (p : Pool) (f : Nat) : List (Nat × Nat) :=
  if 4 ≤ p.heads then (List.range 4).map fun q => (q, f) else [(f % 4, f / 4)]

/-- The place of a page: quadrant, layer * 256 + quad, slot number within the quad (R189), before any
diversion. -/
def slotPlace (p : Pool) (f a h : Nat) : Nat × Nat × Nat :=
  let q := if 4 ≤ p.heads then 4 * h / p.heads else f % 4
  let fq := if 4 ≤ p.heads then f else f / 4
  let r := headRange p q
  let hq := if 4 ≤ p.heads then h - r.1 else h
  let x := fq * pagesIn p q + a * r.2 + hq
  (q, listEntry p q (x % listLength p q), x / listLength p q)

/-- The diversion entry that replaces a slot of a lost quad (R191). -/
def divert (s : State) (k : Nat) (x : Nat × Nat × Nat) : Nat × Nat × Nat :=
  match s.diversions.find? fun d => d.active && d.slot == k && d.quadrant == x.1 && d.lostQuad == x.2.1 && d.lostSlot == x.2.2 with
  | some d => (x.1, d.toQuad, d.toSlot)
  | none => x

/-- The byte address among device-held frames where a page slot begins: the extent's position of the
slot's block, the slot's row within it (R189). -/
def slotAddress (s : State) (k : Nat) (p : Pool) (f a h : Nat) : Nat :=
  let x := divert s k (slotPlace p f a h)
  let e := x.2.2 / slotsPerBlock p
  let pos := (p.extents.getD x.1 []).getD e 0
  frameAt x.1 pos (x.2.1 % 256) (x.2.1 / 256) * blockBytes + x.2.2 % slotsPerBlock p * slotBytes p

/-- The extents a quadrant needs for a frame set (R190). -/
def extentsNeeded (p : Pool) (q fq : Nat) : Nat :=
  (fq * pagesIn p q + pagesIn p q - 1) / listLength p q / slotsPerBlock p + 1

/-- A frame set is usable: its highest slot of every quadrant it uses lies within the extents (R190). -/
def setUsable (p : Pool) (f : Nat) : Bool :=
  (setQuadrants p f).all fun x => decide (extentsNeeded p x.1 x.2 ≤ (p.extents.getD x.1 []).length)

/-- A new pool: no extent yet (R186, R187). -/
def newPool (s : State) (pk : Package) (ring window : Nat) : Pool :=
  let attn := (pk.layers.filter fun l => decide (l.mixer = 0)).length
  { layers := attn, heads := pk.kvHeads,
    headDim := pk.headDim, int4 := pk.kvInt4, recurrent := decide (attn < pk.layers.length),
    ring := ring, window := window,
    plain := ((List.range 32).map fun k =>
      (plainQuads s (k / 8) (k % 8)).map fun d => (k / 8, k % 8 * 256 + d)).flatten,
    extents := [[], [], [], []], freeSets := [], usable := 0, withdrawn := [], lacked := 0,
    idle := [0, 0, 0, 0] }

def modPool (k : Nat) (f : Pool → Pool) (s : State) : State :=
  match fmFind s.pools k with
  | some p => { s with pools := fmSet s.pools k (f p) }
  | none => s

/-- A position free in every quad of a pool's list (R187). -/
def positionFree (s : State) (p : Pool) (used : List Nat) (q pos : Nat) : Bool :=
  !((extentPositions s q).contains pos) &&
    !(used.any fun f =>
      let x := framePlace f
      x.1 == q && x.2.1 == pos && inPlacement p q x.2.2.2 x.2.2.1)

/-- The lowest free position for an extent, taken only from what BLOCK_FREE_TARGET leaves (R248, R256). -/
def takePosition (s : State) (p : Pool) (q : Nat) : Option Nat :=
  if freeTarget s + reservedT0 s q + listLength p q ≤ t0FreeCount s q then
    firstFrom (positionFree s p (t0Used s ++ retiredOf 0 s) q) 0 48
  else none

/-- The quadrants whose extents are too few for a frame set. -/
def lackingQuadrants (p : Pool) (f : Nat) : List Nat :=
  ((setQuadrants p f).filter fun x => decide ((p.extents.getD x.1 []).length < extentsNeeded p x.1 x.2)).map Prod.fst

/-- Takes one extent in each of some quadrants; none if one has no free position. -/
def takeExtents (k : Nat) : List Nat → State → Option State
  | [], s => some s
  | q :: r, s =>
    match fmFind s.pools k with
    | none => none
    | some p =>
      match takePosition s p q with
      | none => none
      | some pos => takeExtents k r (modPool k (fun p => { p with extents := listSet p.extents q (p.extents.getD q [] ++ [pos]) }) s)

/-- The frame sets that have become usable join the free list, ascending (R190). -/
def addUsable (k : Nat) : Nat → State → Nat × State
  | 0, s => (0, s)
  | fuel + 1, s =>
    match fmFind s.pools k with
    | none => (0, s)
    | some p =>
      if setUsable p p.usable then
        let r := addUsable k fuel (modPool k (fun p => { p with usable := p.usable + 1, freeSets := if p.withdrawn.contains p.usable then p.freeSets else p.freeSets ++ [p.usable] }) s)
        (r.1 + 1, r.2)
      else (0, s)

/-- Rung 0 of R213: extends a pool while the shortfall is above 0 (R190). Answers what is left. -/
def extendPool (k : Nat) : Nat → Int → State → Int × State
  | 0, short, s => (short, s)
  | fuel + 1, short, s =>
    if short ≤ 0 then (short, s)
    else
      match fmFind s.pools k with
      | none => (short, s)
      | some p =>
        match takeExtents k (lackingQuadrants p p.usable) s with
        | none => (short, s)
        | some s =>
          let r := addUsable k 4096 s
          extendPool k fuel (short - r.1) r.2

/-! ## Groups (R192, R202) -/

/-- A group that is FREE. -/
def freeGroup : Group :=
  { refs := 0, residence := .free, sealed := false, held := none, owner := 0, slot := 0,
    frameSet := 0, image := 0, fill := 0, history := false, historyLost := false, lastUse := 0,
    adapter := 0xFFFF, tokens := [], finished := false, damaged := false }

def State.group (s : State) (g : Nat) : Group := fmGet s.groups g freeGroup

def modGroup (g : Nat) (f : Group → Group) (s : State) : State :=
  { s with groups := fmModify s.groups g freeGroup f }

/-- One more reference. -/
def addRef (g : Nat) (s : State) : State := modGroup g (fun x => { x with refs := x.refs + 1 }) s

/-- One reference fewer; row 4 sees a count of 0 (R202). -/
def dropRef (g : Nat) (s : State) : State := modGroup g (fun x => { x with refs := x.refs - 1 }) s

/-- The lowest free LGN of 4,194,304 (which free one is taken is the model's choice, log 10). -/
def freeLgn (s : State) : Option Nat :=
  firstFrom (fun g => (s.group g).residence == .free) 0 (min 4194304 (s.groups.length + 1))

/-- An LGN and a frame set for a page (R198): residence T0, one reference, fill 0. -/
def allocGroup (slot owner adapter : Nat) (s : State) : Option (Nat × State) :=
  match freeLgn s, fmFind s.pools slot with
  | some g, some p =>
    match p.freeSets with
    | f :: r =>
      some (g, modPool slot (fun p => { p with freeSets := r })
        { s with groups := fmSet s.groups g { freeGroup with refs := 1, residence := .t0, owner := owner, slot := slot, frameSet := f, adapter := adapter } })
    | [] => none
  | _, _ => none

/-- A frame set a row 9 lacked (R213). -/
def lackSet (slot n : Nat) (s : State) : State := modPool slot (fun p => { p with lacked := p.lacked + n }) s

/-- A transfer of a group. -/
def ofGroup (g : Nat) : Transfer → Bool
  | .spill x => x == g
  | .prefetch x => x == g
  | _ => false

/-- A frame set or an image enters the grace period of R202. -/
def graceSet (slot f : Nat) (s : State) : State := releaseLater (.frameSet slot f) s
def graceImage (r : Nat) (s : State) : State := releaseLater (.image r) s

/-- The frame set and the image of a group enter their grace period. -/
def releaseGroupData (g : Nat) (s : State) : State :=
  let x := s.group g
  match x.residence with
  | .t0 => graceSet x.slot x.frameSet s
  | .spilling | .prefetching => graceImage x.image (graceSet x.slot x.frameSet s)
  | .t1 | .t2 => graceImage x.image s
  | _ => s

/-- A group whose count reached 0 enters GRACE in row 4: any transfer is abandoned (Table 08-5). -/
def enterGrace (g : Nat) (s : State) : State :=
  let s := dropTransfers (ofGroup g) (releaseGroupData g s)
  releaseLater (.group g) (modGroup g (fun x => { x with residence := .grace }) s)

/-- Row 4: groups without references enter GRACE. -/
def graceGroups (s : State) : State :=
  forEach ((s.groups.filter fun x => x.2.refs == 0 && x.2.residence != .free && x.2.residence != .grace).map Prod.fst)
    enterGrace s

/-- What one item returns to in row 5. -/
def reclaimItem (i : GraceItem) (s : State) : State :=
  match i with
  | .group g =>
    let x := s.group g
    { s with groups := fmErase s.groups g, historyUsed := s.historyUsed - bit x.history }
  | .frameSet k f => modPool k (fun p => if p.withdrawn.contains f then p else { p with freeSets := p.freeSets ++ [f] }) s
  | .image r => { s with images := fmErase s.images r }
  | .t0Frame _ => s
  | .tierFrame _ _ => s

/-- Row 5: what was released at the boundary two boundaries earlier returns (Table 01-3, R202, R254). -/
def reclaim (s : State) : State :=
  let due := s.grace.filter fun x => decide (x.1 ≤ s.boundary)
  let s := { s with grace := s.grace.filter fun x => decide (s.boundary < x.1) }
  forEach (due.map Prod.snd) reclaimItem s

/-! ## Spill images (R214) -/

/-- Page slots of a frame set in image order: attention layer, then head. -/
def slotOrder (p : Pool) : List (Nat × Nat) :=
  ((List.range p.layers).map fun a => (List.range p.heads).map fun h => (a, h)).flatten

/-- Frames an image of a group takes. -/
def imageFrames (p : Pool) : Nat := ceilDiv (p.layers * p.heads * slotBytes p) blockBytes

/-- The address among device-held frames of byte `o` of an image. -/
def imageAddress (i : SpillImage) (o : Nat) : Nat :=
  frameCode i.tier (i.frames.getD (o / blockBytes) 0) * blockBytes + o % blockBytes

/-- The rows of 2 KiB of a group: address in T0 and address in its image. -/
def groupRows (s : State) (k : Nat) (p : Pool) (f : Nat) (i : SpillImage) : List (Nat × Nat) :=
  ((slotOrder p).mapIdx fun j x =>
    (List.range (slotBytes p / 2048)).map fun r =>
      (slotAddress s k p f x.1 x.2 + r * 2048, imageAddress i (j * slotBytes p + r * 2048))).flatten

/-- Copies rows of device-held frames. -/
def copyRows (l : List (Nat × Nat)) (s : State) : State :=
  forEach l (fun x s => { s with bank := memCopy s.bank s.bank x.1 x.2 2048 }) s

/-- The key generation a group's image is under: its owner's state key, or the provider key for
tenant 0 (R214, R265). -/
def imageKey (s : State) (owner : Nat) : Nat :=
  if owner = 0 then s.security.providerKey else ((s.tenant owner).stateKey).getD 0

/-- The lowest free record number for an image. -/
def freeImage (s : State) : Nat :=
  (firstFrom (fun r => (fmFind s.images r).isNone) 0 (s.images.length + 1)).getD 0

/-- A spill begins in one of two tiers in order, where there is room (R213, R217, R463). -/
def startSpill (tiers : List Nat) (g : Nat) (s : State) : Option State :=
  let x := s.group g
  match fmFind s.pools x.slot with
  | none => none
  | some p =>
    match tiers.filterMap fun t => (takeLowerN s t (imageFrames p)).map fun l => (t, l) with
    | (t, l) :: _ =>
      let r := freeImage s
      let s := { s with images := fmSet s.images r { lgn := g, tier := t, frames := l, key := imageKey s x.owner } }
      some (addTransfer (.spill g) (modGroup g (fun x => { x with residence := .spilling, image := r, finished := false }) s))
    | [] => none

/-- A spill abandoned: the group stays in T0, its partial image is released (Table 08-5). -/
def abandonSpill (g : Nat) (s : State) : State :=
  let x := s.group g
  if x.residence = .spilling then
    let s := dropTransfers (ofGroup g) { s with images := fmErase s.images x.image }
    modGroup g (fun x => { x with residence := .t0, finished := false }) s
  else s

/-- The sluice finishes a spill: its content stands in the image. -/
def finishSpill (g : Nat) (s : State) : State :=
  let x := s.group g
  if x.residence = .spilling ∧ !x.finished then
    let s := match fmFind s.pools x.slot, fmFind s.images x.image with
      | some p, some i => copyRows (groupRows s x.slot p x.frameSet i) s
      | _, _ => s
    dropTransfers (ofGroup g) (modGroup g (fun x => { x with finished := true }) s)
  else s

/-- Row 9 issues a prefetch: a frame set from the free list (R215). -/
def startPrefetch (g : Nat) (s : State) : State :=
  let x := s.group g
  if x.residence = .t1 ∨ x.residence = .t2 then
    match fmFind s.pools x.slot with
    | none => s
    | some p =>
      match p.freeSets with
      | f :: r =>
        addTransfer (.prefetch g)
          (modPool x.slot (fun p => { p with freeSets := r })
            (modGroup g (fun x => { x with residence := .prefetching, frameSet := f, finished := false }) s))
      | [] => lackSet x.slot 1 s
  else s

/-- The sluice finishes a prefetch. -/
def finishPrefetch (g : Nat) (s : State) : State :=
  let x := s.group g
  if x.residence = .prefetching ∧ !x.finished then
    let s := match fmFind s.pools x.slot, fmFind s.images x.image with
      | some p, some i => copyRows ((groupRows s x.slot p x.frameSet i).map fun a => (a.2, a.1)) s
      | _, _ => s
    dropTransfers (ofGroup g) (modGroup g (fun x => { x with finished := true }) s)
  else s

/-- Row 4: finished spills and prefetches take effect (Table 08-5). -/
def settleTransfers (s : State) : State :=
  forEach ((s.groups.filter fun x => x.2.finished).map Prod.fst) (fun g s =>
    let x := s.group g
    if x.residence = .spilling then
      let t := (fmFind s.images x.image).map SpillImage.tier
      graceSet x.slot x.frameSet
        (modGroup g (fun x => { x with residence := if t = some 1 then .t1 else .t2, finished := false }) s)
    else if x.residence = .prefetching then
      graceImage x.image (modGroup g (fun x => { x with residence := .t0, finished := false }) s)
    else modGroup g (fun x => { x with finished := false }) s) s

/-! ## Page tables (R193) -/

/-- The entry of a logical page. -/
def pageAt (c : Ctx) (i : Nat) : Option Nat := (c.pages.getD i none)

/-- A page table with an entry set, grown as needed. -/
def setPage (l : List (Option Nat)) (i : Nat) (v : Option Nat) : List (Option Nat) :=
  listSet (l ++ List.replicate (i + 1 - l.length) none) i v

/-- The groups a context's tables name. -/
def ctxGroups (c : Ctx) : List Nat := (c.pages ++ c.draftPages).filterMap id

/-- Pieces a table of `n` entries takes (R193). -/
def piecesFor (n : Nat) : Nat := ceilDiv n 1024

def freePieces (s : State) : Nat := 131072 - s.piecesUsed

/-- A context releases every group it names (row 4) and keeps its token history. -/
def releasePages (i : Nat) (s : State) : State :=
  let s := forEach (ctxGroups (s.ctx i)) dropRef s
  modCtx i (fun c => { c with pages := [], draftPages := [], draftLen := 0, kvLen := 0, copy := none, hashed := [], hashing := [], matched := [], lookupPending := false }) s

/-! ## Drops (R216) -/

/-- The position a group's page begins at in a context, where the context names it. -/
def pageIndex (c : Ctx) (g : Nat) : Option Nat := c.pages.findIdx? fun e => decide (e = some g)

/-- A context whose page was dropped: positions from the page on become pending again; PROMPT, or its
prior state, unless it is DONE (R216). -/
def pendAgain (i : Nat) (s : State) : State :=
  modCtx i (fun c =>
    let dec := c.decoding || decide (c.state = .decode) || (decide (c.prior = .decode) && c.state.live && !c.state.working)
    if c.state = .done then c
    else if c.state.working then { c with state := if c.state = .admitted then .admitted else .prompt, decoding := dec, goal := if dec then c.committed else c.goal, drafts := [] }
    else { c with prior := if c.prior = .admitted then .admitted else .prompt, decoding := dec, goal := if dec then c.committed else c.goal, drafts := [] }) s

/-- A group is dropped (Table 08-5): its data enters the grace period, its history chunk is kept, and
every sequence that names it recomputes. -/
def dropGroup (g : Nat) (s : State) : State :=
  let x := s.group g
  if x.residence = .free ∨ x.residence = .grace ∨ x.residence = .dropped then s
  else
    let users := (s.ctxs.filter fun c => decide (c.2.state ≠ .free) && decide (some g ∈ c.2.pages)).map Prod.fst
    let s := dropTransfers (ofGroup g) (releaseGroupData g s)
    let s := modGroup g (fun x => { x with residence := .dropped, finished := false, damaged := false, fill := 0 }) s
    forEach users (fun i s =>
      match pageIndex (s.ctx i) g with
      | some p => pendAgain i (modCtx i (fun c => { c with kvLen := min c.kvLen (256 * p) }) s)
      | none => s) s

/-! ## Reclaim (R213, Table 08-6) -/

/-- The sequences of the step just ended. -/
def stepCtxs (s : State) : List Nat :=
  match s.step with
  | some x => if x.started then x.rows.map RowPlan.ctx else []
  | none => []

/-- The rung from which a sequence is eligible; 9 for never. -/
def rungOf (c : Ctx) : Nat :=
  match c.state with
  | .done | .dormant => 2
  | .parked | .siding => 3
  | .admitted | .prompt | .decode => if 2 ≤ c.cls then 3 else 9
  | _ => 9

/-- A group may be a victim at a rung (R213): not held, not in transfer, named by no sequence of the step
just ended, every sequence that names it eligible. -/
def victimOk (s : State) (rung g : Nat) : Bool :=
  let x := s.group g
  let step := stepCtxs s
  x.held.isNone && x.residence != .spilling && x.residence != .prefetching &&
    s.ctxs.all fun c =>
      decide (c.2.state = .free) || !((ctxGroups c.2).contains g) ||
        (decide (rungOf c.2 ≤ rung) && !(step.contains c.1))

/-- Sequences of a category, longest since last in a step first, then the highest context index. -/
def category (s : State) (slot : Nat) (p : Ctx → Bool) : List (Nat × Ctx) :=
  sortBy (fun (a b : Nat × Ctx) => lexLt [a.2.lastBoundary, -(a.1 : Int)] [b.2.lastBoundary, -(b.1 : Int)])
    (s.ctxs.filter fun c => decide (c.2.state ≠ .free) && c.2.slot == slot && p c.2)

/-- Spills the groups of a category until the shortfall is gone. -/
def spillCategory (tiers : List Nat) (rung : Nat) (l : List (Nat × Ctx)) (acc : Int × State) : Int × State :=
  l.foldl (fun acc c =>
    (c.2.pages.filterMap id).foldl (fun acc g =>
      let x := acc.2.group g
      if acc.1 ≤ 0 ∨ !(x.sealed) ∨ x.residence ≠ .t0 ∨ !(victimOk acc.2 rung g) then acc
      else
        match startSpill tiers g acc.2 with
        | some s => (acc.1 - 1, s)
        | none => acc) acc) acc

/-- Groups that a handle or a node names are never dropped, nor those of recurrent models (R213). -/
def mayDrop (s : State) (g : Nat) : Bool :=
  let x := s.group g
  x.refs == 1 && !(s.bindings.any fun b => b.lgns.contains g) && !(s.nodes.any fun n => n.lgn == g) &&
    !(((fmFind s.pools x.slot).map Pool.recurrent).getD false) && !x.historyLost

/-- Rung 4: whole sequences of a category are dropped. -/
def dropCategory (l : List (Nat × Ctx)) (acc : Int × State) : Int × State :=
  l.foldl (fun acc c =>
    if acc.1 ≤ 0 then acc
    else
      (c.2.pages.filterMap id).foldl (fun acc g =>
        let r := (acc.2.group g).residence
        if (r = .t0 ∨ r = .t1 ∨ r = .t2) ∧ mayDrop acc.2 g ∧ victimOk acc.2 3 g then
          (acc.1 - 1, dropGroup g acc.2)
        else acc) acc) acc

/-- The least recently matched leaf node whose group only it names, of a pool (rung 1). -/
def leafNode (s : State) (slot : Nat) (only : Bool) : Option PrefixNode :=
  leastBy (fun a b => decide (a.used < b.used))
    (s.nodes.filter fun n => (decide (n.slot = slot) || !only) && !(s.nodes.any fun m => decide (m.parent = some n.chain) && m.slot == n.slot) && (!only || (s.group n.lgn).refs == 1))

def removeNode (n : PrefixNode) (s : State) : State :=
  dropRef n.lgn { s with nodes := s.nodes.filter fun m => decide (m ≠ n) }

def releaseNodes (slot : Nat) : Nat → Int → State → Int × State
  | 0, short, s => (short, s)
  | fuel + 1, short, s =>
    if short ≤ 0 then (short, s)
    else
      match leafNode s slot true with
      | some n =>
        if victimOk s 1 n.lgn then releaseNodes slot fuel (short - 1) (removeNode n s) else (short, s)
      | none => (short, s)

/-- A pool's shortfall (R213). -/
def shortfall (s : State) (slot : Nat) (p : Pool) : Int :=
  let grace := (s.grace.filter fun g => match g.2 with
    | .frameSet k _ => k == slot
    | _ => false).length
  let spilling := (s.groups.filter fun g => g.2.slot == slot && g.2.residence == .spilling).length
  (p.lacked : Int) + (s.reg 0x48 0 64 : Nat) - p.freeSets.length - grace - spilling

/-- Row 4's reclaim of one pool, rung by rung (Table 08-6). -/
def reclaimPool (slot : Nat) (s : State) : State :=
  match fmFind s.pools slot with
  | none => s
  | some p =>
    let short := shortfall s slot p
    let s := modPool slot (fun p => { p with lacked := 0 }) s
    let r := extendPool slot 256 short s
    let r := releaseNodes slot 4096 r.1 r.2
    let r := spillCategory [2, 1] 2 (category r.2 slot fun c => decide (c.state = .done) || decide (c.state = .dormant)) r
    let r := spillCategory [1, 2] 3 (category r.2 slot fun c => decide (c.state = .parked)) r
    let r := spillCategory [1, 2] 3 (category r.2 slot fun c => decide (c.state = .siding)) r
    let r := spillCategory [1, 2] 3 (category r.2 slot fun c => c.state.working && decide (2 ≤ c.cls)) r
    let full := !(hasRoom r.2 1 (imageFrames p)) && !(hasRoom r.2 2 (imageFrames p))
    if 0 < r.1 ∧ full then
      let r := dropCategory (category r.2 slot fun c => decide (c.state = .done)) r
      let r := dropCategory (category r.2 slot fun c => decide (c.state = .dormant)) r
      let r := dropCategory (category r.2 slot fun c => decide (c.state = .parked)) r
      (dropCategory (category r.2 slot fun c => decide (c.state = .siding)) r).2
    else r.2

/-- R217: every sealed group of a DORMANT sequence that only it names is spilled. -/
def spillDormant (s : State) : State :=
  forEach (s.ctxs.filter fun c => decide (c.2.state = .dormant)) (fun c s =>
    forEach (c.2.pages.filterMap id) (fun g s =>
      let x := s.group g
      if x.sealed ∧ x.refs = 1 ∧ x.residence = .t0 ∧ x.held.isNone then (startSpill [2, 1] g s).getD s
      else s) s) s

/-- An extent whose quadrant's slots held nothing for 64 boundaries returns (R190). -/
def extentIdle (s : State) (slot : Nat) (p : Pool) (q : Nat) : Bool :=
  let n := (p.extents.getD q []).length
  decide (0 < n) && !(s.groups.any fun g =>
    g.2.slot == slot && (g.2.residence == .t0 || g.2.residence == .spilling || g.2.residence == .prefetching) &&
      (setQuadrants p g.2.frameSet).any fun x => x.1 == q && decide (n ≤ extentsNeeded p q x.2)) &&
    !(s.grace.any fun g => match g.2 with
      | .frameSet k f => k == slot && (setQuadrants p f).any fun x => x.1 == q && decide (n ≤ extentsNeeded p q x.2)
      | _ => false)

/-- Frame sets that need a quadrant's highest extent. -/
def setsNeeding (p : Pool) (q : Nat) : List Nat :=
  p.freeSets.filter fun f => (setQuadrants p f).any fun x =>
    x.1 == q && decide ((p.extents.getD q []).length ≤ extentsNeeded p q x.2)

def shrinkPool (slot q : Nat) (s : State) : State :=
  match fmFind s.pools slot with
  | none => s
  | some p =>
    let idle := extentIdle s slot p q
    let n := if idle then p.idle.getD q 0 + 1 else 0
    let gone := setsNeeding p q
    if 64 ≤ n ∧ s.reg 0x48 0 64 + gone.length ≤ p.freeSets.length then
      modPool slot (fun p =>
        { p with extents := listSet p.extents q ((p.extents.getD q []).dropLast), freeSets := p.freeSets.filter fun f => !(gone.contains f), usable := (gone.foldl min p.usable), idle := listSet p.idle q 0 }) s
    else modPool slot (fun p => { p with idle := listSet p.idle q (min n 64) }) s

/-- Row 4's reclaim of every pool. -/
def reclaimPools (s : State) : State :=
  let s := forEach (fmKeys s.pools) reclaimPool s
  forEach (fmKeys s.pools) (fun k s => forEach (List.range 4) (shrinkPool k) s) s

/-! ## Row 4: fill, seal, rollback (R201) -/

/-- The 256 tokens of a page. -/
def pageTokens (c : Ctx) (i : Nat) : List Nat := (c.hist.drop (256 * i)).take 256

/-- A page sealed: its history chunk is queued for T1 (R201, R218). -/
def sealGroup (g : Nat) (tokens : List Nat) (s : State) : State :=
  let x := s.group g
  if x.sealed then s
  else
    let s := if x.history then s else { s with historyUsed := s.historyUsed + 1 }
    addTransfer (.history g)
      (modGroup g (fun x => { x with sealed := true, history := true, tokens := tokens }) s)

/-- One context's tables in row 4: fill of each page, sealed at 256; entries beyond the committed length
invalidated. Answers the pages sealed now. -/
def editCtx (i : Nat) (s : State) : State :=
  let c := s.ctx i
  let n := c.pages.length
  forEach (List.range n) (fun k s =>
    let c := s.ctx i
    match pageAt c k with
    | none => s
    | some g =>
      if c.committed ≤ 256 * k then
        dropRef g (modCtx i (fun c => { c with pages := setPage c.pages k none }) s)
      else
        let x := s.group g
        if x.residence = .t0 ∧ !x.sealed ∧ x.refs = 1 then
          let f := min 256 (c.kvLen - 256 * k)
          let s := modGroup g (fun x => { x with fill := f }) s
          if f = 256 then sealGroup g (pageTokens c k) s else s
        else s) s

/-- A PAUSE seals the tail with the fill it has (R71, R201). -/
def sealTail (i : Nat) (s : State) : State :=
  let c := s.ctx i
  if c.kvLen % 256 = 0 then s
  else
    match pageAt c (c.kvLen / 256) with
    | some g => sealGroup g (pageTokens c (c.kvLen / 256)) (modGroup g (fun x => if x.sealed then x else { x with fill := c.kvLen % 256 }) s)
    | none => s

/-! ## Row 9: pages a step writes (R198, R199) -/

/-- A group is writable: T0, not sealed, one reference (R198). -/
def writable (x : Group) : Bool := x.residence == .t0 && !x.sealed && x.refs == 1

/-- Every group a sequence reads is in T0 or SPILLING (R215): its pages below the valid length. -/
def groupsResident (s : State) (c : Ctx) : Bool :=
  (List.range (ceilDiv c.kvLen 256)).all fun k =>
    match pageAt c k with
    | some g =>
      let r := (s.group g).residence
      r == .t0 || r == .spilling
    | none => true

/-- A tail copy issued: a new LGN and frame set (R199). -/
def startCopy (i k old : Nat) (s : State) : State :=
  let c := s.ctx i
  if c.copy.isSome then s
  else
    match allocGroup c.slot c.tenant c.adapter s with
    | some (g, s) =>
      addTransfer (.tailCopy i)
        (modCtx i (fun c => { c with copy := some { page := k, old := old, fresh := g, finished := false } }) s)
    | none => lackSet c.slot 1 s

/-- The sluice finishes a tail copy: the old group's bytes stand in the new frame set. -/
def finishCopy (i : Nat) (s : State) : State :=
  match (s.ctx i).copy with
  | none => s
  | some t =>
    if t.finished then s
    else
      let old := s.group t.old
      let new := s.group t.fresh
      let s := match fmFind s.pools old.slot with
        | none => s
        | some p =>
          match old.residence with
          | .t1 | .t2 =>
            match fmFind s.images old.image with
            | some im => copyRows ((groupRows s old.slot p new.frameSet im).map fun a => (a.2, a.1)) s
            | none => s
          | _ =>
            copyRows (((slotOrder p).map fun x => (List.range (slotBytes p / 2048)).map fun r =>
              (slotAddress s old.slot p old.frameSet x.1 x.2 + r * 2048,
                slotAddress s old.slot p new.frameSet x.1 x.2 + r * 2048)).flatten) s
      dropTransfers (fun x => decide (x = .tailCopy i))
        (modCtx i (fun c => { c with copy := some { t with finished := true } }) s)

/-- Row 4: a finished tail copy takes the page's place with the old fill (R199). -/
def installCopies (s : State) : State :=
  forEach (s.ctxs.filter fun c => (c.2.copy.map TailCopy.finished).getD false) (fun c s =>
    match c.2.copy with
    | none => s
    | some t =>
      let fill := (s.group t.old).fill
      let s := modGroup t.fresh (fun x => { x with fill := fill }) s
      if pageAt c.2 t.page = some t.old then
        dropRef t.old (modCtx c.1 (fun c => { c with pages := setPage c.pages t.page (some t.fresh), copy := none }) s)
      else dropRef t.fresh (modCtx c.1 (fun c => { c with copy := none }) s)) s

/-- The outcome of making a page writable. -/
inductive PageStep where
  | ready (s : State)
  | wait (s : State)

/-- Makes one page of a candidate writable (R198, R199, R203, R216). -/
def preparePage (i k : Nat) (s : State) : PageStep :=
  let c := s.ctx i
  let fresh (s : State) : PageStep :=
    let need := piecesFor (k + 1) - c.pieces
    if freePieces s < need then .wait s
    else
      match allocGroup c.slot c.tenant c.adapter s with
      | none => .wait (lackSet c.slot 1 s)
      | some (g, s) =>
        let s := modCtx i (fun c => { c with pages := setPage c.pages k (some g), pieces := c.pieces + need }) { s with piecesUsed := s.piecesUsed + need }
        match fmFind s.pools c.slot with
        | some p =>
          if 0 < p.ring ∧ p.ring ≤ k then
            match pageAt (s.ctx i) (k - p.ring) with
            | some old => .ready (dropRef old (modCtx i (fun c => { c with pages := setPage c.pages (k - p.ring) none }) s))
            | none => .ready s
          else .ready s
        | none => .ready s
  match pageAt c k with
  | none => fresh s
  | some g =>
    let x := s.group g
    if writable x then .ready s
    else if x.residence = .dropped then
      if x.refs = 1 then
        match fmFind s.pools c.slot with
        | none => .wait s
        | some p =>
          match p.freeSets with
          | f :: r => .ready (modPool c.slot (fun p => { p with freeSets := r }) (modGroup g (fun x => { x with residence := .t0, frameSet := f, fill := 0, sealed := false }) s))
          | [] => .wait (lackSet c.slot 1 s)
      else fresh (dropRef g (modCtx i (fun c => { c with pages := setPage c.pages k none }) s))
    else .wait (startCopy i k g s)

/-- Makes every page of a range of positions writable; stops at the first that must wait. -/
def preparePages (i : Nat) : List Nat → State → PageStep
  | [], s => .ready s
  | k :: r, s =>
    match preparePage i k s with
    | .ready s => preparePages i r s
    | .wait s => .wait s

/-- The logical pages of positions `a` to `b`. -/
def pagesOf (a b : Nat) : List Nat := (List.range (b / 256 + 1 - a / 256)).map (· + a / 256)

end Sys2Proof.Machine
end

