-- ==== Sys2Proof/Machine/Float.lean ====
section
/-! DEFINITION. Number formats and arithmetic (chapter 5): the stored formats decoded to exact
dyadic values, exact sums and products, and the one rounding that follows them. -/

namespace Sys2Proof.Machine

/-- An exact value of a stored format: a sign, a magnitude `m * 2^e`, an infinity or NaN. -/
inductive Num where
  | nan
  | inf (neg : Bool)
  | fin (neg : Bool) (m : Nat) (e : Int)
  deriving DecidableEq, Repr

/-- A binary format: exponent and fraction bits, bias; `ieee`: the top exponent holds infinity and
NaN; otherwise its all-ones code alone is NaN where `nanTop` (R104). -/
structure FloatFmt where
  ebits : Nat
  mbits : Nat
  bias : Nat
  ieee : Bool
  nanTop : Bool
  deriving DecidableEq, Repr

def fp32 : FloatFmt := { ebits := 8, mbits := 23, bias := 127, ieee := true, nanTop := false }
def bf16 : FloatFmt := { ebits := 8, mbits := 7, bias := 127, ieee := true, nanTop := false }
def fp16 : FloatFmt := { ebits := 5, mbits := 10, bias := 15, ieee := true, nanTop := false }
def e4m3 : FloatFmt := { ebits := 4, mbits := 3, bias := 7, ieee := false, nanTop := true }
def e5m2 : FloatFmt := { ebits := 5, mbits := 2, bias := 15, ieee := true, nanTop := false }
def e2m1 : FloatFmt := { ebits := 2, mbits := 1, bias := 1, ieee := false, nanTop := false }

/-- The value of a code (R104, Table 05-1). -/
def FloatFmt.decode (f : FloatFmt) (v : Nat) : Num :=
  let neg := bitOf v (f.ebits + f.mbits)
  let e := bitsOf v f.mbits f.ebits
  let m := bitsOf v 0 f.mbits
  let top := e + 1 == 2 ^ f.ebits
  if f.ieee && top then (if m = 0 then .inf neg else .nan)
  else if f.nanTop && top && (m + 1 == 2 ^ f.mbits) then .nan
  else if e = 0 then .fin neg m (1 - (f.bias : Int) - (f.mbits : Int))
  else .fin neg (2 ^ f.mbits + m) ((e : Int) - (f.bias : Int) - (f.mbits : Int))

/-- How a value between two codes is rounded. -/
inductive Round where
  | nearest | upward | downward
  deriving DecidableEq, Repr

/-- The integer a quotient is rounded to, for a value of the given sign. -/
def roundNat (r : Round) (neg : Bool) (num den : Nat) : Nat :=
  let q := num / den
  let x := num % den
  match r with
  | .nearest => if 2 * x < den then q else if den < 2 * x then q + 1 else q + q % 2
  | .upward => if x = 0 ∨ neg then q else q + 1
  | .downward => if x = 0 ∨ !neg then q else q + 1

/-- A numerator and denominator of `num / den * 2^s`. -/
def scaled (num den : Nat) (s : Int) : Nat × Nat :=
  if 0 ≤ s then (num * 2 ^ s.toNat, den) else (num, den * 2 ^ (-s).toNat)

/-- floor(log2(num / den)) for a positive quotient. -/
def floorLog2 (num den : Nat) : Int :=
  let k : Int := (Nat.log2 num : Int) - (Nat.log2 den : Int)
  let p := scaled num den (-k)
  if p.1 < p.2 then k - 1 else k

/-- The magnitude code of `num / den * 2^e` rounded once, before any overflow test: exponent field
and fraction run on into each other, so a carry reaches the next exponent. -/
def FloatFmt.magnitude (f : FloatFmt) (r : Round) (neg : Bool) (num den : Nat) (e : Int) : Nat :=
  if num = 0 then 0
  else
    let emin : Int := 1 - (f.bias : Int)
    let k := max (floorLog2 num den + e) emin
    let q := k - (f.mbits : Int)
    let p := scaled num den (e - q)
    let m := roundNat r neg p.1 p.2
    if m < 2 ^ f.mbits then m else (k - emin).toNat * 2 ^ f.mbits + m

/-- The code of infinity's magnitude in an IEEE format: the first code beyond the finite ones. -/
def FloatFmt.topCode (f : FloatFmt) : Nat := (2 ^ f.ebits - 1) * 2 ^ f.mbits

/-- The greatest finite magnitude code. -/
def FloatFmt.maxCode (f : FloatFmt) : Nat :=
  if f.ieee then f.topCode - 1
  else if f.nanTop then 2 ^ (f.ebits + f.mbits) - 2
  else 2 ^ (f.ebits + f.mbits) - 1

/-- The sign bit's weight. -/
def FloatFmt.signBit (f : FloatFmt) : Nat := 2 ^ (f.ebits + f.mbits)

/-- The one NaN the LT9 writes (R110, Table 05-2). -/
def FloatFmt.nanCode (f : FloatFmt) : Nat :=
  if f.ieee then f.topCode + 2 ^ (f.mbits - 1) else 2 ^ (f.ebits + f.mbits) - 1

/-- A value rounded once to an IEEE format; beyond the range it is infinity of its sign (R109,
Table 05-2). -/
def FloatFmt.encode (f : FloatFmt) : Num → Nat
  | .nan => f.nanCode
  | .inf neg => bit neg * f.signBit + f.topCode
  | .fin neg m e => bit neg * f.signBit + min (f.magnitude .nearest neg m 1 e) f.topCode

/-- A positive or negative quotient rounded once to an IEEE format. -/
def FloatFmt.encodeQuot (f : FloatFmt) (neg : Bool) (num den : Nat) (e : Int) : Nat :=
  bit neg * f.signBit + min (f.magnitude .nearest neg num den e) f.topCode

/-! ## Exact arithmetic -/

/-- Two finite magnitudes over one exponent, as signed integers. -/
def signedAt (neg : Bool) (m : Nat) (e lo : Int) : Int :=
  let v : Int := (m : Int) * (2 ^ (e - lo).toNat : Nat)
  if neg then -v else v

/-- The exact sum; opposite zeros give +0, opposite infinities NaN (R109, R110). -/
def Num.add : Num → Num → Num
  | .nan, _ => .nan
  | _, .nan => .nan
  | .inf a, .inf b => if a = b then .inf a else .nan
  | .inf a, .fin .. => .inf a
  | .fin .., .inf b => .inf b
  | .fin a m e, .fin b n k =>
    let lo := min e k
    let v := signedAt a m e lo + signedAt b n k lo
    if v = 0 then .fin (a && b && decide (m = 0) && decide (n = 0)) 0 lo
    else .fin (decide (v < 0)) v.natAbs lo

/-- The exact product (R109). -/
def Num.mul : Num → Num → Num
  | .nan, _ => .nan
  | _, .nan => .nan
  | .inf a, .inf b => .inf (a != b)
  | .inf a, .fin b m _ => if m = 0 then .nan else .inf (a != b)
  | .fin a m _, .inf b => if m = 0 then .nan else .inf (a != b)
  | .fin a m e, .fin b n k => .fin (a != b) (m * n) (e + k)

def Num.neg : Num → Num
  | .nan => .nan
  | .inf a => .inf (!a)
  | .fin a m e => .fin (!a) m e

/-- +0. -/
def Num.zero : Num := .fin false 0 0

/-- An integer. -/
def Num.ofInt (v : Int) (e : Int) : Num := .fin (decide (v < 0)) v.natAbs e

/-- An exact sum, with a sum of zero +0 (R109). -/
def Num.sum (l : List Num) : Num :=
  match l.foldl Num.add Num.zero with
  | .fin _ 0 _ => Num.zero
  | v => v

/-- An order on the finite values and the infinities: -1, 0, 1; NaN compares with nothing. -/
def Num.lt : Num → Num → Bool
  | .nan, _ => false
  | _, .nan => false
  | .inf a, .inf b => a && !b
  | .inf a, .fin .. => a
  | .fin .., .inf b => !b
  | .fin a m e, .fin b n k =>
    let lo := min e k
    decide (signedAt a m e lo < signedAt b n k lo)

def Num.isNan : Num → Bool
  | .nan => true
  | _ => false

def Num.isFinite : Num → Bool
  | .fin .. => true
  | _ => false

/-! ## FP32 (R110) -/

def f32 (w : Word32) : Num := fp32.decode w.toNat
def toF32 (n : Num) : Word32 := BitVec.ofNat 32 (fp32.encode n)

/-- 0x7FC00000, the quiet NaN of R110. -/
def f32Nan : Word32 := 0x7FC00000
def f32Zero : Word32 := 0
def f32One : Word32 := 0x3F800000
def f32NegInf : Word32 := 0xFF800000
def f32PosInf : Word32 := 0x7F800000
def f32Max : Word32 := 0x7F7FFFFF
def f32Min : Word32 := 0xFF7FFFFF

def f32Add (a b : Word32) : Word32 := toF32 ((f32 a).add (f32 b))
def f32Sub (a b : Word32) : Word32 := toF32 ((f32 a).add (f32 b).neg)
def f32Mul (a b : Word32) : Word32 := toF32 ((f32 a).mul (f32 b))

/-- A fused multiply-add: one rounding (R140). -/
def f32Fma (a b c : Word32) : Word32 := toF32 (((f32 a).mul (f32 b)).add (f32 c))

/-- Division, one rounding (R226). -/
def f32Div (a b : Word32) : Word32 :=
  match f32 a, f32 b with
  | .nan, _ => f32Nan
  | _, .nan => f32Nan
  | .inf _, .inf _ => f32Nan
  | .inf x, .fin y _ _ => toF32 (.inf (x != y))
  | .fin x _ _, .inf y => toF32 (.fin (x != y) 0 0)
  | .fin x m e, .fin y n k =>
    if n = 0 then (if m = 0 then f32Nan else toF32 (.inf (x != y)))
    else BitVec.ofNat 32 (fp32.encodeQuot (x != y) m n (e - k))

def f32Lt (a b : Word32) : Bool := (f32 a).lt (f32 b)
def f32IsZero (a : Word32) : Bool := bitsOf a.toNat 0 31 == 0
def f32IsNan (a : Word32) : Bool := (f32 a).isNan
def f32IsFinite (a : Word32) : Bool := (f32 a).isFinite

/-- The greater value; the maximum of a NaN and any value is NaN (R157). -/
def f32MaxOf (a b : Word32) : Word32 :=
  if f32IsNan a || f32IsNan b then f32Nan else if f32Lt a b then b else a

/-- An unsigned integer as FP32, to nearest (Table 05-2). -/
def f32OfNat (n : Nat) : Word32 := toF32 (.fin false n 0)

/-- FP32 to BF16, to nearest (R114). -/
def toBf16 (w : Word32) : Word32 := BitVec.ofNat 32 (bf16.encode (f32 w))

/-- BF16 to FP32, exact. -/
def ofBf16 (w : Word32) : Word32 := toF32 (bf16.decode w.toNat)

/-! ## The transcendental units (R121)

Each is a fixed function of its input bits within 2 ulp: the bits are free (log 2). The special cases
are the table's, and exp of 0 is 1 as stage 10 of Table 09-1 has it. -/

def veExp (x : Word32) : Word32 :=
  match f32 x with
  | .nan => f32Nan
  | .inf neg => if neg then f32Zero else f32PosInf
  | .fin _ m _ => if m = 0 then f32One else Config.expUnit x

def veRecip (x : Word32) : Word32 :=
  if f32IsNan x then f32Nan
  else if x = 0x80000000 then f32NegInf
  else Config.recipUnit x

def veLog (x : Word32) : Word32 :=
  match f32 x with
  | .nan => f32Nan
  | .inf neg => if neg then f32Nan else Config.logUnit x
  | .fin neg m _ => if neg && decide (m ≠ 0) then f32Nan else Config.logUnit x

def veRsqrt (x : Word32) : Word32 :=
  match f32 x with
  | .nan => f32Nan
  | .inf neg => if neg then f32Nan else Config.rsqrtUnit x
  | .fin neg m _ => if neg && decide (m ≠ 0) then f32Nan else Config.rsqrtUnit x

def veSin (x : Word32) : Word32 := if f32IsNan x then f32Nan else Config.sinUnit x
def veCos (x : Word32) : Word32 := if f32IsNan x then f32Nan else Config.cosUnit x
def veTanh (x : Word32) : Word32 := if f32IsNan x then f32Nan else Config.tanhUnit x
def veErf (x : Word32) : Word32 := if f32IsNan x then f32Nan else Config.erfUnit x

/-! ## Weight elements and scales (R103 to R107) -/

/-- The bits of an element of a format code (Table 04-6). -/
def elementBits (fmt : Nat) : Nat :=
  if fmt = 0x01 then 16
  else if fmt = 0x11 ∨ fmt = 0x14 ∨ fmt = 0x22 then 4
  else 8

/-- The value of a raw element: a stored integer for INT8 and INT4, times 2^-6 for MXINT8 (R107). -/
def decodeElement (fmt v : Nat) : Num :=
  if fmt = 0x01 then bf16.decode v
  else if fmt = 0x10 then Num.ofInt (signedOf v 8) 0
  else if fmt = 0x11 then Num.ofInt (signedOf v 4) 0
  else if fmt = 0x12 ∨ fmt = 0x20 then e4m3.decode v
  else if fmt = 0x13 ∨ fmt = 0x21 then e5m2.decode v
  else if fmt = 0x14 ∨ fmt = 0x22 then e2m1.decode v
  else if fmt = 0x23 then Num.ofInt (signedOf v 8) (-6)
  else .nan

/-- Element `i` of element data, two 4-bit elements to a byte, the even one in [3:0] (R103). -/
def elementAt (byte : Nat → Byte) (fmt i : Nat) : Nat :=
  match elementBits fmt with
  | 4 => bitsOf (byte (i / 2)).toNat (4 * (i % 2)) 4
  | 16 => (byte (2 * i)).toNat + 256 * (byte (2 * i + 1)).toNat
  | _ => (byte i).toNat

/-- A scale byte: format 1 E8M0, format 2 FP8 E4M3 (R106). -/
def decodeScale (fmt v : Nat) : Num :=
  if fmt = 1 then (if v = 0xFF then .nan else .fin false 1 ((v : Int) - 127))
  else if fmt = 2 then e4m3.decode v
  else .fin false 1 0

/-- A scale byte that is NaN (R106). -/
def scaleIsNan (fmt v : Nat) : Bool := (decodeScale fmt v).isNan

/-- One scaled partial: the exact group sum rounded once, times the scale, rounded once; a scale of
zero decodes the group to +0, so its sum is of zeros (R106, R109). -/
def scaledPartial (xs acts : List Num) (scale : Num) : Word32 :=
  let elems := match scale with
    | .fin _ 0 _ => xs.map fun _ => Num.zero
    | _ => xs
  let p := f32 (toF32 (Num.sum (List.zipWith Num.mul elems acts)))
  match scale with
  | .fin _ 0 _ => toF32 p
  | _ => toF32 (p.mul scale)

/-- A chunk partial: the scaled partials added one at a time from +0 (R111). -/
def chunkSum (l : List Word32) : Word32 := l.foldl f32Add f32Zero

/-- One level of the pairwise tree: neighbours added, an unpaired last one passed up (R112). -/
def pairUp {α : Type} (f : α → α → α) : List α → List α
  | a :: b :: r => f a b :: pairUp f r
  | l => l

/-- The pairwise tree over a list, level by level. -/
def treeFold {α : Type} (f : α → α → α) : Nat → List α → List α
  | 0, l => l
  | n + 1, l => treeFold f n (pairUp f l)

/-- The pairwise FP32 tree over ascending index (R112, R113); +0 for no terms. -/
def pairTree (l : List Word32) : Word32 :=
  (treeFold f32Add (Nat.log2 l.length + 1) l).headD f32Zero

/-! ## Activations (R116) -/

/-- floor(log2) of a magnitude of exact values. -/
def magLog2 (m : Nat) (e : Int) : Int := (Nat.log2 m : Int) + e

/-- The greatest magnitude of a list of finite values, as a non-negative value. -/
def maxMagnitude (l : List Num) : Num :=
  l.foldl (fun a b =>
    match b with
    | .fin _ m e => if a.lt (.fin false m e) then .fin false m e else a
    | _ => a) Num.zero

/-- An E4M3 code nearest to a value, saturated to 448 (R116). -/
def toE4m3 : Num → Nat
  | .fin neg m e => bit neg * 128 + min (e4m3.magnitude .nearest neg m 1 e) e4m3.maxCode
  | .inf neg => bit neg * 128 + e4m3.maxCode
  | .nan => e4m3.nanCode

/-- A block of 32 BF16 activations as FP8 E4M3 codes and an E8M0 scale byte (R116). -/
def actBlock (xs : List Num) : List Nat × Nat :=
  if !(xs.all Num.isFinite) then (xs.map fun _ => e4m3.nanCode, 0xFF)
  else
    match maxMagnitude xs with
    | .fin _ m e =>
      if m = 0 then (xs.map fun _ => 0, 0)
      else
        let x := max (-127) (min 127 (magLog2 m e - 8))
        (xs.map fun v =>
          match v with
          | .fin neg n k => toE4m3 (.fin neg n (k - x))
          | _ => 0, (x + 127).toNat)
    | _ => (xs.map fun _ => e4m3.nanCode, 0xFF)

/-- The decoded value of an activation: E4M3 code times its block scale (R114). -/
def actValue (code scale : Nat) : Num := (e4m3.decode code).mul (decodeScale 1 scale)

/-! ## Key/value quantisation (R117 to R120) -/

/-- FP16 magnitude code of a quotient with a rounding, limited to 65,504. -/
def toFp16 (r : Round) (neg : Bool) (num den : Nat) (e : Int) : Nat :=
  bit neg * fp16.signBit + min (fp16.magnitude r neg num den e) fp16.maxCode

/-- A quotient of two exact finite values rounded to the nearest integer, ties to even. -/
def quotInt (a b : Num) : Int :=
  match a, b with
  | .fin x m e, .fin y n k =>
    if n = 0 then 0
    else
      let p := scaled m n (e - k)
      let q : Int := roundNat .nearest false p.1 p.2
      if x != y then -q else q
  | _, _ => 0

/-- A quantised group: scale, minimum (INT4) and element codes. -/
structure KvGroup where
  scale : Nat
  minimum : Nat
  codes : List Nat
  deriving DecidableEq, Repr

/-- A group of 32 FP32 values in INT8 KV (R117, R120). -/
def quantInt8 (xs : List Num) : KvGroup :=
  if !(xs.all Num.isFinite) then { scale := 0x7E00, minimum := 0, codes := xs.map fun _ => 0 }
  else
    match maxMagnitude xs with
    | .fin _ m e =>
      if m = 0 then { scale := 0, minimum := 0, codes := xs.map fun _ => 0 }
      else
        let s := toFp16 .upward false m 127 e
        let sv := fp16.decode s
        { scale := s, minimum := 0,
          codes := xs.map fun x => unsignedOf (max (-127) (min 127 (quotInt x sv))) 8 }
    | _ => { scale := 0x7E00, minimum := 0, codes := xs.map fun _ => 0 }

/-- The least and the greatest of a list of values. -/
def leastNum (a : Num) (l : List Num) : Num := l.foldl (fun x y => if y.lt x then y else x) a
def greatestNum (a : Num) (l : List Num) : Num := l.foldl (fun x y => if x.lt y then y else x) a

/-- A group of 32 FP32 values in INT4 KV (R118, R120). -/
def quantInt4 (xs : List Num) : KvGroup :=
  if !(xs.all Num.isFinite) then { scale := 0x7E00, minimum := 0x7E00, codes := xs.map fun _ => 0 }
  else
    match xs with
    | [] => { scale := 0, minimum := 0, codes := [] }
    | x :: r =>
      let lo := leastNum x r
      let hi := greatestNum x r
      match lo, hi with
      | .fin nl ml el, .fin .. =>
        if !(lo.lt hi) then
          { scale := 0, minimum := toFp16 .nearest nl ml 1 el, codes := xs.map fun _ => 0 }
        else
          let mn := toFp16 .downward nl ml 1 el
          let mv := fp16.decode mn
          match hi.add mv.neg with
          | .fin _ md ed =>
            let s := toFp16 .upward false md 15 ed
            let sv := fp16.decode s
            { scale := s, minimum := mn,
              codes := xs.map fun v =>
                (max 0 (min 15 (quotInt (v.add mv.neg) sv))).toNat }
          | _ => { scale := 0, minimum := mn, codes := xs.map fun _ => 0 }
      | _, _ => { scale := 0x7E00, minimum := 0x7E00, codes := xs.map fun _ => 0 }

/-- A KV element: exact for INT8, one rounding to FP32 for INT4 (R119). -/
def kvValue (int4 : Bool) (scale minimum code : Nat) : Num :=
  let s := fp16.decode scale
  if int4 then
    match s with
    | .fin _ 0 _ => fp16.decode minimum
    | _ => f32 (toF32 ((fp16.decode minimum).add ((Num.ofInt code 0).mul s)))
  else
    match s with
    | .fin _ 0 _ => Num.zero
    | _ => (Num.ofInt (signedOf code 8) 0).mul s

/-- The scaled partial of a KV group with activations (R119). -/
def kvPartial (int4 : Bool) (scale minimum : Nat) (codes : List Nat) (acts : List Num) : Word32 :=
  let s := fp16.decode scale
  if int4 then
    let q := Num.sum (List.zipWith (fun (c : Nat) a => (Num.ofInt (Int.ofNat c) 0).mul a) codes acts)
    let a := Num.sum acts
    f32Add (toF32 (s.mul q)) (toF32 ((fp16.decode minimum).mul a))
  else
    let q := Num.sum (List.zipWith (fun c a => (Num.ofInt (signedOf c 8) 0).mul a) codes acts)
    toF32 ((f32 (toF32 q)).mul s)

/-- A vector split into groups of `n`. -/
def groupsOf {α : Type} (n : Nat) : Nat → List α → List (List α)
  | 0, _ => []
  | k + 1, l => if l.isEmpty then [] else l.take n :: groupsOf n k (l.drop n)

end Sys2Proof.Machine
end

