-- ==== Sys2Proof/Machine/Sampler.lean ====
section
/-! DEFINITION. The sampling unit (chapter 9): the pipeline of Table 09-1, draws from the spring,
acceptance, stop conditions and the choice of drafts. -/

namespace Sys2Proof.Machine

/-! ## The pipeline (Table 09-1) -/

/-- What a row's pipeline needs beside the logits. -/
structure SampleSettings where
  req : RequestCopy
  allowed : Option (List Byte)
  deriving DecidableEq, Repr

/-- Logits with the number of changes counted in the non-finite logit counter. -/
abbrev Logits := List Word32 × Nat

/-- Stage 1: a NaN becomes -infinity and is counted (R123). -/
def stageArrival (l : List Word32) : Logits :=
  (l.map fun z => if f32IsNan z then f32NegInf else z, (l.filter f32IsNan).length)

/-- Bit `i` of the allowed-token bitmap. -/
def allowedBit (m : List Byte) (i : Nat) : Bool := bitOf (m.getD (i / 8) 0).toNat (i % 8)

/-- Stage 2: tokens whose bit is 0 become -infinity. -/
def stageAllowed (m : Option (List Byte)) (l : List Word32) : List Word32 :=
  match m with
  | none => l
  | some m => l.mapIdx fun i z => if allowedBit m i then z else f32NegInf

/-- Stage 3: each bias is added to its token's logit, in table order. -/
def stageBias (bias : List (Nat × Word32)) (l : List Word32) : List Word32 :=
  bias.foldl (fun l b => listSet l b.1 (f32Add (l.getD b.1 0) b.2)) l

/-- How often a token stands in a window. -/
def occurrences (w : List Nat) (t : Nat) : Nat := (w.filter fun x => x == t).length

/-- Stage 4: the repetition penalty. -/
def stageRepetition (rho : Word32) (w : List Nat) (l : List Word32) : List Word32 :=
  l.mapIdx fun i z =>
    if occurrences w i = 0 then z else if f32Lt f32Zero z then f32Div z rho else f32Mul z rho

/-- Stage 5: frequency and presence, for every token. -/
def stagePresence (phi pi : Word32) (w : List Nat) (l : List Word32) : List Word32 :=
  l.mapIdx fun i z =>
    let c := occurrences w i
    f32Sub (f32Sub z (f32Mul phi (f32OfNat c))) (f32Mul pi (if c = 0 then f32Zero else f32One))

/-- Stage 6: NaN to -infinity, +infinity to the largest finite value, each change counted. -/
def stageClean (l : List Word32) : Logits :=
  (l.map fun z => if f32IsNan z then f32NegInf else if z = f32PosInf then f32Max else z,
    (l.filter fun z => f32IsNan z || z == f32PosInf).length)

/-- Stages 1 to 3, from which drafts are ranked (R222). -/
def stages123 (st : SampleSettings) (l : List Word32) : Logits :=
  let a := stageArrival l
  (stageBias st.req.bias (stageAllowed st.allowed a.1), a.2)

/-- Stages 1 to 6 with the penalty window of the row. -/
def stages16 (st : SampleSettings) (w : List Nat) (l : List Word32) : Logits :=
  let a := stages123 st l
  let b := stagePresence (rFrequency st.req.block) (rPresence st.req.block) w
    (stageRepetition (rRepetition st.req.block) w a.1)
  let c := stageClean b
  (c.1, a.2 + c.2)

/-- Stage 8: division by the temperature, clamped to the finite range, each clamp counted. -/
def stageTemperature (t : Word32) (l : List Word32) : Logits :=
  let q := l.map fun z => (z, f32Div z t)
  (q.map fun p =>
      if f32IsFinite p.1 && p.2 == f32PosInf then f32Max
      else if f32IsFinite p.1 && p.2 == f32NegInf then f32Min
      else p.2,
    (q.filter fun p => f32IsFinite p.1 && (p.2 == f32PosInf || p.2 == f32NegInf)).length)

/-- Rank order: descending logit, ties to the lower id. -/
def rankLt (a b : Nat × Word32) : Bool :=
  f32Lt b.2 a.2 || (!(f32Lt a.2 b.2) && decide (a.1 < b.1))

/-- The tokens of a row in rank order. -/
def ranked (l : List Word32) : List (Nat × Word32) := sortBy rankLt (l.mapIdx fun i z => (i, z))

/-- The sum of weights, one at a time in rank order. -/
def weightSum (w : List (Nat × Word32)) : Word32 := w.foldl (fun a p => f32Add a p.2) f32Zero

/-- The shortest prefix whose running sum reaches a bound. -/
def prefixReaching (bound : Word32) : Word32 → List (Nat × Word32) → List (Nat × Word32)
  | _, [] => []
  | a, p :: r =>
    let a := f32Add a p.2
    if f32Lt a bound then p :: prefixReaching bound a r else [p]

/-- Stages 8 to 12: the survivors in rank order with their weights, and the changes counted. -/
def stages8to12 (b : BlockWord) (l : List Word32) : List (Nat × Word32) × Nat :=
  let t := stageTemperature (rTemperature b) l
  let order := ranked t.1
  let topP := rTopP b
  let minP := rMinP b
  let kept :=
    if rTopK b ≠ 0 then order.take (rTopK b)
    else if f32Lt topP f32One || f32Lt f32Zero minP then order.take 256
    else order.filter fun p => f32IsFinite p.2
  let zmax := (kept.headD (0, f32Zero)).2
  let w := kept.map fun p => (p.1, veExp (f32Sub p.2 zmax))
  let w := if f32Lt topP f32One then prefixReaching (f32Mul topP (weightSum w)) f32Zero w else w
  let w := if f32Lt f32Zero minP then w.filter fun p => !(f32Lt p.2 minP) else w
  (w, t.2)

/-- No token has a finite logit after stage 6 (R227). -/
def noCandidate (l : List Word32) : Bool := !(l.any f32IsFinite)

/-- The target of a greedy row: the greatest logit, ties to the lower id (stage 7). -/
def target (l : List Word32) : Nat :=
  ((leastBy rankLt (l.mapIdx fun i z => (i, z))).map Prod.fst).getD 0

/-! ## The spring (R229, R230) -/

/-- The output word 0 of a draw: test, row, committed length and step number under a seed. -/
def drawWord (seed : Word64) (test row committed stepNo : Nat) : Nat :=
  (philox [test % 16 + 16 * (row % 16), committed % 2 ^ 32, stepNo % 2 ^ 32, 0]
    (bitsOf seed.toNat 0 32) (bitsOf seed.toNat 32 32)).headD 0

/-- The uniform value of a draw, exact in FP32. -/
def uniform (x : Nat) : Word32 := toF32 (.fin false (x / 256) (-24))

def draw (seed : Word64) (test row committed stepNo : Nat) : Word32 :=
  uniform (drawWord seed test row committed stepNo)

/-- A weighted pick (R231): the first survivor whose running sum exceeds u * S; otherwise the last with
a non-zero weight; otherwise the first. -/
def pickFrom (bound : Word32) : Word32 → List (Nat × Word32) → Option Nat
  | _, [] => none
  | a, p :: r =>
    let a := f32Add a p.2
    if f32Lt bound a then some p.1 else pickFrom bound a r

def weightedPick (u : Word32) (w : List (Nat × Word32)) : Nat :=
  match pickFrom (f32Mul u (weightSum w)) f32Zero w with
  | some t => t
  | none =>
    match (w.filter fun p => f32Lt f32Zero p.2).getLast? with
    | some p => p.1
    | none => (w.headD (0, f32Zero)).1

/-! ## Acceptance (R232) -/

/-- What the walk of a tree knows: the shape's parents and ranks, the drafted tokens of the verified
nodes, the row's logits, the tokens up to the base row's position, and the draws' numbers. -/
structure Walk where
  settings : SampleSettings
  seed : Word64
  committed : Nat
  stepNo : Nat
  parents : List Nat
  ranks : List Nat
  drafts : List Nat
  known : List Nat
  logits : List (List Word32)
  deriving DecidableEq, Repr

/-- The path so far: accepted tokens, the drafts accepted, the row reached, how it ended, and the
non-finite changes counted. -/
structure Walked where
  tokens : List Nat
  drafted : Nat
  noCandidate : Bool
  nonfinite : Nat
  row : Nat
  deriving DecidableEq, Repr

/-- The last 1,024 tokens (the penalty window, Table 09-1). -/
def lastTokens (l : List Nat) : List Nat := l.drop (l.length - 1024)

/-- The rows of the verified nodes that hang from a row, by candidate rank, then node number. -/
def childRows (k : Walk) (row : Nat) : List Nat :=
  let nodes := (List.range k.drafts.length).filter fun i =>
    let p := k.parents.getD i 0xFF
    if p = 0xFF then row == 0 else row == p + 1
  (sortBy (fun a b => decide (k.ranks.getD a 0 < k.ranks.getD b 0)) nodes).map (· + 1)

/-- Tests the children of a row one after another (R232): the child taken, or the weights left. -/
def tryKids (k : Walk) (row : Nat) :
    List Nat → Nat → List (Nat × Word32) → Option (Nat × Nat) × List (Nat × Word32)
  | [], _, w => (none, w)
  | kid :: r, t, w =>
    let tok := k.drafts.getD (kid - 1) 0
    let u := draw k.seed t row k.committed k.stepNo
    let wt := ((w.find? fun p => p.1 == tok).map Prod.snd).getD f32Zero
    if f32Lt (f32Mul u (weightSum w)) wt then (some (kid, tok), w)
    else tryKids k row r (t + 1) (w.map fun p => if p.1 == tok then (p.1, f32Zero) else p)

/-- The walk of a sequence's verified tree (R232). -/
def walkTree (k : Walk) : Nat → Walked → Walked
  | 0, d => d
  | fuel + 1, d =>
    let l := stages16 k.settings (lastTokens (k.known ++ d.tokens)) (k.logits.getD d.row [])
    let d := { d with nonfinite := d.nonfinite + l.2 }
    if noCandidate l.1 then { d with noCandidate := true }
    else if f32IsZero (rTemperature k.settings.req.block) then
      let goal := target l.1
      match (childRows k d.row).find? fun c => k.drafts.getD (c - 1) 0 == goal with
      | some c => walkTree k fuel { d with tokens := d.tokens ++ [goal], drafted := d.drafted + 1, row := c }
      | none => { d with tokens := d.tokens ++ [goal] }
    else
      let w := stages8to12 k.settings.req.block l.1
      let d := { d with nonfinite := d.nonfinite + w.2 }
      match tryKids k d.row (childRows k d.row) 0 w.1 with
      | (some (c, tok), _) =>
        walkTree k fuel { d with tokens := d.tokens ++ [tok], drafted := d.drafted + 1, row := c }
      | (none, w) =>
        { d with tokens := d.tokens ++ [weightedPick (draw k.seed 15 d.row k.committed k.stepNo) w] }

/-- The walk from the base row. -/
def accept (k : Walk) : Walked :=
  walkTree k 17 { tokens := [], drafted := 0, noCandidate := false, nonfinite := 0, row := 0 }

/-! ## Drafts (R222) -/

/-- A total order for drafts: descending, ties to the lower id, NaN as -infinity. -/
def draftRanked (l : List Word32) : List (Nat × Word32) :=
  ranked (l.map fun z => if f32IsNan z then f32NegInf else z)

/-- The token a node of a rank takes from its source logits after stages 1 to 3. -/
def draftToken (st : SampleSettings) (l : List Word32) (rank : Nat) : Nat :=
  let order := draftRanked (stages123 st l).1
  let finite := order.filter fun p => f32IsFinite p.2
  if finite.isEmpty then (order.headD (0, f32Zero)).1
  else if finite.length ≤ rank then (finite.getLastD (0, f32Zero)).1
  else (order.getD rank (0, f32Zero)).1

/-! ## Stop conditions (R238, Table 09-3) -/

/-- The index of the first element equal to a token. -/
def indexOf (l : List Nat) (t : Nat) : Option Nat := l.findIdx? fun x => x == t

/-- The stop sequence a token completes: the token is its last, its earlier ones stand just before;
the lowest record. -/
def stopRecord (stops : List (List Nat)) (before : List Nat) (t : Nat) : Option Nat :=
  stops.findIdx? fun r =>
    let seen := before ++ [t]
    !r.isEmpty && decide (r.length ≤ seen.length) && (seen.drop (seen.length - r.length) == r)

/-- End reasons of Table 09-4. -/
abbrev erEndToken : Nat := 1
abbrev erStopSequence : Nat := 2
abbrev erMaxTokens : Nat := 3
abbrev erContextLimit : Nat := 4
abbrev erNoCandidate : Nat := 5
abbrev erCancelled : Nat := 6
abbrev erDeadlineMissed : Nat := 7
abbrev erEvicted : Nat := 8
abbrev erModelUnavailable : Nat := 9
abbrev erFaulted : Nat := 10
abbrev erBadDescriptor : Nat := 11
abbrev erAccess : Nat := 12

/-- The first check of Table 09-3 that a token meets: end reason and stop index. `known` are the tokens
before it, `generated` the count with it, `position` its position. -/
def stopCheck (req : RequestCopy) (known : List Nat) (t generated position : Nat) : Option (Nat × Nat) :=
  match indexOf (rEndTokens req.block) t with
  | some i => some (erEndToken, i)
  | none =>
    match stopRecord req.stops known t with
    | some i => some (erStopSequence, i)
    | none =>
      if rMaxNew req.block ≤ generated then some (erMaxTokens, 0)
      else if position = 1048575 then some (erContextLimit, 0)
      else none

/-- The accepted tokens up to the one that ends the request, with the end it meets (R238). -/
def cutAtStop (req : RequestCopy) :
    List Nat → List Nat → Nat → Nat → List Nat × Option (Nat × Nat)
  | [], _, _, _ => ([], none)
  | t :: r, known, generated, position =>
    match stopCheck req known t generated position with
    | some e => ([t], some e)
    | none =>
      let x := cutAtStop req r (known ++ [t]) (generated + 1) (position + 1)
      (t :: x.1, x.2)

/-! ## Adaptive draft length (R240) -/

/-- The greatest depth of the first `n` nodes of a shape (depth 1 hangs from the base row). -/
def nodeDepth (parents : List Nat) : Nat → Nat → Nat
  | 0, _ => 0
  | fuel + 1, i =>
    let p := parents.getD i 0xFF
    if p = 0xFF then 1 else if p < i then nodeDepth parents fuel p + 1 else 1

def shapeDepth (parents : List Nat) (n : Nat) : Nat :=
  maxOf ((List.range n).map fun i => nodeDepth parents 16 i)

end Sys2Proof.Machine
end

