-- ==== Sys2Proof/Machine/Sequences.lean ====
section
/-! DEFINITION. What happens to sequences in every row (chapter 3): ending, draining, freeing, holding
and returning, deadlines, budgets, the binding of prefix handles, the end of a model's residence. -/

namespace Sys2Proof.Machine

/-! ## Token-ring entries (Table 09-4) -/

/-- A token-ring entry without its phase bit. -/
def ringEntry (token position flags index reason stop stepNo : Nat) : BitVec 128 :=
  BitVec.ofNat 128 (token % 2 ^ 32 + position % 2 ^ 32 * 2 ^ 32 + flags % 256 * 2 ^ 64 +
    index % 256 * 2 ^ 72 + reason % 256 * 2 ^ 80 + stop % 256 * 2 ^ 88 + stepNo % 65536 * 2 ^ 96)

/-- The end entry of a request: 0xFFFF_FFFF, the final committed length, reason and stop index. -/
def endEntry (c : Ctx) (reason stop : Nat) : BitVec 128 :=
  ringEntry 0xFFFFFFFF c.committed 1 0 reason stop c.stepNo

/-- The end entry queued for row 3. -/
def queueEnd (i reason stop : Nat) (s : State) : State :=
  { s with ringOut := s.ringOut ++ [(i, endEntry (s.ctx i) reason stop)] }

/-! ## FINAL completions (Tables 02-5 and 02-8) -/

/-- The result field of a FINAL completion. -/
def finalResult (c : Ctx) : BitVec 128 :=
  BitVec.ofNat 128 (rTag c.req.block + c.delivered % 2 ^ 32 * 2 ^ 64 + c.processed % 2 ^ 32 * 2 ^ 96)

/-- The FINAL completion of a sequence, to be written in row 3. -/
def queueFinal (i status detail : Nat) (s : State) : State :=
  let c := s.ctx i
  { s with outbox := s.outbox ++ [{ tenant := c.tenant, qp := c.qp, index := c.opened, cmdId := c.cmdId, status := status, detail := detail, handle := handleOf i c, final := true, late := c.late, noIrq := c.noIrq, result := finalResult c }] }

/-- A FINAL completion not yet written reports the tokens delivered in the row 3 that writes it (R55, R100,
Table 02-8). -/
def refreshFinal (i : Nat) (s : State) : State :=
  let c := s.ctx i
  { s with outbox := s.outbox.map fun x =>
      if x.final ∧ x.handle = handleOf i c ∧ x.tenant = c.tenant then { x with result := finalResult c, late := c.late } else x }

/-! ## Freeing (R51, R60) -/

/-- A context returns to FREE: its pages, history and journal are released, its incarnation rises. The
copy of the request stays until the context is taken again, for the entries row 3 still writes. -/
def freeCtx (i : Nat) (s : State) : State :=
  let s := releasePages i s
  let s := { s with piecesUsed := s.piecesUsed - (s.ctx i).pieces }
  modCtx i (fun c =>
    { c with state := .free, incarnation := (c.incarnation + 1) % 65536, hist := [], journal := [], replay := none, drain := none, pieces := 0, drafts := [], freedAt := s.boundary, sidingMark := false }) s

/-- Every page of a context is released, its token history kept (Table 03-1). -/
def emptyCtx (i : Nat) (s : State) : State :=
  let s := releasePages i s
  let p := (s.ctx i).pieces
  modCtx i (fun c => { c with pieces := min 1 c.pieces }) { s with piecesUsed := s.piecesUsed - (p - min 1 p) }

/-! ## Draining (R59, Table 03-3) -/

/-- A live sequence enters DRAINING with what its end will report. -/
def drainSeq (i : Nat) (d : Drain) (s : State) : State :=
  if (s.ctx i).state.live then modCtx i (fun c => { c with state := .draining, drain := some d }) s else s

/-- A drain without a descriptor behind it. -/
def drainFor (status detail reason : Nat) : Drain :=
  { status := status, detail := detail, reason := reason, toFree := false, silent := false }

/-- The end reason of a FINAL status that the LT9 causes (Table 09-4). -/
def reasonOf (status : Nat) : Nat :=
  if status = stCancelled then erCancelled
  else if status = stDeadlineMissed then erDeadlineMissed
  else if status = stEvicted then erEvicted
  else if status = stModelUnavailable then erModelUnavailable
  else if status = stFaulted then erFaulted
  else if status = stBadDescriptor then erBadDescriptor
  else erAccess

/-- The step's output for a sequence is dropped (R59): its results, and the length pointer's advance. -/
def dropOutput (i : Nat) (s : State) : State :=
  let s := { s with step := s.step.map fun x => { x with results := x.results.filter fun r => r.ctx != i } }
  modCtx i (fun c =>
    let n := min c.before c.committed
    { c with committed := n, kvLen := min c.kvLen n, hist := c.hist.take (n + 1) }) s

/-- Part 3 of the pass for one DRAINING sequence (R32, R59): the output dropped, the end entry and the
FINAL completion queued unless nothing is written for it, DONE or FREE. -/
def finishDraining (i : Nat) (s : State) : State :=
  match (s.ctx i).drain with
  | none => s
  | some d =>
    let s := dropOutput i s
    let s := if d.silent then s else queueFinal i d.status d.detail (queueEnd i d.reason 0 s)
    if d.toFree then freeCtx i s
    else modCtx i (fun c => { c with state := .done, drain := none, drafts := [] }) s

/-- A live or DRAINING sequence ends at once in DONE or FAULTED, its pages released (Table 03-3). -/
def endSeq (state : SeqState) (status : Nat) (i : Nat) (s : State) : State :=
  let c := s.ctx i
  let d := c.drain.getD (drainFor status 0 (reasonOf status))
  let s := if d.silent then s
    else queueFinal i status 0 (queueEnd i (reasonOf status) 0 s)
  if d.toFree then freeCtx i s
  else emptyCtx i (modCtx i (fun c => { c with state := state, drain := none, drafts := [] }) s)

/-! ## Deadlines (R68, R69) -/

/-- The next deadline as a stamp; none where there is none of its kind. -/
def nextDeadline (c : Ctx) : Option Nat :=
  let b := c.req.block
  if !c.started then
    if rFirstDeadline b = 0 ∨ c.deadlineGone then none else some (ofNs (rFirstDeadline b))
  else if rInterToken b = 0 then none
  else some (c.lastDelivery + ofNs (rInterToken b))

/-- The re-base at the boundary at which a sequence leaves PARKED or DORMANT (R68). -/
def rebase (stamp : Nat) (c : Ctx) : Ctx :=
  if c.started then { c with lastDelivery := stamp }
  else if rFirstDeadline c.req.block ≠ 0 ∧ ofNs (rFirstDeadline c.req.block) < stamp then
    { c with deadlineGone := true }
  else c

/-! ## Budgets (R70) -/

/-- The tenant's level is exhausted. -/
def budgetGone (s : State) (t : Nat) : Bool :=
  let x := s.tenant t
  x.limited && decide (x.budget ≤ 0)

/-- Capacity: tokens per period plus burst. -/
def capacity (p : TenantParams) : Int := (p.perPeriod + p.burst : Nat)

/-- The next refill time in ns, 0 where there is none (Table 18-7). -/
def nextRefill (x : Tenant) : Nat :=
  match x.params with
  | some p => if p.enabled ∧ p.perPeriod ≠ 0 then nsOf x.periodStart + (x.refills + 1) * p.periodMs * 1000000 else 0
  | none => 0

/-- Tokens left as QUERY of kind 1 reports them. -/
def tokensLeft (x : Tenant) : Nat :=
  match x.params with
  | some p => if !p.enabled then 0 else if p.perPeriod = 0 then 0x7FFFFFFFFFFFFFFF else x.budget.toNat
  | none => 0

/-! ## Holding and returning -/

/-- A working sequence is held: its prior state is recorded (Table 03-1). -/
def holdSeq (state : SeqState) (c : Ctx) : Ctx :=
  if c.state.working then { c with prior := c.state, state := state }
  else { c with state := state }

/-- A held sequence returns to its prior state. -/
def returnSeq (c : Ctx) : Ctx := { c with state := c.prior, sidingMark := false }

/-! ## Prefix handles (R204 to R207) -/

/-- The binding a tenant means by a value (R205). -/
def bindingFor (s : State) (t : Nat) (v : Word64) : Option PrefixBinding :=
  match s.bindings.find? fun b => b.tenant == t && b.value == v with
  | some b => some b
  | none => s.bindings.find? fun b => b.tenant == 0 && b.value == v

/-- An IMPORT_PREFIX of a binding. -/
def importOf (b : PrefixBinding) (j : ImportJob) : Bool := j.boundAs == b.tenant && j.value == b.value

/-- A binding is removed: its references and pieces go, imports of it complete UNKNOWN_HANDLE and the
held flags they set are cleared (R206, R207). -/
def unbind (b : PrefixBinding) (s : State) : State :=
  let s := { s with bindings := s.bindings.filter fun x => !(x.tenant == b.tenant && x.value == b.value), piecesUsed := s.piecesUsed - b.pieces }
  let s := forEach b.lgns dropRef s
  let gone := s.imports.filter (importOf b)
  let s := { s with imports := s.imports.filter fun j => !(importOf b j) }
  forEach gone (fun j s =>
    completeRun j.run stUnknownHandle 0 0 0
      (forEach j.lgns (modGroup · (fun g => { g with held := none })) s)) s

/-- The least recently used binding of a tenant. -/
def oldestBinding (s : State) (t : Nat) : Option PrefixBinding :=
  leastBy (fun a b => decide (a.used < b.used)) (s.bindings.filter fun b => b.tenant == t)

/-- The next recency count. -/
def nextUse (s : State) : State := { s with useCount := s.useCount + 1 }

/-- A partial page shared by a handle: its history chunk is queued (R204). -/
def queueHistory (g : Nat) (tokens : List Nat) (s : State) : State :=
  if (s.group g).history then s
  else
    addTransfer (.history g)
      (modGroup g (fun x => { x with history := true, tokens := tokens }) { s with historyUsed := s.historyUsed + 1 })

/-- Binds a handle to a sequence's leading groups (R204); none while no piece is free. -/
def bindPrefix (t : Nat) (v : Word64) (i n : Nat) (s : State) : Option State :=
  let c := s.ctx i
  let k := ceilDiv n 256
  let lgns := (List.range k).filterMap (pageAt c)
  let pieces := piecesFor k
  let s := match s.bindings.find? fun b => b.tenant == t && b.value == v with
    | some b => unbind b s
    | none =>
      if 256 ≤ (s.bindings.filter fun b => b.tenant == t).length then
        match oldestBinding s t with
        | some b => unbind b s
        | none => s
      else s
  if freePieces s < pieces then none
  else
    let s := nextUse (forEach lgns addRef s)
    let s := { s with bindings := s.bindings ++ [{ tenant := t, value := v, slot := c.slot, adapter := c.adapter, length := n, lgns := lgns, tokens := c.hist.take n, used := s.useCount, pieces := pieces }], piecesUsed := s.piecesUsed + pieces }
    some (if n % 256 = 0 then s
      else match pageAt c (n / 256) with
        | some g => queueHistory g (pageTokens c (n / 256)) s
        | none => s)

/-- The token at a position of a sequence: known, appended, or in its prompt buffer (R58, R134, R218). -/
def tokenAt (s : State) (c : Ctx) (p : Nat) : Nat :=
  match c.hist[p]? with
  | some t => t
  | none =>
    if c.appendAt ≤ p then c.appended.getD (p - c.appendAt) 0
    else leNat (hostBytes s.host (s.pasid c.tenant) (rPrompt c.req.block + 4 * (p - c.promptStart)) 4)

/-- Every page of the first `n` positions is named and valid. -/
def pagesReady (s : State) (i n : Nat) : Bool :=
  let c := s.ctx i
  decide (n ≤ c.kvLen) && (List.range (ceilDiv n 256)).all fun k => (pageAt c k).isSome

/-- EXPORT_PREFIXes that waited and can bind now complete OK (R61, R204). -/
def finishExports (s : State) : State :=
  let jobs := s.exports
  forEach jobs (fun j s =>
    if pagesReady s j.ctx j.length then
      match bindPrefix j.run.tenant j.value j.ctx j.length s with
      | some s => completeRun j.run stOk 0 j.handle 0 { s with exports := s.exports.filter fun x => decide (x ≠ j) }
      | none => s
    else s) s

/-! ## Prefix nodes (R207 to R210) -/

/-- A node with its children is removed, children first. -/
def removeNodes (p : PrefixNode → Bool) (s : State) : State :=
  let gone := s.nodes.filter p
  forEach gone (fun n s => dropRef n.lgn s) { s with nodes := s.nodes.filter fun n => !(p n) }

/-- The little-endian bytes of tokens. -/
def tokenBytes' (l : List Nat) : List Byte := (l.map fun t => leBytes t 4).flatten

/-- Chain values of full pages in order (R208). -/
def chainFrom (c : BitVec 128) : List (List Nat) → List (BitVec 128)
  | [] => []
  | p :: r =>
    let v := BitVec.ofNat 128 (leNat ((sha384Bytes (leBytes c.toNat 16 ++ tokenBytes' p)).take 16))
    v :: chainFrom v r

def chainValues (hash : BitVec 384) (adapter tenant : Nat) : List (List Nat) → List (BitVec 128)
  | [] => []
  | p :: r =>
    let v := BitVec.ofNat 128 (leNat ((sha384Bytes
      (leBytes hash.toNat 48 ++ leBytes adapter 2 ++ leBytes tenant 1 ++ [0] ++ tokenBytes' p)).take 16))
    v :: chainFrom v r

/-- The node of a tenant, model slot and chain value. -/
def nodeFor (s : State) (t slot : Nat) (v : BitVec 128) : Option PrefixNode :=
  s.nodes.find? fun n => n.tenant == t && n.slot == slot && n.chain == v

/-- The leading chain values that are nodes, stopping at the first miss. -/
def matchedNodes (s : State) (t slot : Nat) : List (BitVec 128) → List PrefixNode
  | [] => []
  | v :: r =>
    match nodeFor s t slot v with
    | some n => n :: matchedNodes s t slot r
    | none => []

/-! ## The end of a model's residence (R87, R100, R207, R285) -/

/-- The slot that holds the bound draft of a model slot (R86): READY, the linked hash, an equal
vocabulary. -/
def draftSlot (s : State) (k : Nat) : Option Nat :=
  match (s.slot k).package with
  | none => none
  | some p =>
    if p.draftSource ≠ 2 then none
    else
      (List.range 16).find? fun j =>
        decide ((s.slot j).state = .ready) &&
          (((s.slot j).package.map fun d => d.hash == p.linkedHash && d.vocabulary == p.vocabulary).getD false)

/-- Draft-model page tables that name groups of a slot's pool are released (R87). -/
def releaseDrafts (k : Nat) (s : State) : State :=
  forEach (fmKeys s.ctxs) (fun i s =>
    let gs := (s.ctx i).draftPages.filterMap id
    if gs.any fun g => (s.group g).slot == k then
      modCtx i (fun c => { c with draftPages := [], draftLen := 0 }) (forEach gs dropRef s)
    else s) s

/-- Jobs that wait on a sequence of a slot end (R61, R302): EXPORT_PREFIXes and REPLAYs complete
MODEL_UNAVAILABLE. -/
def endJobs (k : Nat) (s : State) : State :=
  let gone := s.exports.filter fun j => (s.ctx j.ctx).slot == k
  let s := { s with exports := s.exports.filter fun j => (s.ctx j.ctx).slot != k }
  let s := forEach gone (fun j s => completeRun j.run stModelUnavailable 0 j.handle 0 s) s
  forEach (s.ctxs.filter fun c => c.2.replay.isSome && c.2.slot == k) (fun c s =>
    match c.2.replay with
    | some j =>
      freeCtx c.1 (completeRun { tenant := j.tenant, qp := j.qp, index := j.index, cmdId := j.cmdId, noIrq := j.noIrq, opcode := 0x25 } stModelUnavailable 0 j.handle 0 s)
    | none => s) s

/-- The pages, handles, nodes and draft tables of a slot's pool are released, and the pool is given up
once its groups are gone. -/
def releasePool (k : Nat) (s : State) : State :=
  let s := forEach (s.ctxs.filter fun c => c.2.slot == k && !decide (c.2.state = .free)) (fun c s => emptyCtx c.1 s) s
  let s := forEach (s.bindings.filter fun b => b.slot == k) unbind s
  releaseDrafts k (removeNodes (fun n => n.slot == k) s)

/-- The blocks of a range become UNMAPPED. -/
def unmapRange (first n : Nat) (s : State) : State :=
  forEach ((s.blocks.filter fun b => decide (first ≤ b.1) && decide (b.1 < first + n)).map Prod.fst) unmapBlock s

/-- A slot's package leaves (R100): sequences end, pages and blocks are released, the slot reads EMPTY. -/
def emptyModel (k : Nat) (s : State) : State :=
  let seqs := (s.ctxs.filter fun c => c.2.slot == k && c.2.replay.isNone && (c.2.state.live || decide (c.2.state = .draining))).map Prod.fst
  let x := s.slot k
  let s := endJobs k (forEach seqs (endSeq .done stModelUnavailable) s)
  let s := releasePool k s
  let s := unmapRange x.firstBlock x.blocks s
  modSlot k (fun _ => emptySlot) { s with diversions := s.diversions.filter fun d => d.slot != k }

end Sys2Proof.Machine
end

