-- ==== Sys2Proof/Machine/Depot.lean ====
section
/-! DEFINITION. What leaves the places that go out of service (R182, R190, R191, R365, R366): key/value slots
and blocks of a quad that became plain, groups and copies in retired frames. -/

namespace Sys2Proof.Machine

/-! ## Quads that become plain -/

/-- Every plain quad: quadrant and layer * 256 + quad. -/
def allPlain (s : State) : List (Nat × Nat) :=
  ((List.range 32).map fun k => (plainQuads s (k / 8) (k % 8)).map fun d => (k / 8, k % 8 * 256 + d)).flatten

/-- The slot numbers of a frame set on a quad of a quadrant (R189). -/
def setSlotsOn (p : Pool) (f : Nat) (x : Nat × Nat) : List Nat :=
  (slotOrder p).filterMap fun h =>
    let y := slotPlace p f h.1 h.2
    if y.1 = x.1 ∧ y.2.1 = x.2 then some y.2.2 else none

/-- The slots of a frame set in a quadrant on quads that are not plain. -/
def setSlotsOff (p : Pool) (plain : List (Nat × Nat)) (f q : Nat) : List (Nat × Nat) :=
  (slotOrder p).filterMap fun h =>
    let y := slotPlace p f h.1 h.2
    if y.1 = q ∧ !(plain.contains (q, y.2.1)) then some (y.2.1, y.2.2) else none

/-- The slots of a quad that the extents of a pool give it. -/
def quadSlots (p : Pool) (q : Nat) : List Nat := List.range ((p.extents.getD q []).length * slotsPerBlock p)

/-- Free frame sets taken, highest first, until their slots suffice for `need` (log 24). -/
def takeSpareSets (p : Pool) (plain : List (Nat × Nat)) (q need : Nat) : List Nat → List Nat × List (Nat × Nat)
  | [] => ([], [])
  | f :: r =>
    if need = 0 then ([], [])
    else
      let l := setSlotsOff p plain f q
      let x := takeSpareSets p plain q (need - l.length) r
      (f :: x.1, l ++ x.2)

/-- The frame sets of a pool that hold a group's data or wait to be freed. -/
def occupiedSets (s : State) (k : Nat) : List Nat :=
  ((s.groups.filter fun g => g.2.slot == k && (g.2.residence == .t0 || g.2.residence == .spilling || g.2.residence == .prefetching || g.2.residence == .grace)).map fun g => g.2.frameSet) ++
    s.grace.filterMap fun g => match g.2 with
      | .frameSet j f => if j = k then some f else none
      | _ => none

/-! ## Groups that must leave (R366) -/

/-- A group that must leave its frame set: spilled, else dropped, else its sequences end FAULTED. -/
def forceOut (g : Nat) (s : State) : State :=
  let x := s.group g
  if x.residence ≠ .t0 then s
  else
    match (if x.sealed then startSpill [2, 1] g s else none) with
    | some s => s
    | none =>
      if mayDrop s g then dropGroup g s
      else
        let users := (s.ctxs.filter fun c => decide (c.2.state ≠ .free) && (ctxGroups c.2).contains g).map Prod.fst
        forEach users (fun i s =>
          let c := s.ctx i
          if c.replay.isNone ∧ (c.state.live ∨ c.state = .draining) then endSeq .faulted stFaulted i s else s) s

/-- Frame sets withdrawn for the life of their pool; the groups in them leave (R191, R366). -/
def withdrawSets (k : Nat) (l : List Nat) (s : State) : State :=
  let s := modPool k (fun p => { p with withdrawn := dedup (p.withdrawn ++ l), freeSets := p.freeSets.filter fun f => !(l.contains f) }) s
  forEach ((s.groups.filter fun g => g.2.slot == k && g.2.residence == .t0 && l.contains g.2.frameSet).map Prod.fst) forceOut s

/-! ## Diversion (R191) -/

/-- The slots of one quad of a pool's list are diverted, as far as free sets and the table of 16,384 entries
allow; the others are withdrawn. -/
def divertPool (k : Nat) (x : Nat × Nat) (s : State) : State :=
  match fmFind s.pools k with
  | none => s
  | some p =>
    if p.plain.contains x then s
    else
      let busy := occupiedSets s k
      let slots := quadSlots p x.1
      let room := 16384 - (s.diversions.filter fun d => d.quadrant == x.1).length
      let spare := takeSpareSets p (allPlain s) x.1 (min room slots.length) p.freeSets.reverse
      let pairs := (List.zip slots spare.2).take room
      let occupied := dedup ((busy.map fun f => setSlotsOn p f x).flatten)
      let entries : List Diversion := pairs.map fun y =>
        let free := !(occupied.contains y.1)
        { quadrant := x.1, slot := k, lostQuad := x.2, lostSlot := y.1, toQuad := y.2.1, toSlot := y.2.2, copied := free, active := free }
      let left := slots.filter fun n => !(pairs.any fun y => y.1 == n)
      let s := modPool k (fun p => { p with withdrawn := p.withdrawn ++ spare.1, freeSets := p.freeSets.filter fun f => !(spare.1.contains f) })
        { s with diversions := s.diversions ++ entries }
      let out := (List.range p.usable).filter fun f => (setSlotsOn p f x).any left.contains
      withdrawSets k out s

/-- The blocks that NBU jobs read with a T0 copy on a quad. -/
def blocksOn (s : State) (x : Nat × Nat) : List Nat :=
  (s.blocks.filter fun b => match b.2.t0 with
    | some f => let y := framePlace f
        y.1 == x.1 && y.2.2.2 * 256 + y.2.2.1 == x.2 && nbuReads s b.1
    | none => false).map Prod.fst

/-- A quad became plain (R182, R191, R366): its slots are diverted and the copy is issued. -/
def loseQuad (x : Nat × Nat) (s : State) : State :=
  addTransfer (.diversion x.1 (x.2 / 256) (x.2 % 256)) (forEach (fmKeys s.pools) (fun k => divertPool k x) s)

/-- The quads that row 6 made plain. -/
def loseQuads (before : List (Nat × Nat)) (s : State) : State :=
  forEach ((allPlain s).filter fun x => !(before.contains x)) loseQuad s

/-- A T0 copy leaves a lost quad for a compute quad of its quadrant; with none free it keeps only its
image. -/
def moveBlock (n : Nat) (s : State) : State :=
  let b := s.block n
  match b.t0 with
  | none => s
  | some f =>
    match takeT0 s (f / 98304) true with
    | some f' => releaseLater (.t0Frame f) (modBlock n (fun b => { b with t0 := some f' }) s)
    | none => if b.image.isSome then releaseLater (.t0Frame f) (modBlock n (fun b => { b with t0 := none }) s) else s

/-- The sluice has copied a lost quad's slots and blocks; the entries take force at the next boundary. -/
def copyQuad (q x : Nat) (s : State) : State :=
  let s := dropTransfers (fun t => decide (t = .diversion q (x / 256) (x % 256))) s
  { s with diversions := s.diversions.map fun d => if d.quadrant = q ∧ d.lostQuad = x then { d with copied := true } else d }

/-- The address of a slot of a quad, as R189 gives it without diversion. -/
def rawSlot (p : Pool) (q quad n : Nat) : Nat :=
  let pos := (p.extents.getD q []).getD (n / slotsPerBlock p) 0
  frameAt q pos (quad % 256) (quad / 256) * blockBytes + n % slotsPerBlock p * slotBytes p

/-- Row 4: copied entries take force. -/
def installDiversions (s : State) : State :=
  forEach (s.diversions.filter fun d => d.copied && !d.active) (fun d s =>
    match fmFind s.pools d.slot with
    | none => s
    | some p =>
      { s with bank := memCopy s.bank s.bank (rawSlot p d.quadrant d.lostQuad d.lostSlot) (rawSlot p d.quadrant d.toQuad d.toSlot) (slotBytes p), diversions := s.diversions.map fun e => if e = d then { e with active := true } else e }) s

/-! ## Retired frames still in use (R365) -/

/-- The pools' frame sets with a slot in a T0 frame. -/
def setsInFrame (s : State) (f : Nat) : List (Nat × List Nat) :=
  let x := framePlace f
  s.pools.filterMap fun k =>
    let p := k.2
    match (p.extents.getD x.1 []).findIdx? (· == x.2.1) with
    | some e =>
      if inPlacement p x.1 x.2.2.2 x.2.2.1 then
        let l := (List.range p.usable).filter fun fs => !(p.withdrawn.contains fs) && (setSlotsOn p fs (x.1, x.2.2.2 * 256 + x.2.2.1)).any fun n => n / slotsPerBlock p == e
        if l.isEmpty then none else some (k.1, l)
      else none
    | none => none

/-- Extents in retired T0 positions are withdrawn. -/
def withdrawRetired (s : State) : State :=
  forEach (retiredOf 0 s) (fun f s => forEach (setsInFrame s f) (fun k => withdrawSets k.1 k.2) s) s

/-- Copies still in use in retired frames are moved to fresh ones by the next boundary (R365, class 8; the
moment is log 24's). -/
def vacateBlock (n : Nat) (s : State) : State :=
  let b := s.block n
  let tier := if b.imageT2 then 2 else 1
  let s := match b.t0 with
    | some f =>
      if (retiredOf 0 s).contains f then
        match takeT0 s (f / 98304) (nbuReads s n) with
        | some f' => modBlock n (fun b => { b with t0 := some f' }) s
        | none => s
      else s
    | none => s
  let s := match b.image with
    | some f =>
      if (retiredOf tier s).contains f then
        match takeLower s tier with
        | some f' => modBlock n (fun b => { b with image := some f' }) s
        | none => s
      else s
    | none => s
  match b.mirror with
  | some f =>
    if (retiredOf 2 s).contains f then
      match takeLower s 2 with
      | some f' => modBlock n (fun b => { b with mirror := some f' }) s
      | none => s
    else s
  | none => s

/-- The retired frames of a spill image give way to fresh ones, with their content. -/
def vacateImage (r : Nat) (s : State) : State :=
  match fmFind s.images r with
  | none => s
  | some i =>
    forEach (i.frames.filter (retiredOf i.tier s).contains) (fun f s =>
      match takeLower s i.tier with
      | some f' =>
        { s with bank := memCopy s.bank s.bank (frameCode i.tier f * blockBytes) (frameCode i.tier f' * blockBytes) blockBytes, images := fmModify s.images r i fun i => { i with frames := i.frames.map fun x => if x = f then f' else x } }
      | none => s) s

def vacateFrames (s : State) : State :=
  if s.faults.retiredFrames.isEmpty then s
  else forEach (fmKeys s.images) vacateImage (forEach (fmKeys s.blocks) vacateBlock s)

/-- What row 4 does about places that went out of service. -/
def settleDepot (s : State) : State := vacateFrames (withdrawRetired (installDiversions s))

end Sys2Proof.Machine
end

