-- ==== Sys2Proof/Machine/Weirs.lean ====
section
/-! DEFINITION. The traffic rules of chapter 10: weir buckets (R275, R276, R427) and check units (R272 to
R274, R426). -/

namespace Sys2Proof.Machine

/-! ## Weirs -/

/-- The buckets of a partition (R275). -/
abbrev hostDma : Nat := 0
abbrev migration : Nat := 1
abbrev bulk : Nat := 2

def weirRate (s : State) (w b : Nat) : Nat := s.reg (weirBase w + 0x20 * b) 0 0xFFFFFFFF
def weirBurst (s : State) (w b : Nat) : Nat := s.reg (weirBase w + 0x20 * b + 4) 0 1048576

/-- A bucket; one nothing has touched since reset is full. -/
def State.bucket (s : State) (w b : Nat) : Bucket :=
  fmGet s.buckets (w * 4 + b) { level := (1048576 * 256 : Nat), passed := 0 }

/-- Governed traffic passes a bucket: its size is subtracted piece by piece, so the level does not fall
below -4,096 bytes (R276). -/
def passWeir (w b bytes : Nat) (s : State) : State :=
  let x := s.bucket w b
  { s with buckets := fmSet s.buckets (w * 4 + b) { level := max (x.level - (bytes * 256 : Nat)) (min x.level (-1048576)), passed := (x.passed + bytes) % 2 ^ 64 } }

/-- The bytes that may pass a bucket now: pieces of at most 4,096 bytes start while its level is above 0; an
unlimited bucket lets all pass (R276). -/
def passable (s : State) (w b left : Nat) : Nat :=
  if weirRate s w b = 0xFFFFFFFF then left
  else min left (ceilDiv (s.bucket w b).level.toNat 1048576 * 4096)

/-- What may pass of transfers made one after another, and what is left of them. -/
def passPieces (w b : Nat) : List Nat → State → List Nat × State
  | [], s => ([], s)
  | n :: r, s =>
    let p := passable s w b n
    let s := passWeir w b p s
    if p = n then passPieces w b r s else ((n - p) :: r, s)

/-- Governed transfers begin: what may pass passes, and the rest waits until they ask to go on. -/
def startGoverned (who : Waiter) (w b : Nat) (bytes : List Nat) (s : State) : State :=
  let r := passPieces w b bytes s
  { r.2 with governed := r.2.governed ++ [{ who := who, partition := w, bucket := b, left := r.1 }] }

/-- Governed transfers ask to go on: they may once all their pieces have passed their bucket; until then
they wait among the governed transfers. -/
def govern (who : Waiter) (w b : Nat) (bytes : List Nat) (s : State) : Bool × State :=
  let s := if s.governed.any fun g => decide (g.who = who) then s else startGoverned who w b bytes s
  if s.governed.any fun g => decide (g.who = who ∧ g.left = []) then
    (true, { s with governed := s.governed.filter fun g => decide (g.who ≠ who) })
  else (false, s)

/-- Governed transfers of this origin are under way. -/
def held (s : State) (who : Waiter) : Bool := s.governed.any fun g => decide (g.who = who)

/-- Waiting pieces start, in the order in which their transfers asked. -/
def serveWaiters (s : State) : State :=
  forEach (s.governed.map Governed.who) (fun who s =>
    match s.governed.find? fun g => decide (g.who = who) with
    | none => s
    | some g =>
      let r := passPieces g.partition g.bucket g.left s
      { r.2 with governed := r.2.governed.map fun x => if x.who = who then { x with left := r.1 } else x }) s

/-- One bucket at a slot start (R276, R427): the lesser of level + RATE and BURST * 256; a RATE of
0xFFFF_FFFF is unlimited. -/
def refillBucket (w b : Nat) (s : State) : State :=
  let x := s.bucket w b
  let top : Int := (weirBurst s w b * 256 : Nat)
  let level := if weirRate s w b = 0xFFFFFFFF then top else min (x.level + (weirRate s w b : Nat)) top
  { s with buckets := fmSet s.buckets (w * 4 + b) { x with level := level } }

/-- Every bucket of the 32 partitions. -/
def refillWeirs (s : State) : State :=
  forEach (List.range 32) (fun w s => forEach (List.range 3) (fun b s => refillBucket w b s) s) s

/-! ## Check units -/

/-- The configuration of a unit as the registers latched at the boundary give it. -/
def ckuConfig (s : State) (u : Nat) : Nat :=
  let f (lsb d : Nat) : Nat := s.regL (ckuBase u) lsb d
  f 0 0 + 2 ^ 2 * f 2 1 + 2 ^ 3 * f 3 1 + 2 ^ 4 * f 4 1 + 2 ^ 5 * f 5 0 + 2 ^ 8 * f 8 32 +
    2 ^ 16 * f 16 0 + 2 ^ 24 * f 24 0

def ckuPoint (c : Nat) : Nat := bitsOf c 0 2
def ckuEnabled (c : Nat) : Bool := bitOf c 5
def ckuWidth (c : Nat) : Nat := bitsOf c 8 7
def ckuFilter (c : Nat) : Nat := bitsOf c 16 8
def ckuAll (c : Nat) : Bool := bitOf c 24

def State.cku (s : State) (u : Nat) : Cku := fmGet s.ckus u freshCku

/-- Units 4 to 15 of each quadrant, which the provider configures. -/
def providerUnits : List Nat := (List.range 64).filter fun u => decide (4 ≤ u % 16)

/-- A written configuration comes into force at a boundary and restarts its unit (R426). -/
def armUnits (s : State) : State :=
  forEach (providerUnits.filter fun u => (s.cku u).written) (fun u s =>
    let c := ckuConfig s u
    let init := s.regL (ckuBase u + 0x10) 0 0xFFFFFFFF
    { s with ckus := fmSet s.ckus u { s.cku u with config := c, poly := BitVec.ofNat 64 (s.regL (ckuBase u + 0x08) 0 0x1EDC6F41), init := BitVec.ofNat 64 init, crc := init % 2 ^ ckuWidth c, bytes := 0, written := false } }) s

/-- A unit's filter admits traffic of a point: the filter value the traffic has, none where it belongs to
none. -/
def ckuAdmits (c point : Nat) (filter : Option Nat) : Bool :=
  ckuEnabled c && ckuPoint c == point && (ckuAll c || decide (filter = some (ckuFilter c)))

/-- Bytes pass a snoop point (R273). -/
def snoop (point : Nat) (filter : Option Nat) (bs : List Byte) (s : State) : State :=
  { s with ckus := fmMap s.ckus fun _ x =>
      if ckuAdmits x.config point filter then
        { x with crc := crcBytes (ckuWidth x.config) (x.poly.toNat % 2 ^ ckuWidth x.config) (bitOf x.config 2) x.crc bs, bytes := (x.bytes + bs.length) % 2 ^ 64 }
      else x }

/-- Some unit listens at a point to traffic with a filter value. -/
def heard (s : State) (point : Nat) (filter : Option Nat) : Bool :=
  s.ckus.any fun x => ckuAdmits x.2.config point filter

/-- The plain content of a block as a sluice stream past snoop point 1. -/
def snoopBlock (filter : Option Nat) (n : Nat) (s : State) : State :=
  if heard s 1 filter then snoop 1 filter (memBytes s.mem (n * blockBytes) blockBytes) s else s

/-- Rows of 2 KiB of device-held frames as a sluice stream past snoop point 1. -/
def snoopRows (filter : Option Nat) (rows : List Nat) (s : State) : State :=
  if heard s 1 filter then forEach rows (fun a s => snoop 1 filter (memBytes s.bank a 2048) s) s else s

/-! ## A slot starts (R276, R427) -/

/-- The reads of a lookup are over: their bytes have passed snoop point 0, and the lookup joins the lookup
queue (R95). -/
def joinLookup (l : Lookup) (s : State) : State :=
  let s := snoop 0 (some l.run.tenant) ((l.offsets ++ l.indices).map fun x => leBytes x 4).flatten s
  { s with lookups := s.lookups.map fun x => if x.run = l.run then { x with joined := s.now } else x }

/-- Lookups whose last piece has passed join the queue. -/
def joinServed (s : State) : State :=
  forEach s.lookups (fun l s =>
    let who := Waiter.reads l.run.tenant l.run.qp l.run.index
    match s.governed.find? fun g => decide (g.who = who) with
    | some g => if g.left = [] then joinLookup l { s with governed := s.governed.filter fun g => decide (g.who ≠ who) } else s
    | none => s) s

/-- A slot starts: every bucket is refilled, then waiting pieces start. -/
def weirSlot (s : State) : State := joinServed (serveWaiters (refillWeirs s))

def execWeirRefill (s : State) : Host.Outcome State Fault Refusal :=
  run .weirRefill s (whenAnswering weirSlot)

/-- Row 4: each unit latches its result and its byte count (R274, R426); what the sluice's own units 0
to 3 latch is a free value. -/
def latchUnits (s : State) : State :=
  let r := takeFree s
  let own := (List.range 64).filter fun u => decide (u % 16 < 4)
  let s := forEach own (fun u s =>
    { s with ckus := fmSet s.ckus u { s.cku u with result := (Config.sluiceUnit r.1 u 0).toNat, latched := (Config.sluiceUnit r.1 u 1).toNat } }) r.2
  { s with ckus := fmMap s.ckus fun u x =>
      if u % 16 < 4 then x
      else if ckuEnabled x.config then
        { x with result := crcResult (ckuWidth x.config) (bitOf x.config 3) (bitOf x.config 4) x.crc, latched := x.bytes }
      else { x with result := 0, latched := 0 } }

end Sys2Proof.Machine
end

