-- ==== Sys2Proof/Machine/Descriptors.lean ====
section
/-! DEFINITION. Descriptors on sequences and prefixes taking effect (chapters 2, 3 and 8): checks 8 to 10,
then the effect, as part 1 of the pass makes them (R54). -/

namespace Sys2Proof.Machine

/-! ## Taking a descriptor -/

/-- A descriptor leaves the fetched ones of its queue pair. -/
def consume (d : Fetched) (s : State) : State :=
  modQp d.tenant d.qp (fun x => { x with queue := x.queue.filter fun y => decide (y.index ≠ d.index) }) s

/-- A descriptor takes effect: one that failed a check at fetch completes with that failure; any other
meets checks 8 to 10 and its effect (R35). -/
def takeEffect (f : Fetched → State → State) (d : Fetched) (s : State) : State :=
  let s := consume d s
  match d.early with
  | some e => complete d e.1 e.2 s
  | none => f d s

/-- The live context a descriptor's handle names for its tenant (R34). -/
def namedCtx (s : State) (t h : Nat) : Option Nat :=
  let i := h % 65536
  let c := s.ctx i
  if c.state ≠ .free ∧ c.incarnation = h / 65536 ∧ c.tenant = t ∧ c.replay.isNone then some i else none

/-- On a WORKER or SPARE, opcodes 0x01 to 0x11 complete with ROLE_STALE (R325); QUERY of kind 2 is
exempt. -/
def roleStale (s : State) (d : DescWord) : Bool :=
  (decide (s.junction.role = .worker) || decide (s.junction.role = .spare)) && decide (dOpcode d ≤ 0x11) &&
    !(decide (dOpcode d = 0x11) && decide (dField d 0x10 1 = 2))

/-- A descriptor on a sequence: UNKNOWN_HANDLE, ROLE_STALE, or its effect on the context. -/
def onSeq (f : Nat → Fetched → State → State) (d : Fetched) (s : State) : State :=
  match namedCtx s d.tenant (dHandle d.desc) with
  | none => complete d stUnknownHandle 0 s
  | some i => if roleStale s d.desc then complete d stRoleStale 0 s else f i d s

/-! ## OPEN (R51 to R53, R89, R205, R210, R228) -/

/-- The context that has been FREE longest, ties to the lowest index (R51). -/
def takeCtx (s : State) : Option Nat :=
  let never (i : Nat) : Bool :=
    match fmFind s.ctxs i with
    | none => true
    | some c => decide (c.state = .free) && c.freedAt == 0
  match firstFrom never 0 (min 65536 (s.ctxs.length + 1)) with
  | some i => some i
  | none =>
    (leastBy (fun (a b : Nat × Ctx) => decide (a.2.freedAt < b.2.freedAt))
      (s.ctxs.filter fun c => decide (c.2.state = .free))).map Prod.fst

/-- The home quadrant: the one with the fewest live sequences of the model (R53). -/
def homeFor (s : State) (k : Nat) : Nat :=
  let n (q : Nat) : Nat := (s.ctxsWhere fun c => c.state.live && c.slot == k && c.home == q).length
  (leastBy (fun a b => decide (n a < n b)) (List.range 4)).getD 0

/-- The adapter of a request exists for the tenant and belongs to the slot's package (R89, R285). -/
def adapterOk (s : State) (t k a : Nat) : Bool :=
  if a = 0xFFFF then true
  else
    match fmFind s.adapters a with
    | none => false
    | some x =>
      !x.loading && x.removers.isEmpty && !x.unusable && (x.owner == t || x.owner == 0) &&
        (match x.package, (s.slot k).package with
          | some p, some m => p.linkedHash == m.hash
          | _, _ => true)

/-- The first failure of the checks that compare with the vocabulary (R228). -/
def vocabularyFault (r : RequestCopy) (v : Nat) : Option Nat :=
  if r.bias.any fun e => decide (v ≤ e.1) then some 0x0A0
  else if r.stops.any fun l => l.any fun t => decide (v ≤ t) then some 0x0B0
  else if (rEndTokens r.block).any fun t => decide (v ≤ t) then some 0x0C0
  else none

/-- The adaptive node count's starting value: the shape's node count, at most 15 (R240). -/
def startNodes (p : Package) : Nat := min 15 ((p.draft.map DraftShape.count).getD 0)

/-- The PXD inserts pages of a model: PXD_ENABLE is 1 and it has no recurrent layer (R209). -/
def pxdInserts (s : State) (k : Nat) : Bool :=
  (s.regL 0x44 0 1 == 1) && (((fmFind s.pools k).map fun p => !p.recurrent).getD false)

/-- A new sequence in a context (R51 to R53, R205, R210). -/
def admitSequence (d : Fetched) (r : RequestCopy) (allowed : Option (List Byte)) (p : Package)
    (b : Option PrefixBinding) (i : Nat) (s : State) : State :=
  let k := rSlot r.block
  let n := (b.map PrefixBinding.length).getD 0
  let lgns := (b.map PrefixBinding.lgns).getD []
  let home := homeFor s k
  let x := takeFree s
  let seed := if rSeedGiven r.block then BitVec.ofNat 64 (rSeed r.block) else Config.random64 x.1
  let s := if rSeedGiven r.block then s else x.2
  let pieces := min (freePieces s) (max 1 (piecesFor lgns.length))
  let inc := (s.ctx i).incarnation
  let c : Ctx :=
    { freshCtx with
      state := .admitted, tenant := d.tenant, qp := d.qp, incarnation := inc, home := home, slot := k, model := p.hash, adapter := rAdapter r.block, cls := rClass r.block, req := r, blockAddr := dField d.desc 0x10 8, allowed := allowed, cmdId := dCmdId d.desc, opened := d.index, noIrq := dNoIrq d.desc, seed := seed, committed := n, before := n, kvLen := n, hist := (b.map PrefixBinding.tokens).getD [], promptStart := n, goal := n + rPromptLen r.block, appendAt := n + rPromptLen r.block, firstToken := true, adaptive := startNodes p, adaptiveStart := startNodes p, lastStep := (s.slot k).steps, lastBoundary := s.boundary, pages := lgns.map some, pieces := pieces, hashed := List.range lgns.length, freedAt := (s.ctx i).freedAt, lookupPending := b.isNone && pxdInserts s k && decide (257 ≤ rPromptLen r.block) }
  let s := forEach lgns addRef { s with ctxs := fmSet s.ctxs i c, piecesUsed := s.piecesUsed + pieces }
  let s := forEach lgns (modGroup · (fun g => { g with held := none })) s
  let s := match b with
    | some b =>
      let s := nextUse s
      count d.tenant (fun k => { k with prefixTokens := k.prefixTokens + n })
        { s with bindings := s.bindings.map fun y => if y.tenant == b.tenant && y.value == b.value then { y with used := s.useCount } else y }
    | none => s
  completeFetched d stOk 0 (handleOf i (s.ctx i)) (BitVec.ofNat 128 (seed.toNat + home * 2 ^ 64)) s

/-- After check 9: the allowed-token bitmap and the vocabulary checks (R42, R228). -/
def openAdmitted (d : Fetched) (r : RequestCopy) (p : Package) (b : Option PrefixBinding) (i : Nat)
    (s : State) : State :=
  let t := d.tenant
  let finish (m : Option (List Byte)) : State :=
    match vocabularyFault r p.vocabulary with
    | some o => complete d stBadDescriptor (blockDetail o) s
    | none => admitSequence d r m p b i s
  if rBitmap r.block then
    match readHost s t (rAllowedAddr r.block) (ceilDiv p.vocabulary 512 * 64) with
    | none => complete d stAccess (blockDetail 0x0A8) s
    | some m => finish (some m)
  else finish none

/-- Check 9 of an OPEN (R52). -/
def openResources (d : Fetched) (r : RequestCopy) (b : Option PrefixBinding) (s : State) : State :=
  let t := d.tenant
  let k := rSlot r.block
  match takeCtx s with
  | none => complete d stNoContext 0 s
  | some i =>
    if (s.tenant t).ctxQuota ≤ s.ctxCount t then complete d stQuota 0 s
    else if (s.tenant t).highest < rClass r.block then complete d stAccess (blockDetail 0x001) s
    else
      match (s.slot k).state, (s.slot k).package with
      | .ready, some p => openAdmitted d r p b i s
      | _, _ => complete d stModelUnavailable 0 s

/-- An OPEN takes effect. -/
def openEffect (d : Fetched) (s : State) : State :=
  match d.req with
  | none => s
  | some r =>
    let blk := r.block
    let k := rSlot blk
    let named := bindingFor s d.tenant (BitVec.ofNat 64 (rPrefix blk))
    let bad := rPrefixValid blk && (match named with
      | none => true
      | some b => b.slot != k || b.adapter != rAdapter blk)
    if bad ∨ !(adapterOk s d.tenant k (rAdapter blk)) then complete d stUnknownHandle 0 s
    else
      let b := if rPrefixValid blk then named else none
      let n := (b.map PrefixBinding.length).getD 0
      if 1048576 < n + rPromptLen blk + rMaxNew blk then complete d stBadDescriptor (blockDetail 0x010) s
      else if roleStale s d.desc then complete d stRoleStale 0 s
      else openResources d r b s

/-! ## APPEND (R58) -/

/-- A sequence holds a pending token: it decodes, or decoded before it was held or dropped (R58). -/
def decodeLike (c : Ctx) : Bool :=
  decide (c.state = .decode) || (!c.state.working && decide (c.prior = .decode)) || c.decoding

/-- Tokens a sequence has, committed and pending. -/
def totalTokens (c : Ctx) : Nat := if decodeLike c then c.committed + 1 else c.goal

/-- Tokens added after all a sequence has. -/
def addTokens (tokens : List Nat) (c : Ctx) : Ctx :=
  if decodeLike c then
    let c := { c with goal := c.committed + 1 + tokens.length, appendAt := c.committed + 1, appended := tokens, decoding := false, drafts := [], firstToken := true }
    if c.state = .decode then { c with state := .prompt }
    else if c.state.working then c
    else { c with prior := .prompt }
  else
    let c := if c.state.working ∨ c.prior = .admitted then c else { c with prior := .prompt }
    if c.appended.isEmpty then { c with appendAt := c.goal, appended := tokens, goal := c.goal + tokens.length }
    else { c with appended := c.appended ++ tokens, goal := c.goal + tokens.length }

/-- An APPEND on a context (Table 03-2, R58). -/
def appendCtx (i : Nat) (d : Fetched) (s : State) : State :=
  let c := s.ctx i
  let n := dField d.desc 0x18 4
  match c.state with
  | .draining | .done | .faulted | .free => complete d stIllegalState 0 s
  | .parked => complete d stBudget 0 s
  | _ =>
    if 1048576 < totalTokens c + n then complete d stBadDescriptor 0x18 s
    else
      match readHost s d.tenant (dField d.desc 0x10 8) (4 * n) with
      | none => complete d stAccess 0x10 s
      | some bs => complete d stOk 0 (modCtx i (addTokens (leWords 4 n bs)) s)

def appendEffect : Fetched → State → State := onSeq appendCtx

/-! ## PAUSE and RESUME (R71, R72) -/

/-- A PAUSE on a context: DORMANT with its expiry. -/
def pauseCtx (i : Nat) (d : Fetched) (s : State) : State :=
  let expiry := s.stamp + ofNs (dField d.desc 0x10 4 * 1000000)
  match (s.ctx i).state with
  | .admitted | .draining | .done | .faulted | .free => complete d stIllegalState 0 s
  | .dormant => complete d stOk 0 (modCtx i (fun c => { c with expiry := expiry }) s)
  | _ => complete d stOk 0 (modCtx i (fun c => { holdSeq .dormant c with expiry := expiry, sidingMark := false }) s)

def pauseEffect : Fetched → State → State := onSeq pauseCtx

/-- A RESUME on a context: its prior state, or PARKED. -/
def resumeCtx (i : Nat) (d : Fetched) (s : State) : State :=
  match (s.ctx i).state with
  | .parked => complete d stBudget 0 s
  | .dormant =>
    complete d stOk 0
      (if budgetGone s (s.ctx i).tenant then modCtx i (fun c => { c with state := .parked, expiry := 0 }) s
       else modCtx i (fun c => rebase s.stamp { returnSeq c with expiry := 0 }) s)
  | _ => complete d stIllegalState 0 s

def resumeEffect : Fetched → State → State := onSeq resumeCtx

/-! ## CANCEL and CLOSE (R59, R60) -/

/-- What a CANCEL or CLOSE records on entry to DRAINING. -/
def drainBy (d : Fetched) (toFree : Bool) : Drain :=
  { status := stCancelled, detail := 0, reason := erCancelled, toFree := toFree, silent := false }

/-- A CANCEL on a context. -/
def cancelCtx (i : Nat) (d : Fetched) (s : State) : State :=
  if (s.ctx i).state.live then complete d stCancelled 0 (drainSeq i (drainBy d false) s)
  else complete d stIllegalState 0 s

def cancelEffect : Fetched → State → State := onSeq cancelCtx

/-- EXPORT_PREFIXes that waited on a context that returns to FREE: UNKNOWN_HANDLE. -/
def endExports (i : Nat) (s : State) : State :=
  let gone := s.exports.filter fun j => j.ctx == i
  forEach gone (fun j s => completeRun j.run stUnknownHandle 0 j.handle 0 s)
    { s with exports := s.exports.filter fun j => j.ctx != i }

/-- A CLOSE on a context. -/
def closeCtx (i : Nat) (d : Fetched) (s : State) : State :=
  let c := s.ctx i
  if c.state.live then complete d stOk 0 (drainSeq i (drainBy d true) s)
  else if c.state = .draining then
    complete d stOk 0 (modCtx i (fun c => { c with drain := c.drain.map fun x => { x with toFree := true } }) s)
  else complete d stOk 0 (endExports i (freeCtx i s))

def closeEffect : Fetched → State → State := onSeq closeCtx

/-! ## Prefixes (R61, R91, R204 to R207) -/

/-- The export length breaks R61 or R204: above the committed length, 0, past a reused ring entry, or not
the whole of a recurrent sequence's pages. -/
def exportLengthBad (s : State) (i n : Nat) : Bool :=
  let c := s.ctx i
  decide (n = 0) || decide (c.committed < n) ||
    (match fmFind s.pools c.slot with
      | some p =>
        (decide (0 < p.ring) && decide (p.ring * 256 < c.committed)) ||
          (p.recurrent && (decide (n ≠ c.committed) || decide (n % 256 ≠ 0)))
      | none => false)

/-- An EXPORT_PREFIX on a context. -/
def exportCtx (i : Nat) (d : Fetched) (s : State) : State :=
  let c := s.ctx i
  let n := dField d.desc 0x18 4
  let v : Word64 := BitVec.ofNat 64 (dField d.desc 0x10 8)
  let ready := pagesReady s i n
  if (s.slot c.slot).state ≠ .ready ∨ (!ready && c.adapter != 0xFFFF && (fmFind s.adapters c.adapter).isNone) then
    complete d stModelUnavailable 0 s
  else
    match c.state with
    | .admitted | .draining | .faulted | .free => complete d stIllegalState 0 s
    | _ =>
      if exportLengthBad s i n then complete d stBadDescriptor 0x18 s
      else
        match (if ready then bindPrefix d.tenant v i n s else none) with
        | some s => complete d stOk 0 s
        | none =>
          startRunning d { s with exports := s.exports ++ [{ run := runningOf d, ctx := i, value := v, length := n, handle := dHandle d.desc }] }

def exportEffect : Fetched → State → State := onSeq exportCtx

/-- The held flag of a group set (R206): a spill in progress is abandoned. -/
def holdGroup (g : Nat) (s : State) : State :=
  modGroup g (fun x => { x with held := some (s.boundary + 1024) }) (abandonSpill g s)

/-- An IMPORT_PREFIX takes effect. -/
def importEffect (d : Fetched) (s : State) : State :=
  let v : Word64 := BitVec.ofNat 64 (dField d.desc 0x10 8)
  match bindingFor s d.tenant v with
  | none => complete d stUnknownHandle 0 s
  | some b =>
    if roleStale s d.desc then complete d stRoleStale 0 s
    else
      let s := nextUse (forEach b.lgns holdGroup s)
      let s := { s with bindings := s.bindings.map fun y => if y.tenant == b.tenant && y.value == b.value then { y with used := s.useCount } else y }
      if b.lgns.all fun g => (s.group g).residence == .t0 then
        completeFetched d stOk 0 0 (BitVec.ofNat 128 b.length) s
      else
        startRunning d { s with imports := s.imports ++ [{ run := runningOf d, tenant := d.tenant, value := v, boundAs := b.tenant, length := b.length, lgns := b.lgns, arrived := false }] }

/-- A DROP_PREFIX takes effect. -/
def dropEffect (d : Fetched) (s : State) : State :=
  let v : Word64 := BitVec.ofNat 64 (dField d.desc 0x10 8)
  match s.bindings.find? fun b => b.tenant == d.tenant && b.value == v with
  | none => complete d stUnknownHandle 0 s
  | some b => if roleStale s d.desc then complete d stRoleStale 0 s else complete d stOk 0 (unbind b s)

/-! ## EMBED_LOOKUP (R93, R459) -/

/-- The bag offsets break R93. -/
def offsetsBad (l : List Nat) : Bool :=
  decide (l.headD 0 ≠ 0) || decide (4194304 < l.getLastD 0) ||
    (List.zip l (l.drop 1)).any fun p => decide (p.2 < p.1)

/-- An EMBED_LOOKUP takes effect. -/
def lookupEffect (d : Fetched) (s : State) : State :=
  let w := d.desc
  let t := d.tenant
  match s.tableSets.find? fun x => x.id == dField w 0x2C 2 && !x.leaving with
  | none => complete d stUnknownHandle 0 s
  | some set =>
    if roleStale s w then complete d stRoleStale 0 s
    else
      match (if dField w 0x2E 1 < set.package.tableCount then set.package.tables[dField w 0x2E 1]? else none) with
      | none => complete d stBadDescriptor 0x2E s
      | some tab =>
        let bags := dField w 0x28 4
        match readHost s t (dField w 0x18 8) (4 * (bags + 1)) with
        | none => complete d stAccess 0x18 s
        | some ob =>
          let offs := leWords 4 (bags + 1) ob
          if offsetsBad offs then complete d stBadDescriptor 0x18 s
          else
            let n := offs.getLastD 0
            let out := bags * tab.width * (if set.package.bf16Out then 2 else 4)
            if !(reachable s t (dField w 0x10 8) (4 * n) false) then complete d stAccess 0x10 s
            else if !(reachable s t (dField w 0x20 8) out true) then complete d stAccess 0x20 s
            else
              let ib := hostBytes s.host (s.pasid t) (dField w 0x10 8) (4 * n)
              let idx := leWords 4 n ib
              if idx.any fun i => decide (tab.rows ≤ i) then complete d stBadDescriptor 0x10 s
              else
                let l : Lookup := { run := runningOf d, set := set.id, version := set.version, table := dField w 0x2E 1, mean := dField w 0x2F 1 == 1, offsets := offs, indices := idx, output := dField w 0x20 8, joined := s.now, faulted := false }
                let r := govern (.reads t d.qp d.index) (s.tenant t).partition hostDma [ob.length, ib.length]
                  (startRunning d { s with lookups := s.lookups ++ [l] })
                if r.1 then joinLookup l r.2 else r.2

/-! ## QUERY (R57, Table 02-8) -/

/-- A QUERY takes effect. -/
def queryEffect (d : Fetched) (s : State) : State :=
  let w := d.desc
  let kind := dField w 0x10 1
  if kind = 0 then
    match namedCtx s d.tenant (dHandle w) with
    | none => complete d stUnknownHandle 0 s
    | some i =>
      if roleStale s w then complete d stRoleStale 0 s
      else
        let c := s.ctx i
        completeFetched d stOk 0 (dHandle w)
          (BitVec.ofNat 128 (c.state.code + c.committed * 2 ^ 32 + c.delivered % 2 ^ 32 * 2 ^ 64)) s
  else if kind = 1 then
    if roleStale s w then complete d stRoleStale 0 s
    else
      let x := s.tenant d.tenant
      completeFetched d stOk 0 0 (BitVec.ofNat 128 (tokensLeft x + nextRefill x % 2 ^ 64 * 2 ^ 64)) s
  else
    let x := s.slot (dField w 0x11 1)
    let st := match x.state with
      | .empty => 0 | .loading => 1 | .ready => 2 | .degraded => 3
    let h := if x.state = .ready ∨ x.state = .degraded then
        ((x.package.map fun p => p.hash.toNat).getD 0) % 2 ^ 64
      else 0
    completeFetched d stOk 0 0 (BitVec.ofNat 128 (st + h * 2 ^ 64)) s

/-! ## FENCE (R48) -/

/-- A FENCE takes effect: it completes in the first row 3 at which every earlier descriptor of its SQ has
completed, and until then no later descriptor of the SQ takes effect. -/
def fenceEffect (d : Fetched) (s : State) : State := startRunning d s

/-- A FENCE in effect holds back the descriptors of its SQ. -/
def fenceHolds (x : Qp) : Bool := x.running.any fun r => decide (r.opcode = 0x12)

/-- The FENCE in effect of a queue pair completes where nothing earlier of its SQ is outstanding. -/
def settleFence (t q : Nat) (s : State) : State :=
  let x := s.qp t q
  match x.running.find? fun r => decide (r.opcode = 0x12) with
  | none => s
  | some f => if x.running.any fun r => decide (r.index < f.index) then s else completeRun f stOk 0 0 0 s

/-! ## The commands -/

def execOpenSeq (d : Fetched) (s : State) : Host.Outcome State Fault Refusal :=
  run (.openSeq d) s (whenServing (takeEffect openEffect d))

def execAppend (d : Fetched) (s : State) : Host.Outcome State Fault Refusal :=
  run (.append d) s (whenServing (takeEffect appendEffect d))

def execPause (d : Fetched) (s : State) : Host.Outcome State Fault Refusal :=
  run (.pause d) s (whenServing (takeEffect pauseEffect d))

def execResume (d : Fetched) (s : State) : Host.Outcome State Fault Refusal :=
  run (.resume d) s (whenServing (takeEffect resumeEffect d))

def execCancel (d : Fetched) (s : State) : Host.Outcome State Fault Refusal :=
  run (.cancel d) s (whenServing (takeEffect cancelEffect d))

def execClose (d : Fetched) (s : State) : Host.Outcome State Fault Refusal :=
  run (.close d) s (whenServing (takeEffect closeEffect d))

def execExportPrefix (d : Fetched) (s : State) : Host.Outcome State Fault Refusal :=
  run (.exportPrefix d) s (whenServing (takeEffect exportEffect d))

def execImportPrefix (d : Fetched) (s : State) : Host.Outcome State Fault Refusal :=
  run (.importPrefix d) s (whenServing (takeEffect importEffect d))

def execDropPrefix (d : Fetched) (s : State) : Host.Outcome State Fault Refusal :=
  run (.dropPrefix d) s (whenServing (takeEffect dropEffect d))

def execEmbedLookup (d : Fetched) (s : State) : Host.Outcome State Fault Refusal :=
  run (.embedLookup d) s (whenServing (takeEffect lookupEffect d))

def execQuery (d : Fetched) (s : State) : Host.Outcome State Fault Refusal :=
  run (.query d) s (whenServing (takeEffect queryEffect d))

def execFence (d : Fetched) (s : State) : Host.Outcome State Fault Refusal :=
  run (.fence d) s (whenServing (takeEffect fenceEffect d))

end Sys2Proof.Machine
end

