-- ==== Sys2Proof/Machine/Package.lean ====
section
/-! DEFINITION. Fladopo packages (chapters 4 and 11): the header, the section directory and every
section as fields, the checks of Table 04-10 in their order with the offsets of R460, and what the LT9
keeps of an accepted package. -/

namespace Sys2Proof.Machine

/-! ## Fields of the container (Tables 04-1 and 04-2) -/

/-- A little-endian field of `n` bytes at offset `o` of a package. -/
def pField (b : Nat → Byte) (o n : Nat) : Nat := leNat ((List.range n).map fun i => b (o + i))

def pKind (b : Nat → Byte) : Nat := pField b 0x0A 1
def pFlags (b : Nat → Byte) : Nat := pField b 0x0B 1
def pSections (b : Nat → Byte) : Nat := pField b 0x0C 4
def pBody (b : Nat → Byte) : Nat := pField b 0x10 8
def pLayers (b : Nat → Byte) : Nat := pField b 0x50 2
def pWidth (b : Nat → Byte) : Nat := pField b 0x52 2
def pQueryHeads (b : Nat → Byte) : Nat := pField b 0x54 1
def pKvHeads (b : Nat → Byte) : Nat := pField b 0x55 1
def pHeadDim (b : Nat → Byte) : Nat := pField b 0x56 2
def pExperts (b : Nat → Byte) : Nat := pField b 0x58 2
def pTopK (b : Nat → Byte) : Nat := pField b 0x5A 1
def pShared (b : Nat → Byte) : Nat := pField b 0x5B 1
def pVocabulary (b : Nat → Byte) : Nat := pField b 0x5C 4
def pContext (b : Nat → Byte) : Nat := pField b 0x60 4
def pKvFormat (b : Nat → Byte) : Nat := pField b 0x64 1
def pNorm (b : Nat → Byte) : Nat := pField b 0x65 1
def pDraftSource (b : Nat → Byte) : Nat := pField b 0x66 1
/-- Kind 1: the rank. Kind 2: the table count. -/
def pRank (b : Nat → Byte) : Nat := pField b 0x50 2
def pTables (b : Nat → Byte) : Nat := pField b 0x50 2

/-- The signature block is 16,640 bytes (R74). -/
def signatureBytes : Nat := 16640

/-- One entry of the section directory (R76) and its own offset. -/
structure DirEntry where
  at_ : Nat
  kind : Nat
  count : Nat
  offset : Nat
  length : Nat
  deriving DecidableEq, Repr

/-- The directory's entries, in order. -/
def directory (b : Nat → Byte) : List DirEntry :=
  (List.range (min 64 (pSections b))).map fun i =>
    let o := 0x100 + 32 * i
    { at_ := o, kind := pField b o 2, count := pField b (o + 4) 4, offset := pField b (o + 8) 8,
      length := pField b (o + 0x10) 8 }

/-- The section of a type. -/
def sectionOf (b : Nat → Byte) (k : Nat) : Option DirEntry := (directory b).find? fun e => e.kind == k

/-- Offset of record `i` of `n` bytes of a section. -/
def recordAt (e : DirEntry) (n i : Nat) : Nat := e.offset + n * i

/-- The offset of the first byte of the item that fails, lowest offset first (R460; which of several
failing items of one reason is reported is the model's choice, log 14). -/
def firstFault (l : List (Bool × Nat)) : Option Nat :=
  leastBy (fun a b => decide (a < b)) ((l.filter Prod.fst).map Prod.snd)

/-! ## Stage 1 (R76, Table 04-10) -/

/-- Section types permitted for a package kind (Table 04-2, R269). -/
def permitted (kind k : Nat) : Bool :=
  if kind = 0 then (decide (1 ≤ k) && decide (k ≤ 8))
  else if kind = 1 then [2, 3, 4, 5, 8].contains k
  else if kind = 2 then [4, 5, 8, 10].contains k
  else k == 4

/-- Section types required from the header alone (R76). -/
def required (b : Nat → Byte) : List Nat :=
  if pKind b = 0 then [1, 2, 5, 7, 8] ++ (if pDraftSource b = 0 then [] else [6])
  else if pKind b = 1 then [2, 5, 8]
  else if pKind b = 2 then [5, 8, 10]
  else [4]

/-- Bytes of a record of a section type; 0 where the section is no array of records. -/
def recordBytes (k : Nat) : Nat :=
  if k = 1 then 16 else if k = 2 then 64 else if k = 4 then 272 else if k = 6 then 64
  else if k = 8 then 16 else if k = 10 then 32 else 0

/-- A directory entry breaks R76: not aligned, outside the body, over the directory or another section, or
a type repeated or not permitted. -/
def entryBad (b : Nat → Byte) (e : DirEntry) : Bool :=
  decide (e.offset % 4096 ≠ 0) || decide (pBody b < e.offset + e.length) ||
    decide (e.offset < 0x100 + 32 * pSections b) || !(permitted (pKind b) e.kind) ||
    (directory b).any fun f =>
      decide (f.at_ < e.at_) &&
        (f.kind == e.kind || (decide (f.offset < e.offset + e.length) && decide (e.offset < f.offset + f.length)))

/-- A directory entry's length does not hold its record count (DEDUCED, log 14). -/
def countBad (e : DirEntry) : Bool := decide (e.length < recordBytes e.kind * e.count)

/-- The reason and offset of the first failure of stage 1 before the reservation (MAGIC to TARGET). The
template versions are those the firmware reports. -/
def stage1 (b : Nat → Byte) (length kind tplMin tplMax : Nat) : Option (Nat × Nat) :=
  if pField b 0 8 ≠ 0x004F504F44414C46 then some (0x01, 0x00)
  else if pField b 0x08 2 ≠ 2 then some (0x02, 0x08)
  else if pKind b ≠ kind then some (0x03, 0x0A)
  else if pSections b = 0 ∨ 64 < pSections b then some (0x04, 0x0C)
  else if pBody b % 4096 ≠ 0 ∨ length ≠ pBody b + signatureBytes then some (0x04, 0x10)
  else
    match (directory b).find? (entryBad b) with
    | some e => some (0x04, e.at_)
    | none =>
      if (required b).any fun k => (sectionOf b k).isNone then some (0x04, 0x100)
      else if let some e := (directory b).find? countBad then some (0x04, e.at_)
      else if pField b 0x18 1 ≠ 9 then some (0x05, 0x18)
      else if pField b 0x19 1 < tplMin ∨ tplMax < pField b 0x19 1 then some (0x05, 0x19)
      else none

/-! ## Stage 3: signatures (R77, R78) -/

/-- The reason and offset of the first failure of the signature checks: policy 0 takes one signature or
two, policy 1 both. -/
def stage3 (b : Nat → Byte) (policy : Nat) (hash : BitVec 384) (keys : List KeyPair) :
    Option (Nat × Nat) :=
  let o := pBody b
  let rsa := bitOf (pField b o 1) 0
  let slh := bitOf (pField b o 1) 1
  let rsaId := BitVec.ofNat 64 (pField b (o + 0x08) 8)
  let slhId := BitVec.ofNat 64 (pField b (o + 0x10) 8)
  let bytes (a n : Nat) : List Byte := (List.range n).map fun i => b (o + a + i)
  if (policy = 0 ∧ !rsa ∧ !slh) ∨ (policy = 1 ∧ !(rsa && slh)) then some (0x08, o)
  else if rsa ∧ !(keys.any fun k => k.rsa == rsaId) then some (0x09, o + 0x08)
  else if slh ∧ !(keys.any fun k => k.slh == slhId) then some (0x09, o + 0x10)
  else if rsa ∧ !(Config.rsaVerifies rsaId hash (bytes 0x20 384)) then some (0x0A, o + 0x20)
  else if slh ∧ !(Config.slhVerifies slhId hash (bytes 0x1A0 16224)) then some (0x0B, o + 0x1A0)
  else none

/-! ## The sections as records -/

/-- A section's records, each parsed from its offset. -/
def records {α : Type} (b : Nat → Byte) (k : Nat) (f : Nat → α) : List α :=
  match sectionOf b k with
  | none => []
  | some e => (List.range e.count).map fun i => f (recordAt e (recordBytes k) i)

/-- A layer-list entry (Table 04-3). -/
def readLayer (b : Nat → Byte) (o : Nat) : Layer :=
  { mixer := pField b o 1, feed := pField b (o + 1) 1, substitution := bitOf (pField b (o + 2) 1) 0,
    window := pField b (o + 4) 4, stateSize := pField b (o + 8) 4 }

/-- A tensor descriptor (Table 04-4). -/
def readTensor (b : Nat → Byte) (o : Nat) : Tensor :=
  { layer := pField b o 2, role := pField b (o + 2) 1, format := pField b (o + 3) 1,
    expert := pField b (o + 4) 2, scaleFormat := pField b (o + 6) 1, group := pField b (o + 7) 1,
    rows := pField b (o + 8) 4, columns := pField b (o + 0x0C) 4, dataOffset := pField b (o + 0x10) 8,
    dataLength := pField b (o + 0x18) 8, scaleOffset := pField b (o + 0x20) 8,
    scaleCount := pField b (o + 0x28) 4, codec := pField b (o + 0x2C) 2,
    targetRole := pField b (o + 0x2E) 1 }

/-- A codec table (R261). -/
def readCodec (b : Nat → Byte) (o : Nat) : CodecTable :=
  { mode := pField b o 1, lengths := (List.range 256).map fun v => pField b (o + 0x10 + v) 1 }

/-- An origin-table entry (R81). -/
def readOrigin (b : Nat → Byte) (o : Nat) : Origin :=
  { address := pField b o 8, kind := pField b (o + 8) 1, home := pField b (o + 9) 1 % 4 }

/-- A table descriptor (R92). -/
def readTable (b : Nat → Byte) (o : Nat) : TableDesc :=
  { rows := pField b o 4, width := pField b (o + 4) 2, rowFormat := pField b (o + 6) 1,
    dataOffset := pField b (o + 8) 8, dataLength := pField b (o + 0x10) 8 }

/-- The draft-shape section (R85). -/
def readDraft (b : Nat → Byte) (o : Nat) : DraftShape :=
  let n := pField b (o + 1) 1
  let list (a : Nat) : List Nat := (List.range n).map fun i => pField b (o + a + i) 1
  { tree := pField b o 1 == 1, count := n, headCount := pField b (o + 2) 1, parents := list 0x04,
    heads := list 0x14, ranks := list 0x24 }

/-- A section entry of a template (Table 11-3). -/
def readSection (b : Nat → Byte) (o : Nat) : Section :=
  { engine := pField b o 1, flags := pField b (o + 1) 1, length := pField b (o + 2) 2,
    rule := pField b (o + 4) 1, quads := pField b (o + 5) 1, anchor := pField b (o + 6) 2,
    offset := pField b (o + 8) 2, tensor := pField b (o + 0x0C) 4 }

/-- A section-entry list: u32 count, then entries (Table 11-2). -/
def readList (b : Nat → Byte) (o : Nat) : List Section :=
  (List.range (min 65536 (pField b o 4))).map fun i => readSection b (o + 4 + 16 * i)

/-- A template at offset `o` (Table 11-2). -/
def readTemplate (b : Nat → Byte) (o : Nat) : Template :=
  let layers := pField b (o + 4) 2
  let maps := o + pField b (o + 8) 4
  let table := o + pField b (o + 0x14) 4
  { layerMap := (List.range layers).map fun i => pField b (maps + i) 1,
    prologue := readList b (o + pField b (o + 0x0C) 4),
    layerLists := (List.range (pField b (o + 2) 1)).map fun i => readList b (o + pField b (table + 4 * i) 4),
    epilogue := readList b (o + pField b (o + 0x10) 4), nominal := pField b (o + 0x18) 4 }

/-- Offset within the package and length of the template of class `c` in mode `m` (R289). -/
def templateEntry (b : Nat → Byte) (e : DirEntry) (k : Nat) : Nat × Nat :=
  (e.offset + pField b (e.offset + 16 * k) 8, pField b (e.offset + 16 * k + 8) 8)

/-- What the LT9 keeps of a package. -/
def readPackage (b : Nat → Byte) : Package :=
  let kind := pKind b
  let m := decide (kind = 0)
  let hash := sha384 ((List.range (pBody b)).map b)
  let scales := match sectionOf b 3 with
    | some e => (List.range e.length).map fun i => b (e.offset + i)
    | none => []
  { kind := kind, draftHeads := m && bitOf (pFlags b) 0, hash := hash,
    linkedHash := BitVec.ofNat 384 (pField b 0x20 48), modelId := BitVec.ofNat 128 (pField b 0x80 16),
    layersCount := if m then pLayers b else 0, width := pWidth b, queryHeads := pQueryHeads b,
    kvHeads := pKvHeads b, headDim := pHeadDim b, experts := pExperts b, topK := pTopK b,
    sharedExperts := pShared b, vocabulary := pVocabulary b, maxContext := pContext b,
    kvInt4 := pKvFormat b == 1, layerNorm := pNorm b == 1, draftSource := pDraftSource b,
    normEpsilon := BitVec.ofNat 32 (pField b 0x68 4), rotaryBase := BitVec.ofNat 32 (pField b 0x6C 4),
    rotaryDims := pField b 0x70 2, rotaryScale := BitVec.ofNat 32 (pField b 0x74 4), rank := pRank b,
    adapterScale := BitVec.ofNat 32 (pField b 0x54 4), tableCount := pTables b,
    bf16Out := pField b 0x52 1 == 1, layers := records b 1 (readLayer b),
    tensors := records b 2 (readTensor b), scales := scales, codecs := records b 4 (readCodec b),
    draft := (sectionOf b 6).map fun e => readDraft b e.offset,
    templates := match sectionOf b 7 with
      | some e => (List.range 16).map fun k => readTemplate b (templateEntry b e k).1
      | none => [],
    origins := records b 8 (readOrigin b), tables := records b 10 (readTable b),
    dataLength := ((sectionOf b 5).map DirEntry.length).getD 0 }

/-! ## Stage 4: RESERVED (R9, R75, R76, R289) -/

/-- A field must be zero. -/
def mustZero (b : Nat → Byte) (o n : Nat) : Bool × Nat := (decide (pField b o n ≠ 0), o)

def sectionFields (b : Nat → Byte) (k : Nat) (f : Nat → List (Bool × Nat)) : List (Bool × Nat) :=
  (records b k f).flatten

def reservedHeader (b : Nat → Byte) : List (Bool × Nat) :=
  let k := pKind b
  [(decide ((if k = 0 then pFlags b / 2 else pFlags b) ≠ 0), 0x0B), mustZero b 0x1A 6, mustZero b 0x90 112] ++
    (if k = 2 ∨ (k = 0 ∧ pDraftSource b ≠ 2) then [mustZero b 0x20 48] else []) ++
    (if k = 0 then [mustZero b 0x67 1, mustZero b 0x72 2, mustZero b 0x78 8]
     else if k = 1 then [mustZero b 0x52 2, mustZero b 0x58 40]
     else if k = 2 then [mustZero b 0x53 45]
     else [mustZero b 0x50 48])

/-- The section-entry lists of a template at `o`: where each is named and where it begins. The
prologue, the layer templates, where their number is one of Table 11-2, and the epilogue. -/
def templateLists (b : Nat → Byte) (o : Nat) : List (Nat × Nat) :=
  let n := pField b (o + 2) 1
  let table := o + pField b (o + 0x14) 4
  [(o + 0x0C, o + pField b (o + 0x0C) 4)] ++
    ((List.range (if n ≤ 16 then n else 0)).map fun i => (table + 4 * i, o + pField b (table + 4 * i) 4)) ++
    [(o + 0x10, o + pField b (o + 0x10) 4)]

/-- A list lies within its template of `len` bytes at `o`. -/
def listInside (b : Nat → Byte) (o len l : Nat) : Bool :=
  decide (l + 4 ≤ o + len) && decide (l + 4 + 16 * pField b l 4 ≤ o + len)

/-- A directory entry places its template as R289 has it: on a 64-byte boundary, behind the directory and
within the section. -/
def templatePlaced (b : Nat → Byte) (e : DirEntry) (k : Nat) : Bool :=
  let x := templateEntry b e k
  let o := x.1 - e.offset
  decide (o % 64 = 0) && decide (256 ≤ o) && decide (o + x.2 ≤ e.length)

/-- The reserved fields of a template of `len` bytes at `o`; a list outside it has no entries. -/
def reservedTemplate (b : Nat → Byte) (o len : Nat) : List (Bool × Nat) :=
  [mustZero b (o + 3) 1, mustZero b (o + 6) 2, mustZero b (o + 0x1C) 36] ++
    (((templateLists b o).filter fun l => listInside b o len l.2).map fun l =>
      ((List.range (min 65536 (pField b l.2 4))).map fun i =>
        let e := l.2 + 4 + 16 * i
        [(decide (pField b (e + 1) 1 / 8 ≠ 0), e + 1), (decide (pField b (e + 5) 1 / 16 ≠ 0), e + 5),
          mustZero b (e + 0x0A) 2]).flatten).flatten

def reservedSections (b : Nat → Byte) : List (Bool × Nat) :=
  let kind2 := decide (pKind b = 2)
  ((directory b).map fun e => [mustZero b (e.at_ + 2) 2, mustZero b (e.at_ + 0x18) 8]).flatten ++
    sectionFields b 1 (fun o =>
      [(decide (pField b (o + 2) 1 / 2 ≠ 0) || (pField b (o + 2) 1 % 2 == 1 && pField b (o + 1) 1 != 4), o + 2),
        mustZero b (o + 3) 1, mustZero b (o + 0x0C) 4]) ++
    sectionFields b 2 (fun o =>
      let t := readTensor b o
      [(decide (t.targetRole ≠ 0) && !([0x12, 0x13, 0x15].contains t.role), o + 0x2E), mustZero b (o + 0x2F) 17]) ++
    sectionFields b 4 (fun o => [mustZero b (o + 1) 15]) ++
    sectionFields b 6 (fun o => [mustZero b (o + 3) 1, mustZero b (o + 0x34) 12]) ++
    (match sectionOf b 7 with
      | none => []
      | some e => (((List.range 16).filter (templatePlaced b e)).map fun k => reservedTemplate b (templateEntry b e k).1 (templateEntry b e k).2).flatten) ++
    sectionFields b 8 (fun o =>
      [(decide ((if kind2 then pField b (o + 9) 1 else pField b (o + 9) 1 / 4) ≠ 0), o + 9), mustZero b (o + 0x0A) 6]) ++
    sectionFields b 10 (fun o => [mustZero b (o + 7) 1, mustZero b (o + 0x18) 8])

/-- The reserved fields of the signature block (R77); an absent signature's id and bytes are 0. -/
def reservedSignature (b : Nat → Byte) : List (Bool × Nat) :=
  let o := pBody b
  let f := pField b o 1
  [(decide (f / 4 ≠ 0), o), mustZero b (o + 1) 7, mustZero b (o + 0x18) 8] ++
    (if bitOf f 0 then [] else [mustZero b (o + 0x08) 8, mustZero b (o + 0x20) 384]) ++
    (if bitOf f 1 then [] else [mustZero b (o + 0x10) 8, mustZero b (o + 0x1A0) 16224])

/-! ## Stage 4: OPERATOR and LIMIT (Tables 04-3, 04-5, 04-7) -/

/-- A role of Table 04-5 that a package kind may hold. -/
def roleOk (kind r : Nat) : Bool :=
  if kind = 1 then r == 0x12 || r == 0x13
  else (decide (1 ≤ r) && decide (r ≤ 0x11)) || r == 0x15

/-- The roles an adapter may modify (R88). -/
def adaptable (r : Nat) : Bool :=
  (decide (0x03 ≤ r) && decide (r ≤ 0x06)) || (decide (0x08 ≤ r) && decide (r ≤ 0x0A))

def operatorChecks (b : Nat → Byte) : List (Bool × Nat) :=
  (if pKind b = 0 then [(decide (1 < pNorm b), 0x65)] else []) ++
    sectionFields b 1 (fun o => [(decide (1 < pField b o 1), o), (decide (4 < pField b (o + 1) 1), o + 1)]) ++
    sectionFields b 2 (fun o =>
      let t := readTensor b o
      [(!(roleOk (pKind b) t.role), o + 2), (pKind b == 1 && !(adaptable t.targetRole), o + 0x2E)])

def inRange (lo hi n : Nat) : Bool := decide (lo ≤ n) && decide (n ≤ hi)

/-- FP32 that is not finite. -/
def notFinite (b : Nat → Byte) (o : Nat) : Bool := !(f32IsFinite (BitVec.ofNat 32 (pField b o 4)))

def limitsModel (b : Nat → Byte) : List (Bool × Nat) :=
  [(!(inRange 1 192 (pLayers b)), 0x50),
    (!(inRange 256 16384 (pWidth b)) || decide (pWidth b % 64 ≠ 0), 0x52),
    (!(inRange 1 128 (pQueryHeads b)) || decide (pQueryHeads b % pKvHeads b ≠ 0), 0x54),
    (!(inRange 1 32 (pKvHeads b)), 0x55), (!([64, 128, 256].contains (pHeadDim b)), 0x56),
    (!(pExperts b == 0 || inRange 2 256 (pExperts b)), 0x58),
    (pExperts b != 0 && !(inRange 1 8 (pTopK b) && decide (pTopK b ≤ pExperts b)), 0x5A),
    (decide (2 < pShared b), 0x5B), (!(inRange 256 262144 (pVocabulary b)), 0x5C),
    (!(inRange 256 1048576 (pContext b)) || decide (pContext b % 256 ≠ 0), 0x60),
    (decide (1 < pKvFormat b), 0x64), (decide (2 < pDraftSource b), 0x66), (notFinite b 0x68, 0x68),
    (notFinite b 0x6C, 0x6C),
    (decide (pField b 0x70 2 % 2 ≠ 0) || decide (pHeadDim b < pField b 0x70 2), 0x70),
    (notFinite b 0x74 || !(f32Lt f32Zero (BitVec.ofNat 32 (pField b 0x74 4))), 0x74)]

/-- A parent index: an earlier node, or 0xFF; in a chain, the node before (R85). -/
def parentOk (tree : Bool) (i p : Nat) : Bool :=
  if tree then p == 0xFF || decide (p < i) else if i = 0 then p == 0xFF else p == i - 1

def limitsDraft (b : Nat → Byte) (o : Nat) : List (Bool × Nat) :=
  let n := pField b (o + 1) 1
  let tree := pField b o 1 == 1
  [(decide (1 < pField b o 1), o), (!(inRange 1 (if tree then 16 else 8) n), o + 1), (decide (8 < pField b (o + 2) 1), o + 2)] ++
    ((List.range 16).map fun i =>
      if i < n then [(!(parentOk tree i (pField b (o + 4 + i) 1)), o + 4 + i)]
      else [mustZero b (o + 4 + i) 1, mustZero b (o + 0x14 + i) 1, mustZero b (o + 0x24 + i) 1]).flatten

def limitChecks (b : Nat → Byte) : List (Bool × Nat) :=
  (if pKind b = 0 then limitsModel b
   else if pKind b = 1 then [(!(inRange 1 128 (pRank b)), 0x50), (notFinite b 0x54, 0x54)]
   else if pKind b = 2 then [(!(inRange 1 256 (pTables b)), 0x50), (decide (1 < pField b 0x52 1), 0x52)]
   else []) ++
    sectionFields b 1 (fun o =>
      let l := readLayer b o
      [(l.mixer == 0 && l.window != 0 && (!(inRange 256 524288 l.window) || decide (l.window % 256 ≠ 0)), o + 4),
        (if l.mixer = 0 then l.stateSize != 0 else !(inRange 4096 262144 l.stateSize) || decide (l.stateSize % 4096 ≠ 0), o + 8)]) ++
    sectionFields b 2 (fun o =>
      let t := readTensor b o
      let hidden (n : Nat) : Bool := decide (65536 < n) || decide (n % 64 ≠ 0)
      [((t.role == 0x08 || t.role == 0x09) && hidden t.rows, o + 8), (t.role == 0x0A && hidden t.columns, o + 0x0C),
        (pKind b == 1 && decide (t.expert < 0x8000), o + 4)]) ++
    sectionFields b 6 (limitsDraft b) ++
    sectionFields b 10 (fun o =>
      let t := readTable b o
      [(t.rows == 0, o), (!(inRange 32 1024 t.width) || decide (t.width % 32 ≠ 0), o + 4), (decide (2 < t.rowFormat), o + 6)])

/-! ## Stage 4: FORMAT (R80, Tables 04-5 and 04-6) -/

/-- The format codes of Table 04-6. -/
def formatCodes : List Nat := [0x01, 0x10, 0x11, 0x12, 0x13, 0x14, 0x20, 0x21, 0x22, 0x23]

/-- The formats a role admits. -/
def roleFormats (r : Nat) : List Nat :=
  if r = 0x01 then [0x01, 0x10, 0x12]
  else if [0x02, 0x07, 0x0C, 0x15, 0x0B, 0x10].contains r then [0x01]
  else if r = 0x12 ∨ r = 0x13 then [0x01, 0x12]
  else formatCodes

/-- The scale format a format takes (R80): none for BF16, E8M0 for an MX format; an INT or FP format has none or
learned scales. -/
def scaleFormatOk (t : Tensor) : Bool :=
  if t.format = 0x01 then t.scaleFormat == 0
  else if 0x20 ≤ t.format then t.scaleFormat == 1
  else decide (t.scaleFormat ≤ 2)

/-- The group size: none without scales, 32 for an MX format. -/
def groupOk (t : Tensor) : Bool :=
  if t.scaleFormat = 0 then t.group == 0
  else if 0x20 ≤ t.format then t.group == 32
  else [32, 64, 128].contains t.group

def formatChecks (b : Nat → Byte) : List (Bool × Nat) :=
  sectionFields b 2 fun o =>
    let t := readTensor b o
    [(!((roleFormats t.role).contains t.format), o + 3), (!(scaleFormatOk t), o + 6), (!(groupOk t), o + 7)]

/-! ## Stage 4: TENSOR (R79, R461, R88, R92) -/

/-- The tensors a model needs, as layer, role and expert (R461; the others follow from the operators of
Table 04-8, DEDUCED, log 14). -/
def neededTensors (b : Nat → Byte) : List (Nat × Nat × Nat) :=
  let ln (l r : Nat) : List (Nat × Nat × Nat) :=
    [(l, r, 0xFFFF)]
  let ffn (feed l e : Nat) : List (Nat × Nat × Nat) :=
    (if feed = 2 ∨ feed = 3 then [0x09, 0x0A] else [0x08, 0x09, 0x0A]).map fun r => (l, r, e)
  let perLayer := (records b 1 (readLayer b)).mapIdx fun l x =>
    ln l 0x02 ++ ln l 0x07 ++
      (if x.mixer = 0 then [0x03, 0x04, 0x05, 0x06] else [0x0E, 0x0F, 0x10]).map (fun r => (l, r, 0xFFFF)) ++
      (if x.feed = 4 then
        [(l, 0x0B, 0xFFFF)] ++
          ((List.range (pExperts b)).map fun e => ffn 4 l e).flatten ++
          ((List.range (pShared b)).map fun e => ffn 4 l (0x8000 + e)).flatten
       else ffn x.feed l 0xFFFF)
  [(0xFFFF, 0x01, 0xFFFF), (0xFFFF, 0x0C, 0xFFFF), (0xFFFF, 0x0D, 0xFFFF)] ++ perLayer.flatten

/-- The shape a role fixes; none where the spec gives none. -/
def shapeOk (b : Nat → Byte) (t : Tensor) : Bool :=
  let w := pWidth b
  let q := pQueryHeads b * pHeadDim b
  let kv := pKvHeads b * pHeadDim b
  if pKind b = 1 then
    if t.role = 0x12 then t.rows == pRank b else t.columns == pRank b
  else if [0x02, 0x07, 0x0C, 0x15].contains t.role then t.rows == 1 && t.columns == w
  else if t.role = 0x01 ∨ t.role = 0x0D then t.rows == pVocabulary b && t.columns == w
  else if t.role = 0x03 then t.rows == q && t.columns == w
  else if t.role = 0x04 ∨ t.role = 0x05 then t.rows == kv && t.columns == w
  else if t.role = 0x06 then t.rows == w && t.columns == q
  else if t.role = 0x08 ∨ t.role = 0x09 then t.columns == w
  else if t.role = 0x0A then t.rows == w
  else if t.role = 0x0B then t.rows == pExperts b && t.columns == w
  else true

def roundUp4k (n : Nat) : Nat := (n + 4095) / 4096 * 4096

/-- The plain bytes of a tensor. -/
def tensorBytes (t : Tensor) : Nat := ceilDiv (t.rows * t.columns * elementBits t.format) 8

def tensorFields (b : Nat → Byte) (o : Nat) : List (Bool × Nat) :=
  let t := readTensor b o
  let data := ((sectionOf b 5).map DirEntry.length).getD 0
  let scales := ((sectionOf b 3).map DirEntry.length).getD 0
  let n := if t.group = 0 then 0 else t.rows * t.columns / t.group
  let codecs := ((sectionOf b 4).map DirEntry.count).getD 0
  [(pKind b == 0 && t.layer != 0xFFFF && decide (pLayers b ≤ t.layer), o),
    (pKind b == 0 && t.expert != 0xFFFF && (if t.expert < 0x8000 then decide (pExperts b ≤ t.expert) else decide (pShared b ≤ t.expert - 0x8000)), o + 4),
    (!(shapeOk b t) || t.rows == 0 || t.columns == 0, o + 8),
    (t.group != 0 && decide (t.columns % t.group ≠ 0), o + 0x0C),
    (decide (t.dataOffset % 4096 ≠ 0) || decide (data < t.dataOffset + t.dataLength), o + 0x10),
    (decide (t.dataLength ≠ roundUp4k (tensorBytes t)), o + 0x18),
    ((sectionOf b 3).isSome && decide (scales < t.scaleOffset + n) && decide (0 < n), o + 0x20),
    (decide (t.scaleCount ≠ n), o + 0x28), (t.codec != 0xFFFF && decide (codecs ≤ t.codec), o + 0x2C)]

/-- Two descriptors name one tensor. -/
def sameTensor (t u : Tensor) : Bool :=
  t.layer == u.layer && t.role == u.role && t.expert == u.expert && t.targetRole == u.targetRole

/-- The offset of a failing tensor: a field, a duplicate, or the directory entry of the section that
should hold what is missing (R460). -/
def tensorFault (b : Nat → Byte) : Option Nat :=
  let ts := (records b 2 fun o => (o, readTensor b o))
  let dup := (ts.find? fun x => x.2.role != 0x11 && ts.any fun y => decide (y.1 < x.1) && sameTensor x.2 y.2).map Prod.fst
  let missing := if pKind b = 0 then
      ((neededTensors b).any fun n => !(ts.any fun x => x.2.layer == n.1 && x.2.role == n.2.1 && x.2.expert == n.2.2)) ||
        (pNorm b == 1 && ((neededTensors b).filter fun n => [0x02, 0x07, 0x0C].contains n.2.1).any fun n =>
          !(ts.any fun x => x.2.role == 0x15 && x.2.layer == n.1 && x.2.targetRole == n.2.1))
    else if pKind b = 1 then
      ts.any fun x => !(ts.any fun y => y.2.layer == x.2.layer && y.2.expert == x.2.expert &&
        y.2.targetRole == x.2.targetRole && y.2.role != x.2.role)
    else false
  let rms := if pKind b = 0 ∧ pNorm b = 0 then
      ts.map fun x => (x.2.role == 0x15, x.1 + 2)
    else []
  let tables := sectionFields b 10 fun o =>
    let t := readTable b o
    let data := ((sectionOf b 5).map DirEntry.length).getD 0
    let row := if t.rowFormat = 1 then 2 * t.width else t.width + 2
    [(decide (data < t.dataOffset + t.dataLength), o + 8), (decide (t.dataLength < t.rows * row), o + 0x10)]
  let counts := match sectionOf b 1, sectionOf b 10 with
    | some e, _ => [(decide (e.count ≠ pLayers b), e.at_)]
    | none, some e => [(decide (e.count ≠ pTables b), e.at_)]
    | none, none => []
  match firstFault (sectionFields b 2 (tensorFields b) ++ rms ++ tables ++ counts) with
  | some o => some o
  | none =>
    match dup with
    | some o => some o
    | none =>
      if (ts.any fun x => x.2.group != 0) && (sectionOf b 3).isNone then some 0x100
      else if missing then some (((sectionOf b 2).map DirEntry.at_).getD 0x100)
      else none

/-! ## Stage 4: SCALE, CODEC, TEMPLATE, ORIGIN, DRAFT -/

/-- The first NaN scale a tensor names (R80; no scale format has an infinity). -/
def scaleFault (b : Nat → Byte) : Option Nat :=
  match sectionOf b 3 with
  | none => none
  | some e =>
    firstFault ((records b 2 (readTensor b)).map fun t =>
      (List.range t.scaleCount).map fun i =>
        let o := e.offset + t.scaleOffset + i
        (scaleIsNan t.scaleFormat (b o).toNat, o)).flatten

/-- A codec table is invalid in itself, or for a tensor that names it (R261). -/
def codecFault (b : Nat → Byte) : Option Nat :=
  let ts := records b 2 (readTensor b)
  match sectionOf b 4 with
  | none => none
  | some e =>
    firstFault (((List.range e.count).map fun i =>
      let o := recordAt e 272 i
      let t := readCodec b o
      [(decide (2 < t.mode) || ts.any (fun x => x.codec == i && codecMode x.format != t.mode), o),
        (!([0x01, 0x10, 0x11].any fun f => codecValid t f) && decide (t.mode ≤ 2), o + 0x10)]).flatten)

/-- The home quadrants of the blocks of a tensor (R81). -/
def tensorHomes (origins : List Origin) (t : Tensor) : List Nat :=
  let first := t.dataOffset / 2097152
  let last := (t.dataOffset + (ceilDiv (t.rows * t.columns * elementBits t.format) 8 - 1)) / 2097152
  (List.range (last + 1 - first)).map fun i => ((origins[first + i]?).map Origin.home).getD 0

/-- A projection whose tensor has blocks homed in a quadrant outside the section's mask (R127). -/
def outsideMask (origins : List Origin) (tensors : List Tensor) (e : Section) : Bool :=
  (e.rule == 2 || e.rule == 3) && (match tensors[e.tensor]? with
    | some t => (tensorHomes origins t).any fun q => !(bitOf e.quads q)
    | none => false)

/-- A section-entry list breaks Tables 11-3 and 11-4: an unknown engine or rule, a length beside another rule
than 0, an anchor that is not an earlier entry, a tensor the package has not, or R127. -/
def listFaults (b : Nat → Byte) (origins : List Origin) (tensors : List Tensor) (l : Nat) : List (Bool × Nat) :=
  ((List.range (min 65536 (pField b l 4))).map fun i =>
    let o := l + 4 + 16 * i
    let e := readSection b o
    [(decide (8 < e.engine), o), (e.rule != 0 && e.length != 0, o + 2), (decide (11 < e.rule), o + 4),
      (outsideMask origins tensors e, o + 5), (e.anchor != 0xFFFF && decide (i ≤ e.anchor), o + 6),
      (e.tensor != 0xFFFFFFFF && decide (tensors.length ≤ e.tensor), o + 0x0C)]).flatten

/-- What breaks Tables 11-2 to 11-4 in the template of directory entry `k`. -/
def templateFaults (b : Nat → Byte) (firmware : Word64) (e : DirEntry) (k : Nat) : List (Bool × Nat) :=
  let x := templateEntry b e k
  let o := x.1
  let n := pField b (o + 2) 1
  let maps := o + pField b (o + 8) 4
  let table := o + pField b (o + 0x14) 4
  let clash (j : Nat) : Bool :=
    let y := templateEntry b e j
    decide (j < k) && decide (y.1 < x.1 + x.2) && decide (x.1 < y.1 + y.2)
  [(decide (x.2 = 0), e.at_),
    (!(templatePlaced b e k) || (List.range 16).any clash, e.offset + 16 * k),
    (pField b o 1 != k / 2, o), (pField b (o + 1) 1 != k % 2, o + 1), (!(inRange 1 16 n), o + 2),
    (pField b (o + 4) 2 != pLayers b, o + 4), (decide (o + x.2 < maps + pLayers b), o + 8)] ++
    ((List.range (pLayers b)).map fun i => (decide (n ≤ pField b (maps + i) 1), maps + i)) ++
    [(decide (o + x.2 < table + 64), o + 0x14)] ++
    ((List.range 16).map fun i => (decide (n ≤ i) && pField b (table + 4 * i) 4 != 0, table + 4 * i)) ++
    ((templateLists b o).map fun l => (!(listInside b o x.2 l.2), l.1)) ++
    ((templateLists b o).map fun l => listFaults b (records b 8 (readOrigin b)) (records b 2 (readTensor b)) l.2).flatten ++
    [(!(Config.variantsHold firmware ((List.range x.2).map fun i => b (o + i))), o)]

def templateFault (b : Nat → Byte) (firmware : Word64) : Option Nat :=
  match sectionOf b 7 with
  | none => none
  | some e => firstFault ((List.range 16).map (templateFaults b firmware e)).flatten

/-- A tensor with a 64-row output block that lies in blocks of two home quadrants (R81): only weight
tensors of a model. -/
def spansQuadrants (origins : List Origin) (t : Tensor) : Bool :=
  let rowBits := t.columns * elementBits t.format
  (List.range (ceilDiv t.rows 64)).any fun k =>
    let first := (t.dataOffset + 64 * k * rowBits / 8) / 2097152
    let last := (t.dataOffset + (ceilDiv (min t.rows (64 * k + 64) * rowBits) 8 - 1)) / 2097152
    (List.range (last - first)).any fun i =>
      ((origins[first]?).map Origin.home) != ((origins[first + i + 1]?).map Origin.home)

def originFault (b : Nat → Byte) (fromDevice : Bool) : Option Nat :=
  let origins := records b 8 (readOrigin b)
  let data := ((sectionOf b 5).map DirEntry.length).getD 0
  let count := match sectionOf b 8 with
    | some e => [(decide (e.count ≠ ceilDiv data 2097152), e.at_)]
    | none => []
  firstFault (count ++
    sectionFields b 8 (fun o =>
      let k := pField b (o + 8) 1
      [(decide (3 < k) || (fromDevice && k == 1), o + 8)]) ++
    (if pKind b = 2 then [] else sectionFields b 2 fun o => [(spansQuadrants origins (readTensor b o), o + 0x10)]))

/-- The draft-shape section contradicts the draft source or the flags, or breaks R221 (R85). -/
def draftFault (b : Nat → Byte) : Option Nat :=
  match sectionOf b 6 with
  | none => none
  | some e =>
    let o := e.offset
    let d := readDraft b o
    let src := pDraftSource b
    firstFault
      ([(src == 0, o), (src == 1 && d.headCount == 0, o + 2), (src == 2 && d.headCount != 0, o + 2),
        (src == 1 && !(bitOf (pFlags b) 0), 0x0B)] ++
        ((List.range d.count).map fun i => (decide (8 < nodeDepth d.parents 16 i), o + 0x04 + i)) ++
        if src = 1 then (List.range d.count).map fun i =>
          (decide (d.headCount ≤ d.heads.getD i 0) || decide (d.heads.getD i 0 + 1 ≠ nodeDepth d.parents 16 i), o + 0x14 + i)
        else [])

/-- The first failure of stage 4 in the order of Table 04-10. -/
def stage4 (b : Nat → Byte) (fromDevice : Bool) (firmware : Word64) : Option (Nat × Nat) :=
  let step (code : Nat) (o : Option Nat) : Option (Nat × Nat) := o.map fun x => (code, x)
  [step 0x0C (firstFault (reservedHeader b ++ reservedSections b ++ reservedSignature b)),
    step 0x0D (firstFault (operatorChecks b)), step 0x0E (firstFault (limitChecks b)),
    step 0x0F (firstFault (formatChecks b)), step 0x10 (tensorFault b), step 0x11 (scaleFault b),
    step 0x12 (codecFault b), step 0x13 (templateFault b firmware), step 0x14 (originFault b fromDevice),
    step 0x15 (draftFault b)].findSome? id

/-- The completion status of a load reason (Table 04-10). -/
def reasonStatus (r : Nat) : Nat :=
  if [0x02, 0x05, 0x0D, 0x0E, 0x0F].contains r then stUnsupported
  else if inRange 0x07 0x0B r then stAccess
  else stBadDescriptor

end Sys2Proof.Machine
end

