-- ==== Sys2Proof/Machine/Loader.lean ====
section
/-! DEFINITION. Loading and unloading models, adapters, table sets and codec tables (R88 to R101, R255, R257,
R268 to R271, R460, R463), and the SET_TENANT descriptor (R38, R70, R388, R462). -/

namespace Sys2Proof.Machine

/-! ## The loader queue (R98) -/

/-- A load of a descriptor. -/
def loadJob (d : Fetched) (target : LoadTarget) (mirror : Bool) : LoadJob :=
  { run := runningOf d, target := target, source := dField d.desc 0x10 8,
    fromDevice := dField d.desc 0x20 1 == 1, length := dField d.desc 0x18 8, mirror := mirror,
    reserved := [], firstBlock := 0, blocks := 0, outcome := none, installed := false }

/-- A descriptor's load joins the queue. -/
def joinLoads (d : Fetched) (target : LoadTarget) (mirror : Bool) (s : State) : State :=
  startRunning d { s with loads := s.loads ++ [loadJob d target mirror] }

/-- The package kind a target needs (Table 04-10, KIND). -/
def targetKind : LoadTarget → Nat
  | .model _ => 0
  | .adapter _ _ => 1
  | .table _ => 2
  | .codec _ _ => 3

/-- A LOAD_TABLE of kind 0 and length 0: it removes a set (R96). -/
def isRemoval (j : LoadJob) : Bool :=
  match j.target with
  | .table _ => j.length == 0
  | _ => false

/-! ## Reading the source -/

/-- A unit of a source read fails: it lies outside the windows or does not translate, or a device block
does not serve it. -/
def readFails (s : State) (j : LoadJob) (o n : Nat) : Bool :=
  if j.fromDevice then
    decide (4398046511104 < j.source + o + n) ||
      (List.range ((j.source + o + n - 1) / blockBytes + 1 - (j.source + o) / blockBytes)).any fun k =>
        decide (accessOf s ((j.source + o) / blockBytes + k) false = .failed)
  else !(reachable s 0 (j.source + o) n false)

/-- The bytes of a source. -/
def sourceByte (s : State) (j : LoadJob) (o : Nat) : Byte :=
  if j.fromDevice then memByte s.mem (j.source + o) else hostByte s.host (s.pasid 0) (j.source + o)

/-- The header and the directory are read in two reads (the units of the reads are the model's choice,
log 14). -/
def headReads (b : Nat → Byte) : List (Nat × Nat) :=
  [(0, 256)] ++ (if 1 ≤ pSections b ∧ pSections b ≤ 64 then [(256, 32 * pSections b)] else [])

/-- The body is read in units of 4 KiB, then the signature block. -/
def bodyReads (length : Nat) : List (Nat × Nat) :=
  (List.range ((length - signatureBytes) / 4096)).map (fun i => (i * 4096, 4096)) ++
    [(length - signatureBytes, signatureBytes)]

/-- The first read of a list that fails: TRANSFER with its first byte. -/
def transferFault (s : State) (j : LoadJob) (l : List (Nat × Nat)) : Option (Nat × Nat) :=
  (l.find? fun r => readFails s j r.1 r.2).map fun r => (0x07, r.1)

/-! ## The reservation (R99, R255, R463) -/

/-- Frames of the channels of a tier near a quadrant that are free or in their grace period. -/
def nearFree (s : State) (tier q : Nat) : Nat :=
  let mine (f : Nat) : Bool := nearQuadrant tier (f / channelFrames tier) == q
  let open' := (channelsNear tier q).filter fun c => !(s.channel tier c).offline
  let onOpen (f : Nat) : Bool := mine f && !(s.channel tier (f / channelFrames tier)).offline
  let aside := ((List.range (channelCount tier)).filter fun c => open'.contains c).map fun c =>
    ((List.range (channelFrames tier)).filter fun i => reservedFrame tier (c * channelFrames tier + i)).length
  let grace := graceFrames tier s
  let used := ((dedup (lowerUsed tier s ++ retiredOf tier s)).filter fun f => onOpen f && !(grace.contains f)).length
  open'.length * channelFrames tier - sumOf aside - used

/-- What a reservation counts with: free T0 by quadrant, free T1 and T2 by near quadrant, and the frames
taken so far: T0 by quadrant, T1, T2. -/
structure Plan where
  t0 : List Nat
  t1 : List Nat
  t2 : List Nat
  taken : List Nat
  deriving DecidableEq, Repr

def bump (l : List Nat) (i : Nat) : List Nat := listSet l i (l.getD i 0 + 1)
def drop1 (l : List Nat) (i : Nat) : List Nat := listSet l i (l.getD i 0 - 1)

/-- The quadrants by ring hops from one. -/
def quadrantsFrom (q : Nat) : List Nat :=
  sortBy (fun a b => lexLt [ringHops q a, a] [ringHops q b, b]) (List.range 4)

/-- One block counted in the order of R255: T0, near T1, near T2, far T1, far T2. -/
def planBlock (q : Nat) (p : Plan) : Option Plan :=
  let far := (quadrantsFrom q).filter (· != q)
  if 0 < p.t0.getD q 0 then some { p with t0 := drop1 p.t0 q, taken := bump p.taken q }
  else if 0 < p.t1.getD q 0 then some { p with t1 := drop1 p.t1 q, taken := bump p.taken 4 }
  else if 0 < p.t2.getD q 0 then some { p with t2 := drop1 p.t2 q, taken := bump p.taken 5 }
  else
    match far.find? fun x => decide (0 < p.t1.getD x 0) with
    | some x => some { p with t1 := drop1 p.t1 x, taken := bump p.taken 4 }
    | none =>
      match far.find? fun x => decide (0 < p.t2.getD x 0) with
      | some x => some { p with t2 := drop1 p.t2 x, taken := bump p.taken 5 }
      | none => none

/-- One mirror counted: any T2 frame, near first. -/
def planMirror (q : Nat) (p : Plan) : Option Plan :=
  ((quadrantsFrom q).find? fun x => decide (0 < p.t2.getD x 0)).map fun x =>
    { p with t2 := drop1 p.t2 x, taken := bump p.taken 5 }

/-- Counts blocks of given home quadrants, and their mirrors. -/
def planBlocks (mirror : Bool) : List Nat → Plan → Option Plan
  | [], p => some p
  | q :: r, p =>
    match planBlock q p with
    | none => none
    | some p =>
      match (if mirror then planMirror q p else some p) with
      | none => none
      | some p => planBlocks mirror r p

/-- What is free, with frames in their grace period (R99). -/
def freePlan (s : State) : Plan :=
  { t0 := (List.range 4).map fun q => t0FreeCount s q + graceT0 s q,
    t1 := (List.range 4).map (nearFree s 1), t2 := (List.range 4).map (nearFree s 2),
    taken := [0, 0, 0, 0, 0, 0] }

/-- The home quadrants of a package's blocks: its origin table's, or block number mod 4 for a table set
(R81, R255). -/
def blockHomes (b : Nat → Byte) (kind : Nat) : List Nat :=
  let data := ((sectionOf b 5).map DirEntry.length).getD 0
  let origins := records b 8 (readOrigin b)
  (List.range (ceilDiv data blockBytes)).map fun k =>
    if kind = 2 then k % 4 else ((origins[k]?).map Origin.home).getD 0

/-- A block of the package region that a package or a load holds, or that is not UNMAPPED. -/
def blockTaken (s : State) (n : Nat) : Bool :=
  let within (first count : Nat) : Bool := decide (first ≤ n) && decide (n < first + count)
  !decide ((s.block n).state = .unmapped) || (s.slots.any fun x => within x.2.firstBlock x.2.blocks) ||
    (s.adapters.any fun x => within x.2.firstBlock x.2.blocks) ||
    (s.tableSets.any fun x => within x.firstBlock x.blocks) || s.loads.any fun j => within j.firstBlock j.blocks

/-- The lowest run of free blocks of the package region (which blocks the loader names is the model's
choice, log 16). -/
def nameBlocks (s : State) (n : Nat) : Option Nat :=
  firstFrom (fun k => decide (k + n ≤ 2097152) && (List.range n).all fun i => !(blockTaken s (k + i)))
    (hostLimit s) (2097152 - hostLimit s)

/-- The head of the loader queue. -/
def modHead (f : LoadJob → LoadJob) (s : State) : State :=
  match s.loads with
  | [] => s
  | j :: r => { s with loads := f j :: r }

def failLoad (r : Nat × Nat) (s : State) : State :=
  modHead (fun j => { j with reserved := [], outcome := some (.failed r.1 r.2) })
    { s with governed := s.governed.filter fun g => decide (g.who ≠ .load) }

/-- The source reads of a load pass the host DMA bucket of tenant 0's partition where they come from host
memory (R98, R275). -/
def beginStream (j : LoadJob) (s : State) : State :=
  if j.fromDevice then s else startGoverned .load (s.tenant 0).partition hostDma [j.length] s

/-- Every piece of the load's source reads has passed its bucket. -/
def streamBody (j : LoadJob) (s : State) : Bool × State :=
  if j.fromDevice then (true, s) else govern .load (s.tenant 0).partition hostDma [j.length] s

/-- Stage 1 of the load at the head of the queue: header, directory, reservation (R98, R99). -/
def beginLoad (s : State) : State :=
  match s.loads with
  | [] => s
  | j :: _ =>
    if j.outcome.isSome || !j.reserved.isEmpty || held s .load || isRemoval j then s
    else
      let b := sourceByte s j
      if readFails s j 0 256 then failLoad (0x07, 0) s
      else
        match transferFault s j (headReads b) with
        | some r => failLoad r s
        | none =>
          match stage1 b j.length (targetKind j.target) s.tplMin s.tplMax with
          | some r => failLoad r s
          | none =>
            let homes := if targetKind j.target = 3 then [] else blockHomes b (pKind b)
            match planBlocks j.mirror homes (freePlan s), nameBlocks s homes.length with
            | some p, some k =>
              beginStream j (modHead (fun j => { j with reserved := p.taken, firstBlock := k, blocks := homes.length }) s)
            | _, _ => failLoad (0x06, 0) s

/-! ## Placement (R255, R257, R267) -/

/-- A frame for a block in the order of R255: T0, or an image with its tier. -/
def placeFrame (s : State) (q : Nat) (nbuRead : Bool) : Option (Nat × Nat) :=
  match findT0 s q nbuRead with
  | some f => some (0, f)
  | none =>
    let on (tier : Nat) (cs : List Nat) : Option (Nat × Nat) :=
      (frameOnChannels s tier (lowerUsed tier s) cs).map fun f => (tier, f)
    ([on 1 (channelsNear 1 q), on 2 (channelsNear 2 q), on 1 (channelsFar 1 q), on 2 (channelsFar 2 q)]).findSome? id

/-- The tensor a block of a package belongs to: the first whose data it holds. -/
def tensorOfBlock (p : Package) (k : Nat) : Nat :=
  (p.tensors.findIdx? fun t =>
    decide (t.dataOffset < (k + 1) * blockBytes) && decide (k * blockBytes < t.dataOffset + t.dataLength)).getD 0xFFFF

/-- The block entry of block `k` of a package placed in a frame. -/
def placedBlock (j : LoadJob) (p : Package) (k home : Nat) (place : Nat × Nat) (mirror : Option Nat) : Block :=
  let o := p.origins[k]?
  let slot := match j.target with
    | .model x => x
    | _ => 0xFF
  let owner := match j.target with
    | .adapter _ t => t
    | _ => 0
  { unmappedBlock with
    t0 := if place.1 = 0 then some place.2 else none, image := if place.1 = 0 then none else some place.2,
    imageT2 := place.1 == 2, mirror := mirror, state := .mapped, home := home, tenantKey := owner != 0,
    keyOwner := owner, slot := slot, tensor := if slot = 0xFF then 0xFFFF else tensorOfBlock p k,
    originKind := (o.map Origin.kind).getD 0, origin := (o.map Origin.address).getD 0 }

/-- Routed experts and table sets: NBU jobs read the block (R248). -/
def loadNbuRead (j : LoadJob) (p : Package) (k : Nat) : Bool :=
  match j.target with
  | .table _ => true
  | .model _ => ((p.tensors[tensorOfBlock p k]?).map fun t => decide (t.expert < 0x8000)).getD false
  | _ => false

/-- Places the blocks of a load; none while a frame it needs has not reached a free list. -/
def placeBlocks (j : LoadJob) (p : Package) : List (Nat × Nat) → State → Option State
  | [], s => some s
  | (k, q) :: r, s =>
    match placeFrame s q (loadNbuRead j p k) with
    | none => none
    | some f =>
      let n := j.firstBlock + k
      let s := modBlock n (fun _ => placedBlock j p k q f none) s
      if j.mirror then
        match frameOnChannels s 2 (lowerUsed 2 s) (channelsNear 2 q ++ channelsFar 2 q) with
        | none => none
        | some m => placeBlocks j p r (modBlock n (fun b => { b with mirror := some m }) s)
      else placeBlocks j p r s

/-- The tensor data stands in the range, and every block is sealed with its CRC (stage 5, R267). -/
def sealBlocks (j : LoadJob) (bytes : List Byte) (s : State) : State :=
  let base := j.firstBlock * blockBytes
  let s := { s with mem := memWrite (memClear s.mem base (j.blocks * blockBytes)) base bytes }
  forEach (List.range j.blocks) (fun k s =>
    let n := j.firstBlock + k
    let s := modBlock n (fun b => { b with sealed := true, crc := blockCrc s n }) s
    if (s.block n).image.isSome then writeImage n s else s) s

/-- The table slots of a package's tensors (R268). -/
def initialCodecs (p : Package) : FMap CodecSlots :=
  ((p.tensors.mapIdx fun i t => (i, t)).filter fun x => x.2.codec != 0xFFFF).filterMap fun x =>
    (p.codecs[x.2.codec]?).map fun c => (x.1, { slot0 := some (0, c), slot1 := none, newest := 0, sweeping := false })

/-- Stage 4 of a kind-3 package: the model it is for, and the record against the tensor's format (R269). -/
def codecLoadFault (s : State) (slot tensor : Nat) (b : Nat → Byte) (p : Package) : Option (Nat × Nat) :=
  match (s.slot slot).package with
  | none => some (0x12, 0x20)
  | some m =>
    let rec' := ((sectionOf b 4).map DirEntry.offset).getD 0
    match firstFault (reservedHeader b ++ reservedSections b ++ reservedSignature b) with
    | some o => some (0x0C, o)
    | none =>
      if p.linkedHash ≠ m.hash then some (0x12, 0x20)
      else if p.codecs.length ≠ 1 then some (0x12, ((sectionOf b 4).map DirEntry.at_).getD 0x100)
      else
        match p.codecs[0]?, m.tensors[tensor]? with
        | some c, some t =>
          if c.mode ≠ codecMode t.format then some (0x12, rec')
          else if !(codecValid c t.format) then some (0x12, rec' + 0x10)
          else none
        | _, _ => some (0x12, rec')

/-- What the placement of a load needs done before its slot may read READY: the codec slots are those of
the new package while its images are written. -/
def withCodecs (j : LoadJob) (p : Package) (s : State) : State :=
  match j.target with
  | .model k => modSlot k (fun x => { x with package := some p, codecSlots := initialCodecs p }) s
  | _ => s

/-- The layout of a group model breaks R327: LIMIT, with the key/value head count or the expert count as
the item (which field LOAD_OFFSET names is the model's choice, log 14). -/
def layoutFault (s : State) (j : LoadJob) (b : Nat → Byte) : Option (Nat × Nat) :=
  match j.target with
  | .model k =>
    let o := junctionBase + 0x3000 + 4 * k
    if s.reg o 31 0 ≠ 1 then none
    else
      let sp := s.reg o 0 1
      let x := s.reg o 8 1
      if !([1, 2, 4, 8].contains sp) || decide (pKvHeads b % sp ≠ 0) then some (0x0E, 0x55)
      else if x = 0 ∨ 16 < x ∨ (pExperts b = 0 ∧ x ≠ 1) then some (0x0E, 0x58)
      else none
  | _ => none

/-- A load finishes its stages, or fails one of them (R98): stages 1 to 5 of the load at the head. With a
frame still in its grace period the load is not finished and nothing happens. -/
def finishLoad (s : State) : State :=
  let s := beginLoad s
  match s.loads with
  | [] => s
  | j :: _ =>
    if j.outcome.isSome || isRemoval j then s
    else
      let b := sourceByte s j
      match (match layoutFault s j b with
        | some r => some r
        | none => transferFault s j (bodyReads j.length)) with
      | some r => failLoad r s
      | none =>
        let before := s
        let passed := streamBody j s
        let s := passed.2
        if !passed.1 then s
        else
        let p := readPackage b
        match stage3 b (s.reg 0x30040 0 0) p.hash s.security.enrolled with
        | some r => failLoad r s
        | none =>
          match (match j.target with
            | .codec slot tensor => codecLoadFault s slot tensor b p
            | _ => stage4 b j.fromDevice s.fwVersion) with
          | some r => failLoad r s
          | none =>
            let homes := if targetKind j.target = 3 then [] else blockHomes b (pKind b)
            match placeBlocks j p (homes.mapIdx fun k q => (k, q)) s with
            | none => before
            | some s =>
              let start := ((sectionOf b 5).map DirEntry.offset).getD 0
              let bytes := (List.range p.dataLength).map fun i => b (start + i)
              let s := if j.fromDevice then s else snoop 0 (some 0) ((List.range j.length).map b) s
              let s := snoop 1 (some (s.tenant 0).partition) bytes s
              let s := sealBlocks j bytes (withCodecs j p s)
              modHead (fun j => { j with reserved := [], outcome := some (.passed p) }) s

/-- A load that is over and holds nothing behind it back: it failed, or it passed and waits for no table slot
(R98, R270). Its outcome takes effect in the next pass. -/
def loadOver (j : LoadJob) : Bool :=
  match j.outcome, j.target with
  | some (.passed _), .codec _ _ => j.installed
  | some _, _ => true
  | none, _ => false

/-- The load that runs, the first of the queue that is not over, finishes its stages or fails one (R98). -/
def finishRunning (s : State) : State :=
  let t := finishLoad { s with loads := s.loads.dropWhile loadOver }
  { t with loads := s.loads.takeWhile loadOver ++ t.loads }

def execLoadFinish (host : HostUpdate) (s : State) : Host.Outcome State Fault Refusal :=
  run (.loadFinish host) s (whenServing fun s => finishRunning (hostChange host s))

/-! ## How a load ends (Table 04-9, R96, R101, R186, R270) -/

/-- The pool of a slot that becomes READY (R186, R203). -/
def createPool (k : Nat) (p : Package) (s : State) : State :=
  let attn := p.layers.filter fun l => l.mixer == 0
  let ring := if attn.all fun l => l.window != 0 then maxOf (attn.map Layer.window) / 256 + 17 else 0
  let s := { s with grace := s.grace.filter fun g => match g.2 with
    | .frameSet x _ => x != k
    | _ => true }
  if attn.isEmpty then { s with pools := fmErase s.pools k }
  else { s with pools := fmSet s.pools k (newPool s p ring (maxOf (attn.map Layer.window))) }

/-- A load that passed takes effect at the start of a pass. -/
def loadPassed (j : LoadJob) (p : Package) (s : State) : State :=
  let s := completeRun j.run stOk 0 0 0 s
  match j.target with
  | .model k =>
    createPool k p (modSlot k (fun x =>
      { emptySlot with state := .ready, package := some p, firstBlock := j.firstBlock, blocks := j.blocks, source := j.source, codecSlots := x.codecSlots, readyAt := s.boundary, lastStart := s.boundary }) s)
  | .adapter id owner =>
    { s with adapters := fmSet s.adapters id { owner := owner, loading := false, package := some p, firstBlock := j.firstBlock, blocks := j.blocks, source := j.source, removers := [], removedAt := 0, unusable := false } }
  | .table id =>
    let old := s.tableSets.map fun t => if t.id = id then { t with leaving := true } else t
    { s with tableSets := old ++ [{ id := id, version := s.nextVersion, package := p, firstBlock := j.firstBlock, blocks := j.blocks, source := j.source, leaving := false, remover := none }], nextVersion := s.nextVersion + 1 }
  | .codec _ _ => s

/-- A load that failed (R101): its status, the load-result registers, its target free again. -/
def loadFailed (j : LoadJob) (reason offset : Nat) (s : State) : State :=
  let st := reasonStatus reason
  let s := completeRun j.run st (if st = stUnsupported then 0 else 0x10) 0 0 s
  let s := { s with loadReason := reason, loadCmdId := j.run.cmdId, loadOffset := offset }
  match j.target with
  | .model k => modSlot k (fun _ => emptySlot) s
  | .adapter id _ => { s with adapters := fmErase s.adapters id }
  | _ => s

/-- A table set that is to go is marked with the LOAD_TABLE that removes it. -/
def markRemoved (j : LoadJob) (id : Nat) (s : State) : State :=
  if s.tableSets.any fun t => t.id == id && !t.leaving then
    { s with tableSets := s.tableSets.map fun t => if t.id = id ∧ !t.leaving then { t with leaving := true, remover := some j.run } else t }
  else completeRun j.run stOk 0 0 0 s

/-- What has become of the loads at the head of the queue, at the start of a pass: at most one that
finished, and removals that have reached the head. A codec table that waits for its slot stays. -/
def settleLoads : Nat → State → State
  | 0, s => s
  | fuel + 1, s =>
    match s.loads with
    | [] => s
    | j :: r =>
      if isRemoval j then
        match j.target with
        | .table id => settleLoads fuel (markRemoved j id { s with loads := r })
        | _ => s
      else
        match j.outcome with
        | none => s
        | some (.failed reason offset) => settleLoads fuel (loadFailed j reason offset { s with loads := r })
        | some (.passed p) =>
          match j.target with
          | .codec slot _ =>
            if j.installed then settleLoads fuel (completeRun j.run stOk 0 0 0 { s with loads := r })
            else if (s.slot slot).package.isNone then settleLoads fuel (loadFailed j 0x12 0x20 { s with loads := r })
            else s
          | _ => settleLoads fuel (loadPassed j p { s with loads := r })

/-- A set's lookups wait or run. -/
def setInUse (s : State) (t : TableSet) : Bool :=
  let mine (x : Lookup) : Bool := x.set == t.id && x.version == t.version
  s.lookups.any mine || ((s.step.map fun x => x.lookups.any mine).getD false)

/-- Sets that were replaced or removed leave once no lookup uses them; the LOAD_TABLE that removes one
completes (R96). -/
def releaseSets (s : State) : State :=
  let gone := s.tableSets.filter fun t => t.leaving && !(setInUse s t)
  forEach gone (fun t s =>
    let s := unmapRange t.firstBlock t.blocks s
    match t.remover with
    | some r => completeRun r stOk 0 0 0 s
    | none => s) { s with tableSets := s.tableSets.filter fun t => !(t.leaving && !(setInUse s t)) }

/-- Adapters being removed leave at a later boundary once no live or DRAINING sequence names them (R91). -/
def releaseAdapters (s : State) : State :=
  forEach (s.adapters.filter fun a => !a.2.removers.isEmpty && decide (a.2.removedAt < s.boundary)) (fun a s =>
    if s.ctxs.any fun c => c.2.adapter == a.1 && c.2.replay.isNone && (c.2.state.live || decide (c.2.state = .draining)) then s
    else
      let s := unmapRange a.2.firstBlock a.2.blocks { s with adapters := fmErase s.adapters a.1 }
      forEach a.2.removers (fun r s => completeRun r stOk 0 0 0 s) s) s

/-! ## Codec tables in row 4 (R268, R270) -/

def codecSlotsOf (s : State) (slot tensor : Nat) : CodecSlots :=
  fmGet (s.slot slot).codecSlots tensor { slot0 := none, slot1 := none, newest := 0, sweeping := false }

def setCodecSlots (slot tensor : Nat) (c : CodecSlots) (s : State) : State :=
  modSlot slot (fun x => { x with codecSlots := fmSet x.codecSlots tensor c }) s

/-- A table slot is busy: an image or mirror names it. -/
def tableBusy (s : State) (slot tensor k : Nat) : Bool :=
  s.blocks.any fun b =>
    b.2.slot == slot && b.2.tensor == tensor && b.2.codec == k && (b.2.image.isSome || b.2.mirror.isSome)

/-- Old slots that are no longer busy become idle. -/
def idleTables (s : State) : State :=
  forEach s.slots (fun x s =>
    forEach x.2.codecSlots (fun c s =>
      let old := 1 - c.2.newest
      if !c.2.sweeping && !(tableBusy s x.1 c.1 old) then
        setCodecSlots x.1 c.1 (if old = 0 then { c.2 with slot0 := none } else { c.2 with slot1 := none }) s
      else s) s) s

/-- Installs the table of a codec load that waits at the head, where its tensor has an idle slot. -/
def installTable (s : State) : State :=
  match s.loads with
  | [] => s
  | j :: _ =>
    match j.target, j.outcome with
    | .codec slot tensor, some (.passed p) =>
      let c := codecSlotsOf s slot tensor
      let free := 1 - c.newest
      let now := if c.newest = 0 then c.slot0 else c.slot1
      match (if free = 0 then c.slot0 else c.slot1), p.codecs[0]? with
      | none, some t =>
        if j.installed ∨ (s.slot slot).package.isNone then s
        else
          let g := ((now.map Prod.fst).getD 255 + 1) % 256
          let c := if free = 0 then { c with slot0 := some (g, t) } else { c with slot1 := some (g, t) }
          addTransfer (.sweep slot tensor)
            (modHead (fun j => { j with installed := true }) (setCodecSlots slot tensor { c with newest := free, sweeping := true } s))
      | _, _ => s
    | _, _ => s

/-- One image and mirror of a tensor re-encoded into fresh frames under the newest slot; the old ones
leave under R254. -/
def sweepBlock (n : Nat) (s : State) : State :=
  let b := s.block n
  let tier := if b.imageT2 then 2 else 1
  let s := match b.image with
    | some f =>
      match takeLower s tier with
      | some g => releaseLater (.tierFrame tier f) (writeImage n (modBlock n (fun b => { b with image := some g }) s))
      | none => s
    | none => s
  match b.mirror with
  | some f =>
    match takeLower s 2 with
    | some g => releaseLater (.tierFrame 2 f) (writeImage n (modBlock n (fun b => { b with mirror := some g }) s))
    | none => s
  | none => s

/-- A table sweep finishes (R270, R271): blocks in REFETCHING are passed over. -/
def finishSweep (slot tensor : Nat) (s : State) : State :=
  let c := codecSlotsOf s slot tensor
  if c.sweeping then
    let old := (s.blocks.filter fun b =>
      b.2.slot == slot && b.2.tensor == tensor && b.2.codec != c.newest && (b.2.image.isSome || b.2.mirror.isSome) &&
        decide (b.2.state ≠ .refetching)).map Prod.fst
    let s := forEach old sweepBlock s
    if old.any fun n => (s.block n).codec != c.newest then s
    else dropTransfers (fun t => decide (t = .sweep slot tensor)) (setCodecSlots slot tensor { c with sweeping := false } s)
  else s

def execSweepDone (slot tensor : Nat) (s : State) : Host.Outcome State Fault Refusal :=
  run (.sweepDone slot tensor) s (whenServing (finishSweep slot tensor))

/-! ## The descriptors -/

/-- A LOAD_MODEL takes effect (R97). -/
def loadModelEffect (d : Fetched) (s : State) : State :=
  let k := dField d.desc 0x21 1
  if (s.slot k).state ≠ .empty then complete d stBadDescriptor 0x21 s
  else joinLoads d (.model k) (s.reg (slotBase k) 9 0 == 1) (modSlot k (fun x => { x with state := .loading }) s)

/-- An UNLOAD_MODEL takes effect (R97, R100). -/
def unloadModelEffect (d : Fetched) (s : State) : State :=
  let k := dField d.desc 0x21 1
  match (s.slot k).state with
  | .empty | .loading => complete d stModelUnavailable 0 s
  | .ready | .degraded => complete d stOk 0 (emptyModel k s)

/-- A LOAD_ADAPTER takes effect (R91). -/
def loadAdapterEffect (d : Fetched) (s : State) : State :=
  let id := dField d.desc 0x22 2
  let owner := dField d.desc 0x24 1
  if (fmFind s.adapters id).isSome then complete d stBadDescriptor 0x22 s
  else
    joinLoads d (.adapter id owner) (s.reg 0x58 0 0 == 1)
      { s with adapters := fmSet s.adapters id { owner := owner, loading := true, package := none, firstBlock := 0, blocks := 0, source := dField d.desc 0x10 8, removers := [], removedAt := 0, unusable := false } }

/-- An UNLOAD_ADAPTER takes effect (R91). -/
def unloadAdapterEffect (d : Fetched) (s : State) : State :=
  let id := dField d.desc 0x22 2
  match fmFind s.adapters id with
  | none => complete d stUnknownHandle 0 s
  | some a =>
    if a.loading then complete d stIllegalState 0 s
    else
      startRunning d { s with adapters := fmSet s.adapters id { a with removers := a.removers ++ [runningOf d], removedAt := if a.removers.isEmpty then s.boundary else a.removedAt } }

/-- A load of a table set waits or runs. -/
def setLoading (s : State) (id : Nat) : Bool :=
  s.loads.any fun j => j.target == .table id && !(isRemoval j)

/-- A LOAD_TABLE takes effect (R96, R269). -/
def loadTableEffect (d : Fetched) (s : State) : State :=
  let x := dField d.desc 0x22 2
  if dField d.desc 0x21 1 = 0 then
    let present := s.tableSets.any fun t => t.id == x && !t.leaving
    if dField d.desc 0x18 8 = 0 then
      if setLoading s x then joinLoads d (.table x) false s
      else if present then
        let j := loadJob d (.table x) false
        startRunning d (markRemoved j x s)
      else complete d stUnknownHandle 0 s
    else joinLoads d (.table x) (s.reg 0x58 1 0 == 1) s
  else
    let slot := x / 4096
    let tensor := x % 4096
    if (s.slot slot).state ≠ .ready then complete d stModelUnavailable 0 s
    else if (((s.slot slot).package.bind fun p => p.tensors[tensor]?).map fun t => t.codec == 0xFFFF).getD true then
      complete d stBadDescriptor 0x22 s
    else joinLoads d (.codec slot tensor) false s

def execLoadModel (d : Fetched) (s : State) : Host.Outcome State Fault Refusal :=
  run (.loadModel d) s (whenServing (takeEffect loadModelEffect d))

def execUnloadModel (d : Fetched) (s : State) : Host.Outcome State Fault Refusal :=
  run (.unloadModel d) s (whenServing (takeEffect unloadModelEffect d))

def execLoadAdapter (d : Fetched) (s : State) : Host.Outcome State Fault Refusal :=
  run (.loadAdapter d) s (whenServing (takeEffect loadAdapterEffect d))

def execUnloadAdapter (d : Fetched) (s : State) : Host.Outcome State Fault Refusal :=
  run (.unloadAdapter d) s (whenServing (takeEffect unloadAdapterEffect d))

def execLoadTable (d : Fetched) (s : State) : Host.Outcome State Fault Refusal :=
  run (.loadTable d) s (whenServing (takeEffect loadTableEffect d))

/-! ## SET_TENANT (R38, R70, R388, R462) -/

/-- The parameters a block gives (Table 02-6). -/
def readParams (w : Nat) : TenantParams :=
  { enabled := bitOf (fieldAt w 0 1) 0, qpQuota := fieldAt w 1 1, highest := fieldAt w 2 1,
    partition := fieldAt w 3 1, ctxQuota := fieldAt w 4 4, periodMs := fieldAt w 8 4,
    perPeriod := fieldAt w 0x10 8, burst := fieldAt w 0x18 8 }

/-- A tenant holds a context, a bound handle or an owned adapter (R388). -/
def holdsAny (s : State) (t : Nat) : Bool :=
  decide (0 < s.ctxCount t) || (s.bindings.any fun b => b.tenant == t) || s.adapters.any fun a => a.2.owner == t

/-- The budget level a SET_TENANT leaves (R70). -/
def newLevel (x : Tenant) (p : TenantParams) : Int :=
  if p.perPeriod = 0 then 0
  else if x.limited then min x.budget (capacity p)
  else capacity p

/-- Parameters that passed every test apply: the budget, and the keys of a tenant that is disabled or
enabled (R70, R388). -/
def applyParams (t : Nat) (p : TenantParams) (s : State) : State :=
  let x := s.tenant t
  let fresh := p.enabled && !x.enabled && t != 0
  let keys (k : Option Nat) (n : Nat) : Option Nat :=
    if t = 0 then k else if !p.enabled then none else if fresh then some n else k
  let n := s.security.nextKey
  let s := if fresh then { s with security := { s.security with nextKey := n + 2 } } else s
  modTenant t (fun x =>
    { x with params := some p, budget := newLevel x p, periodStart := s.stamp, refills := 0, adapterKey := keys x.adapterKey n, stateKey := keys x.stateKey (n + 1) }) s

/-- A SET_TENANT takes effect. -/
def setTenantEffect (d : Fetched) (s : State) : State :=
  let t := dField d.desc 0x18 1
  match readHost s 0 (dField d.desc 0x10 8) 64 with
  | none => complete d stAccess 0x10 s
  | some bs =>
    let w := leNat bs
    let p := readParams w
    if paramsBad w ∨ (t = 0 ∧ (!p.enabled ∨ p.qpQuota ≠ 16)) then complete d stBadDescriptor 0x10 s
    else if !p.enabled ∧ holdsAny s t then complete d stIllegalState 0 s
    else complete d stOk 0 (applyParams t p s)

def execSetTenant (d : Fetched) (s : State) : Host.Outcome State Fault Refusal :=
  run (.setTenant d) s (whenServing (takeEffect setTenantEffect d))

end Sys2Proof.Machine
end

