-- ==== Sys2Proof/Machine/Queues.lean ====
section
/-! DEFINITION. Doorbells, descriptor fetch with checks 1 to 7, and the enabling and disabling of queue
pairs (chapter 2, R429 to R433). -/

namespace Sys2Proof.Machine

/-! ## Checks 1 to 7 (Table 02-4) -/

/-- The logit-bias entries a request names. -/
def readBias (bs : List Byte) (n : Nat) : List (Nat × Word32) :=
  (List.range n).map fun i => (leAt bs (8 * i) 4, BitVec.ofNat 32 (leAt bs (8 * i + 4) 4))

/-- The stop-sequence records a request names: each length with its tokens. -/
def readStops (bs : List Byte) (n : Nat) : List (Nat × List Nat) :=
  (List.range n).map fun i =>
    let k := leAt bs (68 * i) 4
    (k, (List.range (min 16 k)).map fun j => leAt bs (68 * i + 4 + 4 * j) 4)

/-- The offset of the first field of a request block outside its range (Table 02-10). -/
def requestRange (b : BlockWord) : Option Nat :=
  let below (lo hi : Word32) (x : Word32) : Bool := f32Lt x lo || f32Lt hi x || f32IsNan x
  ([(decide (15 < rSlot b), 0x004), (decide (63 < rVector b) && decide (rVector b ≠ 0xFF), 0x005),
    (decide (4095 < rAdapter b) && decide (rAdapter b ≠ 0xFFFF), 0x006), (decide (rPrompt b % 4 ≠ 0), 0x008),
    (decide (rPromptLen b = 0) || decide (1048576 < rPromptLen b), 0x010),
    (decide (rMaxNew b = 0) || decide (1048576 < rPromptLen b + rMaxNew b), 0x014),
    (decide (rRing b % 256 ≠ 0), 0x038), (!(pow2In 16 4096 (rRingSize b)), 0x040), (decide (2 < rPolicy b), 0x042),
    (f32Lt (rTemperature b) f32Zero, 0x080), (decide (256 < rTopK b), 0x084), (decide (64 < rBiasCount b), 0x086),
    (!(f32Lt f32Zero (rTopP b)) || below f32Zero f32One (rTopP b), 0x088),
    (below f32Zero f32One (rMinP b) || !(f32Lt (rMinP b) f32One), 0x08C),
    (!(f32Lt f32Zero (rRepetition b)), 0x098), (decide (8 < rEndCount b), 0x09C), (decide (4 < rStopCount b), 0x09D),
    (rBitmap b && decide (rAllowedAddr b % 64 ≠ 0), 0x0A8)].find? Prod.fst).map Prod.snd

/-- A setting that must be finite and is not (R228). -/
def requestNotFinite (b : BlockWord) : Option Nat :=
  ([(rTemperature b, 0x080), (rTopP b, 0x088), (rMinP b, 0x08C), (rPresence b, 0x090),
    (rFrequency b, 0x094), (rRepetition b, 0x098)].find? fun x => !(f32IsFinite x.1)).map Prod.snd

/-- The offset of the first reserved field of a request block that is not 0 (R9). -/
def requestReservedFault (b : BlockWord) : Option Nat :=
  (requestReserved.find? fun f => decide (rField b f.1 f.2.1 / 2 ^ f.2.2 ≠ 0)).map Prod.fst

/-- The areas a request block names (R459): address, bytes, written, offset of the field. -/
def requestAreas (b : BlockWord) : List (Nat × Nat × Bool × Nat) :=
  [(rPrompt b, 4 * rPromptLen b, false, 0x008),
    (rRing b, 16 * rRingSize b, true, 0x038)] ++
    (if rBiasCount b = 0 then [] else [(rBiasAddr b, 8 * rBiasCount b, false, 0x0A0)]) ++
    (if rStopCount b = 0 then [] else [(rStopAddr b, 68 * rStopCount b, false, 0x0B0)])

/-- Check 7 (R42, R228, R459) on the copy of a request block: the failure, or the copy kept. -/
def requestCheck (s : State) (t : Nat) (b : BlockWord) : Except (Nat × Nat) RequestCopy :=
  if rVersion b ≠ 2 then .error (stUnsupported, 0)
  else
    match requestReservedFault b with
    | some o => .error (stBadDescriptor, blockDetail o)
    | none =>
      match requestNotFinite b with
      | some o => .error (stBadDescriptor, blockDetail o)
      | none =>
        match requestRange b with
        | some o => .error (stBadDescriptor, blockDetail o)
        | none =>
          if rRingHead b ≠ 0 then .error (stBadDescriptor, blockDetail 0x1C0)
          else
            match (requestAreas b).find? fun a => !(reachable s t a.1 a.2.1 a.2.2.1) with
            | some a => .error (stAccess, blockDetail a.2.2.2)
            | none =>
              let host (a n : Nat) : List Byte := hostBytes s.host (s.pasid t) a n
              let bias := readBias (host (rBiasAddr b) (8 * rBiasCount b)) (rBiasCount b)
              let stops := readStops (host (rStopAddr b) (68 * rStopCount b)) (rStopCount b)
              if bias.any fun e => !(f32IsFinite e.2 || e.2 == f32NegInf) then
                .error (stBadDescriptor, blockDetail 0x0A0)
              else if stops.any fun r => decide (r.1 = 0) || decide (16 < r.1) then
                .error (stBadDescriptor, blockDetail 0x0B0)
              else .ok { block := b, bias := bias, stops := stops.map Prod.snd }

/-- Checks 1 to 7 of a descriptor at fetch (Table 02-4): the first failure, and the copy an OPEN keeps. -/
def fetchCheck (s : State) (t : Nat) (d : DescWord) : Option (Nat × Nat) × Option RequestCopy :=
  let op := dOpcode d
  if dVersion d ≠ 2 then (some (stUnsupported, 0), none)
  else if !(knownOpcode op) then (some (stUnsupported, 0), none)
  else if providerOpcode op && decide (t ≠ 0) then (some (stAccess, 0), none)
  else
    match reservedDetail d with
    | some o => (some (stBadDescriptor, o), none)
    | none =>
      match rangeDetail d with
      | some o => (some (stBadDescriptor, o), none)
      | none =>
        match (descAreas d).find? fun a => !(reachable s t a.1 a.2.1 a.2.2.1) with
        | some a => (some (stAccess, a.2.2.2), none)
        | none =>
          if op = 0x01 then
            let b := BitVec.ofNat 4096 (leNat (hostBytes s.host (s.pasid t) (dField d 0x10 8) 512))
            match requestCheck s t b with
            | .error e => (some e, none)
            | .ok r => (none, some r)
          else (none, none)

/-! ## Fetching (R37, R39 to R41) -/

/-- The LT9 fetches descriptors of a tenant: it serves, no required IDE stream is down (R387), the latch
does not hold fetching (R412), the tenant is not being reset (R404). -/
def fetchAllowed (s : State) (t : Nat) : Bool :=
  s.serving && !s.ideHeld && !s.boot.latchStops && !(s.tenant t).resetPending

/-- A signed difference of two 32-bit counts. -/
def countDiff (a b : Nat) : Int := signedOf (a + 2 ^ 32 - b % 2 ^ 32) 32

/-- One descriptor fetched: its 64 bytes, checks 1 to 7, the counts. -/
def fetchOne (t q : Nat) (s : State) : State :=
  let x := s.qp t q
  let a := s.sqBase t q + x.fetched % s.sqSize t q * 64
  match readHost s t a 64 with
  | none => qpError t q rsSqFault s
  | some bs =>
    let d : DescWord := BitVec.ofNat 512 (leNat bs)
    let r := fetchCheck s t d
    let f : Fetched := { tenant := t, qp := q, index := x.fetched, desc := d, req := r.2, early := r.1 }
    count t (fun k => { k with descFetched := k.descFetched + 1 })
      (modQp t q (fun x => { x with fetched := x.fetched + 1, queue := x.queue ++ [f] }) s)

/-- Fetches descriptors below the observed tail while R37 allows, at most `fuel`. -/
def fetchSome (t q : Nat) : Nat → State → State
  | 0, s => s
  | fuel + 1, s =>
    let x := s.qp t q
    if x.state = .active ∧ 0 < countDiff x.tail x.fetched ∧
        ((owed s t q + 2 : Nat) : Int) ≤ s.cqSize t q - countDiff x.written x.head then
      fetchSome t q fuel (fetchOne t q s)
    else s

/-- Every descriptor the gate admits, of one queue pair. -/
def fetchReady (t q : Nat) (s : State) : State :=
  if fetchAllowed s t then fetchSome t q 65536 s else s

/-- A doorbell line of a tenant can be read: no required IDE stream is down (R387). An open latch stops
the fetching of descriptors only (R412). -/
def lineReadable (s : State) (t : Nat) : Bool := s.serving && !s.ideHeld && !(s.tenant t).resetPending

/-- The LT9 reads a doorbell line (R39, R41): the tail and head, the faults they can show, then the
fetch. A line that cannot be read now is not held, and the next boundary at which it can be reads it. -/
def readDoorbell (t q : Nat) (s : State) : State :=
  if (s.qp t q).state ≠ .active then s
  else if !(lineReadable s t) then modQp t q (fun x => { x with held := false }) s
  else
    match readHost s t (s.dbAddr t q) 64 with
    | none => qpError t q rsDbFault s
    | some bs =>
      let s := modQp t q (fun x => { x with tail := leAt bs 0 4, head := leAt bs 4 4, held := !x.polled }) s
      let x := s.qp t q
      let ahead := countDiff x.tail x.fetched
      if ahead < 0 ∨ (s.sqSize t q : Int) < ahead then qpError t q rsSqOverflow s
      else if countDiff x.written x.head < 0 then qpError t q rsCqHead s
      else fetchReady t q s

/-- A host write invalidates a cached doorbell line (R39). -/
def execDoorbellInvalidate (tenant qp : Nat) (host : HostUpdate) (s : State) :
    Host.Outcome State Fault Refusal :=
  run (.doorbellInvalidate tenant qp host) s fun s =>
    let s := hostChange host s
    if (s.qp tenant qp).polled then s else readDoorbell tenant qp s

/-- The polling interval of a polled queue pair expires (R40). -/
def execDoorbellPoll (tenant qp : Nat) (host : HostUpdate) (s : State) :
    Host.Outcome State Fault Refusal :=
  run (.doorbellPoll tenant qp host) s fun s =>
    let s := hostChange host s
    if (s.qp tenant qp).polled then readDoorbell tenant qp s else s

/-- The queue pairs whose doorbell line an invalidation covers. -/
def coveredQps (s : State) (pasid base size : Nat) : List (Nat × Nat) :=
  (s.qps.map fun x => (x.1 / 16, x.1 % 16)).filter fun x =>
    decide (s.pasid x.1 = pasid) && decide (base ≤ s.dbAddr x.1 x.2) && decide (s.dbAddr x.1 x.2 < base + size)

/-- An ATS invalidation (R39, R49): each covered line of an ACTIVE queue pair in cached mode is dropped,
translated again and read again, or its queue pair enters ERROR; a module that does not serve drops it only. -/
def execAtsInvalidation (pasid base size : Nat) (host : HostUpdate) (s : State) :
    Host.Outcome State Fault Refusal :=
  run (.atsInvalidation pasid base size host) s fun s =>
    let s := hostChange host s
    forEach (coveredQps s pasid base size) (fun x s =>
      let q := s.qp x.1 x.2
      if q.state = .active ∧ !q.polled then
        let line := ((translate s.host.ranges pasid (s.dbAddr x.1 x.2)).getD 0)
        if !s.serving ∨ translates s x.1 (s.dbAddr x.1 x.2) 64 false then
          readDoorbell x.1 x.2 (modQp x.1 x.2 (fun y => { y with held := false, line := line }) s)
        else qpError x.1 x.2 rsDbFault (modQp x.1 x.2 (fun y => { y with held := false }) s)
      else s) s

/-! ## Enabling (R29 to R31, R379, R428, R430, R432) -/

/-- A queue pair that is not DISABLED. -/
def qpInUse (x : Qp) : Bool := !decide (x.state = .disabled)

/-- Queue pairs of a tenant in ACTIVE, ERROR or STOPPING (R29). -/
def qpsInUse (s : State) (t : Nat) : Nat :=
  ((List.range 16).filter fun q => qpInUse (s.qp t q)).length

/-- The translated doorbell line of a queue pair: its host address in lines of 64 bytes. -/
def lineOf (s : State) (t q : Nat) : Nat := (translate s.host.ranges (s.pasid t) (s.dbAddr t q)).getD 0 / 64

/-- Another queue pair that is in use has the same translated line (R30). -/
def lineShared (s : State) (t q : Nat) : Bool :=
  s.qps.any fun x => decide (x.1 ≠ t * 16 + q) && qpInUse x.2 && x.2.line / 64 == lineOf s t q

/-- The reason an enable fails (Table 18-4, codes 1 to 10 in order), 0 where none does. -/
def enableReason (s : State) (t q : Nat) : Nat :=
  let sq := s.sqSize t q
  let cq := s.cqSize t q
  let areas := [(s.sqBase t q, 64 * sq, false), (s.cqBase t q, 32 * cq, true), (s.dbAddr t q, 64, false)]
  if !s.serving then rsNotReady
  else if t ≠ 0 ∧ s.security.state ≠ .operational then rsLifecycle
  else if (s.tenant t).resetPending then rsResetting
  else if (s.tenant t).qpQuota ≤ qpsInUse s t then rsQuota
  else if !(pow2In 16 65536 sq && pow2In 16 65536 cq) then rsSize
  else if s.sqBase t q % 4096 ≠ 0 ∨ s.cqBase t q % 4096 ≠ 0 then rsBaseAlign
  else if s.dbAddr t q % 64 ≠ 0 then rsDbAlign
  else if areas.any fun a => !(translates s t a.1 a.2.1 a.2.2) then rsTranslate
  else if !(translates s t (s.cqBase t q) (32 * cq) false) then rsTranslate
  else if areas.any fun a => !(inWindows s t a.1 a.2.1 a.2.2) then rsWindow
  else if lineShared s t q then rsDbShared
  else rsNone

/-- Refusal of a write (R416, R430): recorded in the global block for the PF path, in the tenant block
for a VF path. -/
def refuseWrite (path : RegPath) (off kind : Nat) (s : State) : State :=
  match path with
  | .pf => { s with refusedCount := (s.refusedCount + 1) % 2 ^ 32, refusedAddr := off, refusedKind := kind }
  | .vf t => modTenant t (fun x => { x with refusedCount := (x.refusedCount + 1) % 2 ^ 32, refusedOffset := off, refusedKind := kind }) s

/-- The offset a path's write to a tenant block has: in BAR0 of the PF, or in the block for a VF. -/
def pathOffset (path : RegPath) (t off : Nat) : Nat :=
  match path with
  | .pf => tenantBase t + off
  | .vf _ => off

/-- A path reaches the block of a tenant: the PF all of them, a VF its own. -/
def pathReaches (path : RegPath) (t : Nat) : Bool :=
  match path with
  | .pf => true
  | .vf u => u == t

/-- Table 18-1 for the tenant's own fields: refused with kind 10 through the mirror of tenants 1 to 255. -/
def ownFieldKind (path : RegPath) (t : Nat) : Nat :=
  match path with
  | .pf => if t = 0 then 0 else 10
  | .vf _ => 0

/-- A write of 1 to ENABLE (R432). -/
def enableQp (path : RegPath) (t q : Nat) (s : State) : State :=
  let off := pathOffset path t (0x128 + 0x100 * q)
  if !(pathReaches path t) then s
  else if ownFieldKind path t ≠ 0 then refuseWrite path off 10 s
  else
    let x := s.qp t q
    if x.state = .stopping then refuseWrite path off 8 s
    else if x.state ≠ .disabled then s
    else
      let r := enableReason s t q
      if r ≠ 0 then modQp t q (fun x => { x with reason := r }) s
      else
        let polled := decide (s.dbMode t q = 1) || !s.boot.cxlCache
        let line := (translate s.host.ranges (s.pasid t) (s.dbAddr t q)).getD 0
        let s := modQp t q (fun _ => { freshQp with state := .active, polled := polled, line := line }) s
        if polled then s else readDoorbell t q s

/-- A write of 0 to ENABLE (R32, R432): STATE reads STOPPING; the change takes effect at the next
boundary. -/
def disableQp (path : RegPath) (t q : Nat) (s : State) : State :=
  let off := pathOffset path t (0x128 + 0x100 * q)
  if !(pathReaches path t) then s
  else if ownFieldKind path t ≠ 0 then refuseWrite path off 10 s
  else if (s.tenant t).resetPending then refuseWrite path off 11 s
  else
    let x := s.qp t q
    if x.state = .active ∨ x.state = .error then
      modQp t q (fun x => { x with state := .stopping }) s
    else s

def execQpEnable (path : RegPath) (tenant qp : Nat) (s : State) : Host.Outcome State Fault Refusal :=
  run (.qpEnable path tenant qp) s (whenExposed (enableQp path tenant qp))

def execQpDisable (path : RegPath) (tenant qp : Nat) (s : State) : Host.Outcome State Fault Refusal :=
  run (.qpDisable path tenant qp) s (whenExposed (disableQp path tenant qp))

end Sys2Proof.Machine
end

