-- ==== Sys2Proof/Machine/Regs.lean ====
section
/-! DEFINITION. The writable fields of BAR0 (chapters 17 and 18): where each lies, its width, its reset value and
what its access code is; the present value of a field. -/

namespace Sys2Proof.Machine

/-! ## Fields -/

/-- How a field takes a write (Table 00-4). -/
inductive RegKind where
  | rw
  /-- RW until a seal: bit of SEAL_STATE, 6 for the seal of a tenant block -/
  | rwl (bit : Nat)
  | wo
  deriving DecidableEq, Repr

/-- A writable field within a 32-bit word. -/
structure RegField where
  lsb : Nat
  width : Nat
  reset : Nat
  kind : RegKind
  deriving DecidableEq, Repr

def rwField (lsb width reset : Nat) : RegField := { lsb := lsb, width := width, reset := reset, kind := .rw }
def rwlField (lsb width lock : Nat) : RegField := { lsb := lsb, width := width, reset := 0, kind := .rwl lock }
def woField (lsb width : Nat) : RegField := { lsb := lsb, width := width, reset := 0, kind := .wo }

/-- Global block and model slots (Tables 17-2, 17-3); a write of several resets acts in the order listed. -/
def globalFields (o : Nat) : List RegField :=
  match o with
  | 0x28 => [woField 3 1, woField 2 1, woField 1 1, woField 0 1]
  | 0x30 => [woField 0 6]
  | 0x40 => [rwField 0 13 1024]
  | 0x44 => [rwField 0 1 1]
  | 0x48 => [rwField 0 16 64]
  | 0x4C => [rwlField 0 1 0]
  | 0x50 => [rwField 0 6 0]
  | 0x54 => [rwField 0 2 0, rwField 8 1 0]
  | 0x58 => [rwField 0 1 0, rwField 1 1 0]
  | 0x70 => [rwField 0 8 0, rwField 8 8 0, rwField 16 8 0]
  | 0x74 => [rwField 0 16 0]
  | 0x110 => [rwField 0 16 0]
  | _ => if 0x1000 ≤ o ∧ o < 0x2000 ∧ o % 0x100 = 0 then [rwField 8 1 0, rwField 9 1 0] else []

/-- Time block (Tables 17-4, 13-1). -/
def timeFields (o : Nat) : List RegField :=
  match o with
  | 0x04 => [rwField 0 1 0, rwField 1 1 0, rwField 2 1 0]
  | 0x40 => [woField 0 2]
  | _ => []

/-- Security mailbox (Table 17-6): RECORD and the two signature blocks, by words. -/
def mailboxFields (o : Nat) : List RegField :=
  if o = 0x0C then [woField 0 1]
  else if o = 0x40 then [rwlField 0 1 3]
  else if (0x100 ≤ o ∧ o < 0x180) ∨ (0x1000 ≤ o ∧ o < 0x5100) ∨ (0x6000 ≤ o ∧ o < 0xA100) then [rwField 0 32 0]
  else []

/-- Port block (Table 18-8). -/
def portFields (o : Nat) : List RegField :=
  match o with
  | 0x0 => [rwField 0 1 0]
  | 0x4 => [woField 0 1]
  | _ => []

/-- Junction and role block (Table 18-9). -/
def junctionFields (o : Nat) : List RegField :=
  match o with
  | 0x0000 => [rwlField 0 10 5]
  | 0x0004 => [rwlField 0 32 5]
  | 0x0008 => [rwlField 0 10 5, rwlField 15 1 5]
  | 0x0020 => [rwlField 0 32 5]
  | 0x0024 => [rwField 0 4 1]
  | 0x0028 => [woField 0 2]
  | 0x4008 => [rwField 0 2 0, rwField 8 2 0, rwField 16 13 64]
  | 0x400C => [woField 0 1]
  | _ =>
    if 0x2000 ≤ o ∧ o < 0x2400 then [rwField 0 8 0, rwField 8 8 0, rwField 16 8 0, rwField 24 8 0]
    else if 0x3000 ≤ o ∧ o < 0x3040 then [rwField 0 4 1, rwField 8 5 1, rwField 16 6 0, rwField 31 1 0]
    else if 0x5000 ≤ o ∧ o < 0x6000 then [rwField 0 32 0]
    else []

/-- Sluice block (Table 17-10). -/
def sluiceFields (o : Nat) : List RegField :=
  match o with
  | 0x00 => [{ lsb := 0, width := 22, reset := 0x80000, kind := .rwl 4 }]
  | 0x08 => [rwField 0 20 1024]
  | 0x10 => [woField 0 2]
  | 0x14 => [woField 0 21]
  | _ => []

/-- Check unit (Table 17-11); ENABLE of the sluice's own units 0 to 3 reads 1. -/
def ckuFields (u o : Nat) : List RegField :=
  if o = 0 then
    [rwField 0 2 0, rwField 2 1 1, rwField 3 1 1, rwField 4 1 1, rwField 5 1 (bit (decide (u % 16 < 4))), rwField 8 7 32,
      rwField 16 8 0, rwField 24 1 0]
  else []

/-- Weir partition (Table 17-12). -/
def weirFields (o : Nat) : List RegField :=
  if o < 0x60 ∧ o % 0x20 = 0 then [rwField 0 32 0xFFFFFFFF]
  else if o < 0x60 ∧ o % 0x20 = 4 then [rwField 0 32 1048576]
  else []

/-- Queue-pair sub-block (Table 18-3). -/
def qpFields (o : Nat) : List RegField :=
  match o with
  | 0x18 => [rwField 0 17 0]
  | 0x1C => [rwField 0 17 0]
  | 0x20 => [rwField 0 1 0, rwField 16 10 10]
  | 0x24 => [rwField 0 6 0]
  | 0x28 => [woField 0 1]
  | _ => []

/-- Tenant block (Tables 18-2 to 18-6) and its MSI-X table (R437). -/
def tenantFields (o : Nat) : List RegField :=
  if o = 0x10 then [rwlField 0 20 6, rwlField 31 1 6]
  else if o = 0x18 then [woField 0 1]
  else if o = 0x80 then [woField 0 2]
  else if 0x100 ≤ o ∧ o < 0x1100 then qpFields (o % 0x100)
  else if 0x2000 ≤ o ∧ o < 0x2200 ∧ o % 0x40 = 0x10 then [rwlField 0 1 6, rwlField 1 1 6]
  else if o = 0x3000 then [rwField 0 6 0]
  else if 0x3100 ≤ o ∧ o < 0x3200 then [rwField 0 9 1, rwField 16 10 0]
  else if 0x8000 ≤ o ∧ o < 0x8400 then
    (if o % 16 = 12 then [rwField 0 1 1] else [rwField 0 32 0])
  else []

/-- The writable fields of the word at an offset of PF BAR0, beside those of 64 bits. -/
def fieldsAt (a : Nat) : List RegField :=
  if a < 0x10000 then globalFields a
  else if a < 0x20000 then timeFields (a - 0x10000)
  else if a < 0x30000 then (if a = 0x20004 then [rwField 0 12 2400] else [])
  else if a < 0x40000 then mailboxFields (a - 0x30000)
  else if 0x300000 ≤ a ∧ a < 0x308000 then portFields (a % 0x1000)
  else if junctionBase ≤ a ∧ a < junctionBase + 0x10000 then junctionFields (a - junctionBase)
  else if sluiceBase ≤ a ∧ a < sluiceBase + 0x1000 then sluiceFields (a - sluiceBase)
  else if 0x501000 ≤ a ∧ a < 0x505000 then ckuFields ((a - 0x501000) / 0x100) (a % 0x100)
  else if 0x600000 ≤ a ∧ a < 0x602000 then weirFields (a % 0x100)
  else if 0x1000000 ≤ a ∧ a < 0x2000000 then tenantFields (a % 0x10000)
  else []

/-- The 64-bit field at an offset of PF BAR0: its reset value and kind. -/
def wideAt (a : Nat) : Option (Nat × RegKind) :=
  if a = 0x100 ∨ a = 0x108 then some (0, .rwl 0)
  else if a = 0x10028 then some (0, .rwl 1)
  else if a = 0x30048 then some (0, .rw)
  else if a = junctionBase + 0x4000 then some (0, .rw)
  else if 0x501000 ≤ a ∧ a < 0x505000 ∧ a % 0x100 = 0x08 then some (0x1EDC6F41, .rw)
  else if 0x501000 ≤ a ∧ a < 0x505000 ∧ a % 0x100 = 0x10 then some (0xFFFFFFFF, .rw)
  else if 0x1000000 ≤ a ∧ a < 0x2000000 then
    let o := a % 0x10000
    if 0x100 ≤ o ∧ o < 0x1100 ∧ (o % 0x100 = 0 ∨ o % 0x100 = 8 ∨ o % 0x100 = 0x10) then some (0, .rw)
    else if 0x2000 ≤ o ∧ o < 0x2200 ∧ (o % 0x40 = 0 ∨ o % 0x40 = 8) then some (0, .rwl 6)
    else none
  else none

/-! ## Present values -/

/-- The tenant and the offset in its block of an address of PF BAR0. -/
def tenantOf (a : Nat) : Nat := (a - 0x1000000) / 0x10000

/-- An address of a tenant block. -/
def inTenant (a : Nat) : Bool := decide (0x1000000 ≤ a) && decide (a < 0x2000000)

/-- A word of RA_DATA. -/
def inRaData (a : Nat) : Bool := decide (junctionBase + 0x5000 ≤ a) && decide (a < junctionBase + 0x6000)

/-- A word of an MSI-X table. -/
def inMsix (a : Nat) : Bool := inTenant a && decide (0x8000 ≤ a % 0x10000) && decide (a % 0x10000 < 0x8400)

/-- A word of a vector's table entry: address, data, mask. -/
def msixWord (e : MsixVector) (k : Nat) : Nat :=
  if k = 0 then e.address.toNat % 2 ^ 32 else if k = 1 then e.address.toNat / 2 ^ 32 else if k = 2 then e.data.toNat else bit e.masked

/-- The value a field of a word reads as. -/
def fieldNow (s : State) (a : Nat) (f : RegField) : Nat :=
  if inRaData a then leNat ((List.range 4).map fun i => s.junction.raData.getD (a - (junctionBase + 0x5000) + i) 0)
  else if inMsix a then msixWord (s.vector (tenantOf a) (a % 0x10000 / 16 % 64)) (a % 16 / 4)
  else s.reg a f.lsb f.reset

/-- The seal that locks a field of this kind has been set (R416, R429). -/
def sealedNow (s : State) (a : Nat) (k : RegKind) : Bool :=
  match k with
  | .rwl 6 => (s.tenant (tenantOf a)).sealed
  | .rwl n => s.seals.getLsbD n
  | _ => false

/-! ## Measurements 5 to 8 (R386) -/

/-- A stored RWL field whose seal is set. -/
def sealedKey (s : State) (k : Nat) : Bool :=
  let a := k / 32 * 4
  (match wideAt a with
    | some w => sealedNow s a w.2
    | none => (fieldsAt a).any fun f => decide (a * 8 + f.lsb = k) && sealedNow s a f.kind)

/-- The code of a slot's state (Table 17-3). -/
def slotCode : SlotState → Nat
  | .empty => 0 | .loading => 1 | .ready => 2 | .degraded => 3

/-- What measurements 5 to 8 report from now on. -/
def takeSnapshot (s : State) : State :=
  { s with security := { s.security with snapshot :=
    { mapGen := s.faults.mapGen, tiles := s.faults.tiles, nbus := s.faults.nbus, policy := s.reg 0x30040 0 0,
      ideRequired := s.reg 0x4C 0 0, enrolled := s.security.enrolled, sealedRegs := s.regs.filter fun r => sealedKey s r.1,
      slots := s.slots.map fun x => (x.1, slotCode x.2.state, (x.2.package.map fun p => p.hash.toNat).getD 0),
      adapters := s.adapters.map fun x => (x.1, x.2.owner, (x.2.package.map fun p => p.hash.toNat).getD 0),
      tables := s.tableSets.map fun x => x.package.hash.toNat,
      tenants := s.tenants.filterMap fun x => x.2.params.map fun p => (x.1, p) } } }

end Sys2Proof.Machine
end

