-- ==== Sys2Proof/Machine/Ttb.lean ====
section
/-! DEFINITION. The timetable builder (R15, R16, R127, R287 to R293): shape classes, variants, the length
of each section and where it starts. -/

namespace Sys2Proof.Machine

/-! ## Shape classes (Table 11-1, R288) -/

/-- The limits of a class: candidate rows and prompt-chunk tokens. -/
def classLimits (c : Nat) : Nat × Nat :=
  ([(256, 0), (1024, 0), (4096, 0), (256, 2048), (1024, 2048), (4096, 2048), (1024, 8192), (4096, 8192)]).getD c (4096, 8192)

/-- The lowest-numbered class whose two limits hold. -/
def shapeClass (rows tokens : Nat) : Nat :=
  ((List.range 8).find? fun c => decide (rows ≤ (classLimits c).1) && decide (tokens ≤ (classLimits c).2)).getD 7

/-- Candidate rows of a step: each decoding sequence's base row and its drafts (R12). -/
def candidateRows (l : List RowPlan) : Nat :=
  sumOf (l.map fun r => if r.chunk then 0 else r.nodes + 1)

/-- Prompt-chunk tokens of a step. -/
def chunkTokens (l : List RowPlan) : Nat :=
  sumOf (l.map fun r => if r.chunk then r.chunkLast + 1 - r.chunkFirst else 0)

/-- The final rows of R137. -/
def finalRows (l : List RowPlan) : Nat := (l.filter fun r => r.chunk && r.lastChunk).length

/-- A variant as the journal codes it (Table 11-10): [0] hot, [1] derated, [3:2] envelope level. -/
def variantCode (hot derated : Bool) (level : Nat) : Nat := bit hot + 2 * bit derated + 4 * level

/-! ## Section lengths (Table 11-4) -/

/-- The greatest over the quadrants of a mask. -/
def overQuads (mask : Nat) (f : Nat → Nat) : Nat :=
  maxOf (((List.range 4).filter fun q => bitOf mask q).map f)

/-- Entries the APW of a quadrant walks: every logical page visible to or written by the rows of the
sequences homed there (R196). -/
def walkEntries (l : List RowPlan) (q : Nat) : Nat :=
  sumOf ((l.filter fun r => r.home == q).map fun r =>
    (if r.chunk then r.chunkLast else r.committed + r.nodes) / 256 + 1)

/-- Rule 1: ceil(e / 1024) + 4 slots. -/
def walkSlots (mask : Nat) (l : List RowPlan) : Nat :=
  overQuads mask fun q => ceilDiv (walkEntries l q) 1024 + 4

/-- Output blocks of 64 rows of a tensor homed in a quadrant (R81, R127). -/
def homedBlocks (p : Package) (t : Tensor) (q : Nat) : Nat :=
  ((List.range (ceilDiv t.rows 64)).filter fun k =>
    let b := (t.dataOffset + 64 * k * t.columns * elementBits t.format / 8) / 2097152
    ((p.origins[b]?).map Origin.home).getD 0 == q).length

/-- One quadrant's pass of a projection (R127): the greater of the bond time at 40,960 / 3 bytes per aclk
and the tile time, in whole slots. With no row there is no work item (R128), so the pass is empty (DEDUCED,
log 32). -/
def projectionPass (p : Package) (t : Tensor) (q rows tiles : Nat) : Nat :=
  if rows = 0 then 0
  else
    let n := homedBlocks p t q
    let perBlock := ceilDiv (t.columns * elementBits t.format) 512
    let bytes := n * 64 * t.columns * elementBits t.format / 8 +
      (if t.group = 0 then 0 else n * 64 * t.columns / t.group)
    let bond := ceilDiv (3 * bytes) (40960 * 64)
    let tile := if tiles = 0 then 0 else ceilDiv (n * perBlock * rows) (tiles * 64)
    max bond tile

/-- The active tiles a timetable counts with: DA and PA by quadrant. -/
abbrev Tiles := List Nat × List Nat

/-- This module's active tiles. -/
def ownTiles (s : State) : Tiles := ((List.range 4).map (daActive s), (List.range 4).map (paActive s))

/-- DA tiles for the shared weights of a projection: 8 fewer where an adapter of the step's rows targets it
(R132). -/
def sharedTiles (s : State) (tiles : Tiles) (l : List RowPlan) (t : Tensor) (q : Nat) : Nat :=
  let n := tiles.1.getD q 0
  if adapterTargets s l t then n - 8 else n

/-- The tiles a PA pass runs on: the DA in DA prompt mode (R139). -/
def promptTiles (tiles : Tiles) (q : Nat) : Nat :=
  if tiles.2.getD q 0 = 0 then tiles.1.getD q 0 else tiles.2.getD q 0

/-- The length of a section in slots. Rules 4 to 11 need the firmware's packing of jobs and operations,
which the spec leaves to it (log 13). -/
def sectionLength (s : State) (tiles : Tiles) (p : Package) (l : List RowPlan) (variant : Nat) (e : Section) : Nat :=
  let tokens := chunkTokens l
  match e.rule with
  | 0 => e.length
  | 1 => walkSlots e.quads l
  | 2 =>
    match p.tensors[e.tensor]? with
    | some t =>
      let rows := candidateRows l + (if t.role = 0x0D then finalRows l else 0)
      overQuads e.quads fun q => projectionPass p t q rows (sharedTiles s tiles l t q)
    | none => 0
  | 3 =>
    match p.tensors[e.tensor]? with
    | some t => overQuads e.quads fun q => projectionPass p t q tokens (promptTiles tiles q)
    | none => 0
  | r => Config.sectionSlots s.fwVersion r e.tensor (candidateRows l) tokens variant s.faults.mapGen

/-! ## Placing sections (R290, R291, R330) -/

/-- A section starts no earlier than the end of the latest section before it on the same engine in a
quadrant both run. -/
def engineFree (done : List Placed) (e : Section) : Nat :=
  maxOf ((done.filter fun x => x.engine == e.engine && (List.range 4).any fun q => bitOf x.quads q && bitOf e.quads q).map
    fun x => x.startSlot + x.length)

/-- A module's timetable as far as it is placed: the start of the list being placed, the starts of its
entries so far, the sections placed. -/
structure Placing where
  base : Nat
  mine : List Nat
  done : List Placed
  deriving DecidableEq, Repr

/-- Where a module would start a section. -/
def ownStart (m : Placing) (e : Section) : Nat :=
  let anchor := if e.anchor = 0xFFFF then m.base else m.mine.getD e.anchor m.base
  max (anchor + e.offset) (engineFree m.done e)

/-- Places one section on every module of a step; an exchange section starts at the latest start over them
(R330). -/
def placeSection (lens : List (Section → Nat)) (e : Section) (ms : List Placing) : List Placing :=
  let latest := maxOf (ms.map fun m => ownStart m e)
  List.zipWith (fun (m : Placing) (len : Section → Nat) =>
    let start := if e.engine = 6 then latest else ownStart m e
    { m with mine := m.mine ++ [start], done := m.done ++ [{ engine := e.engine, quads := e.quads, startSlot := start, length := len e, flags := e.flags, tensor := e.tensor }] }) ms lens

/-- Places every list in turn: each after the first starts at the start of the first entry of the list
before it. -/
def placeLists (lens : List (Section → Nat)) : List (List Section) → List Placing → List Placing
  | [], ms => ms
  | l :: r, ms =>
    let ms := l.foldl (fun ms e => placeSection lens e ms) ms
    placeLists lens r (ms.map fun m => { m with base := m.mine.headD m.base, mine := [] })

/-- The lists of a template in the order of R290. -/
def templateOrder (t : Template) : List (List Section) :=
  [t.prologue] ++ (t.layerMap.map fun i => t.layerLists.getD i []) ++ [t.epilogue]

/-- Slots rounded up to whole 16-slot periods, at least one (R176, R291). -/
def wholePeriods (n : Nat) : Nat := max 1 (ceilDiv n 16) * 16

/-- The timetable of a step on the first of some modules, given their active tiles, and its length in
slots: the latest end over them (R16, R330). -/
def buildTimetable (s : State) (modules : List Tiles) (p : Package) (cls mode variant : Nat) (l : List RowPlan) :
    List Placed × Nat :=
  match p.templates[cls * 2 + mode]? with
  | none => ([], 16)
  | some t =>
    let lens := modules.map fun m => sectionLength s m p l variant
    let ms := placeLists lens (templateOrder t) (modules.map fun _ => { base := 0, mine := [], done := [] })
    let stop := maxOf (ms.map fun m => maxOf (m.done.map fun x => x.startSlot + x.length))
    let extra := if variant = 0 then 0 else 16 * Config.variantPeriods s.fwVersion (cls * 2 + mode) variant
    ((ms.headD { base := 0, mine := [], done := [] }).done, wholePeriods stop + extra)

end Sys2Proof.Machine
end

