-- ==== Sys2Proof/Machine/Rows.lean ====
section
/-! DEFINITION. Rows 1 to 3 of the step boundary (Table 01-3): what begins a boundary, the commit, the pass
of R54 and the delivery of tokens, completions and interrupts. -/

namespace Sys2Proof.Machine

/-! ## The step just ended -/

/-- The step whose end the boundary is: one that was started. -/
def ended (s : State) : Option Step :=
  match s.step with
  | some x => if x.started then some x else none
  | none => none

/-- The ended step is a main step. -/
def endedMain (s : State) : Option Step :=
  match ended s with
  | some x => if x.kind = .main then some x else none
  | none => none

/-- The slots still to pass until a step that started at `t0` has taken `n` slots (R16, R296). -/
def slotsLeft (c : Clock) (t0 n now : Nat) : Nat :=
  let slot := 64 * c.increment / 6
  let due := t0 * 2 ^ 32 + n * slot
  if slot = 0 then 0 else (due - now * 2 ^ 32 + slot / 2) / slot

/-- A step in flight plays out to the end of its timetable. -/
def playOut (s : State) : State :=
  match ended s with
  | some x => passSlots (slotsLeft s.clock x.startTime x.slots s.now) s
  | none => s

/-! ## The start of a boundary -/

/-- Sensors `k` on of a kind, as a table. -/
def sampled (n k : Nat) (keys : List Nat) : FMap Nat := keys.map fun i => (i, Config.measured n (k + i))

/-- Sensors of a signed quantity of 16 bits. -/
def sampledSigned (n k : Nat) (keys : List Nat) : FMap Int := keys.map fun i => (i, signedOf (Config.measured n (k + i)) 16)

/-- What the sensors of Table 16-2 read at a boundary: free values (log 25). A shed phase carries no current. -/
def sampleSensors (s : State) : State :=
  let n := takeFree s
  let m (k w : Nat) : Nat := Config.measured n.1 k % 2 ^ w
  let phases := (List.range 26).filter fun p => !(s.power.shed.contains p)
  let channels := List.range 20 ++ (List.range 16).map (· + 32)
  { n.2 with power := { s.power with vin := m 0 16, iin := m 1 32, pin := m 2 32, energy := (s.power.energy + m 3 64) % 2 ^ 64, coolantIn := m 4 16, coolantOut := m 5 16, phaseCurrent := sampled n.1 100 phases, phaseTemp := sampled n.1 200 (List.range 26), rail := sampled n.1 300 (List.range 12), dieTemp := sampledSigned n.1 400 (List.range 64), pkgTemp := sampledSigned n.1 500 channels } }

/-- The highest power and the layer temperatures recorded since the previous row 10 (R170, R398). -/
def recordTelemetry (b : BoundaryInput) (s : State) : State :=
  let s := sampleSensors s
  { s with power := { s.power with pavg := b.powerPeak, layerTemp := b.layerTemps.foldl (fun m x => fmSet m x.1 x.2) s.power.layerTemp } }

/-- An ENROLL or REVOKE of the step before comes into force (Table 15-4). -/
def enrollPending (s : State) : State :=
  let keys := s.security.enrolling.foldl (fun l e =>
    if e.1 then l ++ [e.2] else l.filter fun k => decide (k ≠ e.2)) s.security.enrolled
  { s with security := { s.security with enrolled := keys, enrolling := [] } }

/-- A boundary begins: its stamp, the register fields that take effect at it (R26, R417). -/
def beginBoundary (b : BoundaryInput) (s : State) : State :=
  let s := hostChange b.host s
  let s := takeSnapshot { s with boundary := s.boundary + 1, stamp := s.now, latched := s.regs }
  enrollPending (armUnits (recordTelemetry b s))

/-- A prefix lookup that is done: the sequence's entries name the matched groups (R210). -/
def adoptMatch (i : Nat) (s : State) : State :=
  let c := s.ctx i
  if c.matched.isEmpty ∨ c.state ≠ .admitted then modCtx i (fun c => { c with matched := [] }) s
  else
    let gs := c.matched
    let n := 256 * gs.length
    let s := forEach gs addRef s
    let toks := (gs.map fun g => (s.group g).tokens).flatten
    let need := piecesFor gs.length - c.pieces
    let s := modCtx i (fun c =>
      { c with pages := gs.map some, committed := n, before := n, kvLen := n, hist := toks, hashed := List.range gs.length, matched := [], pieces := c.pieces + need }) { s with piecesUsed := s.piecesUsed + need }
    count c.tenant (fun k => { k with prefixTokens := k.prefixTokens + n }) s

def adoptMatches (s : State) : State :=
  forEach ((s.ctxs.filter fun c => !c.2.matched.isEmpty).map Prod.fst) adoptMatch s

/-- IMPORT_PREFIXes whose last group reached T0 in the row 4 before complete OK (R206). -/
def finishImports (s : State) : State :=
  let done := s.imports.filter ImportJob.arrived
  forEach done (fun j s => completeRun j.run stOk 0 0 (BitVec.ofNat 128 j.length) s)
    { s with imports := s.imports.filter fun j => !j.arrived }

/-- A package that lost a block since the boundary before (R285): a model slot becomes DEGRADED and its
sequences end; sequences of an unusable adapter end FAULTED. -/
def markLost (k : Nat) (s : State) : State :=
  let x := s.slot k
  if x.lost ∧ x.state = .ready then
    let seqs := (s.ctxs.filter fun c => c.2.slot == k && c.2.replay.isNone && (c.2.state.live || decide (c.2.state = .draining))).map Prod.fst
    let s := forEach seqs (fun i s =>
      endSeq .faulted (if x.voidedCtxs.contains i then stFaulted else stModelUnavailable) i s) s
    modSlot k (fun x => { x with state := .degraded, lost := false }) (endJobs k s)
  else modSlot k (fun x => { x with lost := false }) s

/-- A LOST block, and one whose package has left, keeps no model waiting: the model's other sequences go on
without the adapter (R284, R285; DEDUCED, log 31). -/
def dropLostWaits (s : State) : State :=
  { s with slots := fmMap s.slots fun _ x =>
      { x with waitingBlocks := x.waitingBlocks.filter fun n =>
          !decide ((s.block n).state = .lost) && !decide ((s.block n).state = .unmapped) } }

def markLosses (s : State) : State :=
  let s := dropLostWaits s
  let s := forEach ((s.slots.filter fun x => x.2.lost).map Prod.fst) markLost s
  let bad := (s.adapters.filter fun a => a.2.unusable).map Prod.fst
  let seqs := (s.ctxs.filter fun c => bad.contains c.2.adapter && c.2.replay.isNone && (c.2.state.live || decide (c.2.state = .draining))).map Prod.fst
  forEach seqs (endSeq .faulted stFaulted) s

/-- Sequences whose private data is damaged beyond recompute end FAULTED (R368). -/
def endDamaged (s : State) : State :=
  let l := s.faults.damaged
  forEach l (fun i s =>
    let c := s.ctx i
    if c.replay.isNone ∧ (c.state.live ∨ c.state = .draining) then endSeq .faulted stFaulted i s else s)
    { s with faults := { s.faults with damaged := [] } }

/-- A queue pair that is stopping at this boundary (R32): its fetched descriptors are discarded, its live
sequences drain in silence, its ended ones return to FREE. -/
def stopQp (t q : Nat) (s : State) : State :=
  let x := s.qp t q
  if x.state ≠ .stopping ∨ x.draining then s
  else
    let mine := (s.ctxs.filter fun c => c.2.tenant == t && c.2.qp == q && c.2.replay.isNone).map Prod.fst
    let s := modQp t q (fun x => { x with queue := [], draining := true }) s
    forEach mine (fun i s =>
      let c := s.ctx i
      if c.state.live then
        drainSeq i { status := stCancelled, detail := 0, reason := erCancelled, toFree := true, silent := true } s
      else if c.state = .done ∨ c.state = .faulted then endExports i (freeCtx i s)
      else s) s

def stopQps (s : State) : State :=
  forEach (fmKeys s.qps) (fun k s => stopQp (k / 16) (k % 16) s) s

/-! ## Function-level resets at the boundary (R390) -/

/-- A governed transfer of a tenant's own descriptors. -/
def ofTenant (t : Nat) : Waiter → Bool
  | .reads x _ _ => x == t
  | .output x _ _ => x == t
  | _ => false

/-- Part of the pass for a tenant whose reset takes effect: its contexts end as R51 sets out, its handles
are unbound, its nodes removed, its jobs gone; the references leave in row 4. -/
def resetTenant (t : Nat) (s : State) : State :=
  let ctxs := (s.ctxs.filter fun c => c.2.tenant == t && !decide (c.2.state = .free)).map Prod.fst
  let s := { s with exports := s.exports.filter fun j => j.run.tenant != t, imports := s.imports.filter fun j => j.tenant != t, lookups := s.lookups.filter fun l => l.run.tenant != t, outgoing := s.outgoing.filter fun o => o.run.tenant != t, governed := s.governed.filter fun g => !(ofTenant t g.who), outbox := s.outbox.filter fun c => c.tenant != t, ringOut := s.ringOut.filter fun x => (s.ctx x.1).tenant != t }
  let s := forEach ctxs freeCtx s
  let s := { s with step := s.step.map fun x => { x with results := x.results.filter fun r => !(ctxs.contains r.ctx), lookups := x.lookups.filter fun l => l.run.tenant != t } }
  let s := forEach (s.bindings.filter fun b => b.tenant == t) unbind s
  let s := { s with outbox := s.outbox.filter fun c => c.tenant != t }
  let s := removeNodes (fun n => n.tenant == t) s
  modTenant t (fun x => { x with resetArmed := false, clearAt := s.boundary + 2 }) s

def resetTenants (s : State) : State :=
  forEach ((s.tenants.filter fun x => x.2.resetArmed).map Prod.fst) resetTenant s

/-! ## Row 1: commit (R233, R240, R25, R300) -/

/-- The sequence read shared pages in a step: a page below its committed length has several references. -/
def readShared (s : State) (c : Ctx) (committed : Nat) : Bool :=
  (List.range (ceilDiv committed 256)).any fun k =>
    match pageAt c k with
    | some g => decide (2 ≤ (s.group g).refs)
    | none => false

def resultOf (x : Step) (i : Nat) : Option SeqResult := x.results.find? fun r => r.ctx == i

/-- The journal record of a sequence's part in a step (Table 11-10). -/
def journalOf (s : State) (x : Step) (r : RowPlan) : Journal :=
  let c := s.ctx r.ctx
  { step := x.counter, committed := r.committed, stepNo := c.stepNo, mode := x.mode, nodes := r.nodes,
    accepted := if x.voided then 0 else ((resultOf x r.ctx).map fun y => y.tokens.length).getD 0,
    voided := x.voided, subst := x.substituted, shared := readShared s c r.committed, promptStep := r.chunk,
    cls := x.cls, variant := variantCode x.hot x.derated x.level,
    chunkFirst := if r.chunk then r.chunkFirst else 0, chunkLast := if r.chunk then r.chunkLast else 0,
    drafts := if r.chunk then [] else r.drafts, unitMap := s.faults.mapGen, startTime := nsOf x.startTime, last := r.lastChunk }

/-- The adaptive node count after a step that was not voided (R240). -/
def adapt (r : RowPlan) (drafted : Nat) (c : Ctx) : Ctx :=
  let c := { c with sinceFall := c.sinceFall + 1 }
  if r.chunk ∨ r.nodes = 0 then c
  else if 0 < drafted then
    { c with adaptive := if r.probe then r.nodes else c.adaptive, zeroRun := 0 }
  else if r.probe then c
  else if 4 ≤ c.zeroRun + 1 then { c with adaptive := c.adaptive / 2, zeroRun := 0, sinceFall := 0 }
  else { c with zeroRun := c.zeroRun + 1 }

/-- The draft model's committed length after a main step its draft steps served (R225). -/
def draftCommit (r : RowPlan) (depth drafted new : Nat) (c : Ctx) : Nat :=
  if r.nodes = 0 ∨ c.draftLen + 1 < r.committed then c.draftLen
  else min new (r.committed + min drafted (depth - 1) + 1)

/-- The prompt and appended tokens a chunk processes: its positions not yet committed. A pending token that
an APPEND made the first pending prompt token is one of them (R58; DEDUCED, log 30). -/
def promptTokens (r : RowPlan) : Nat := r.chunkLast + 1 - max r.chunkFirst r.committed

/-- The commit of one decoding sequence. -/
def commitDecode (source depth : Nat) (r : RowPlan) (y : SeqResult) (c : Ctx) : Ctx :=
  let k := y.tokens.length
  let n := r.committed + k
  let d := if source = 2 then draftCommit r depth y.drafted n c else c.draftLen
  adapt r y.drafted
    { c with committed := n, kvLen := n, hist := c.hist ++ y.tokens, drafts := y.nextDrafts, generated := c.generated + k, draftLen := d, firstToken := c.firstToken && decide (k = 0) }

/-- The commit of one prompt chunk: its positions are processed; the chunk that completes the pending
tokens has selected a token (R28, R137, R216). -/
def commitChunk (r : RowPlan) (y : Option SeqResult) (c : Ctx) : Ctx :=
  let n := max c.committed (r.chunkLast + 1)
  let hist := if r.chunkLast < c.committed then c.hist else c.hist.take r.chunkFirst ++ r.drafts
  let c := { c with processed := c.processed + promptTokens r }
  let c := { c with committed := n, kvLen := r.chunkLast + 1, hist := hist }
  let c := adapt r 0 c
  match y with
  | none => c
  | some y =>
    { c with hist := c.hist ++ y.tokens, drafts := y.nextDrafts, generated := y.tokens.length, decoding := !y.tokens.isEmpty, firstToken := c.firstToken && y.tokens.isEmpty }

/-- The commit of one row of the length table. -/
def commitRow (x : Step) (r : RowPlan) (s : State) : State :=
  let c := s.ctx r.ctx
  if c.state = .free ∨ c.committed ≠ r.committed then s
  else
    let s := modCtx r.ctx (fun c => { c with journal := (journalOf s x r :: c.journal).take 256 }) s
    if x.voided then s
    else
      let p := (s.slot x.slot).package
      let source := (p.map Package.draftSource).getD 0
      let parents := ((p.bind Package.draft).map DraftShape.parents).getD []
      let y := resultOf x r.ctx
      if r.chunk then modCtx r.ctx (commitChunk r y) s
      else
        match y with
        | some y => modCtx r.ctx (commitDecode source (shapeDepth parents r.nodes) r y) s
        | none => modCtx r.ctx (adapt r 0) s

/-- The results of a step with the mark of a first token (Table 09-4), taken before the commit. -/
def markFirst (s : State) (x : Step) : Step :=
  { x with results := if x.voided then [] else x.results.map fun y => { y with first := (s.ctx y.ctx).firstToken } }

/-- A draft step that catches up commits its chunks to the draft model (R87). -/
def commitDrafts (x : Step) (s : State) : State :=
  if x.voided then s
  else
    forEach (x.rows.filter RowPlan.chunk) (fun r s =>
      modCtx r.ctx (fun c => { c with draftLen := max c.draftLen (r.chunkLast + 1) }) s) s

/-- Row 1. -/
def commitRowOne (s : State) : State :=
  let s := { s with ctxs := fmMap s.ctxs fun _ c => { c with before := c.committed } }
  match ended s with
  | none => s
  | some x =>
    match x.kind with
    | .main =>
      let y := markFirst s x
      let s := { s with step := some y }
      forEach x.rows (commitRow y) s
    | .draft _ => commitDrafts x s
    | _ => s

/-! ## Row 2: the pass (R54) -/

/-- A descriptor of any opcode takes effect. -/
def applyDescriptor (replay : Fetched → State → State) (d : Fetched) (s : State) : State :=
  match dOpcode d.desc with
  | 0x01 => takeEffect openEffect d s
  | 0x02 => takeEffect appendEffect d s
  | 0x03 => takeEffect pauseEffect d s
  | 0x04 => takeEffect resumeEffect d s
  | 0x05 => takeEffect cancelEffect d s
  | 0x06 => takeEffect closeEffect d s
  | 0x07 => takeEffect exportEffect d s
  | 0x08 => takeEffect importEffect d s
  | 0x09 => takeEffect dropEffect d s
  | 0x10 => takeEffect lookupEffect d s
  | 0x11 => takeEffect queryEffect d s
  | 0x12 => takeEffect fenceEffect d s
  | 0x20 => takeEffect loadModelEffect d s
  | 0x21 => takeEffect unloadModelEffect d s
  | 0x22 => takeEffect loadAdapterEffect d s
  | 0x23 => takeEffect unloadAdapterEffect d s
  | 0x24 => takeEffect loadTableEffect d s
  | 0x25 => takeEffect replay d s
  | 0x26 => takeEffect setTenantEffect d s
  | _ => takeEffect (fun d s => complete d stUnsupported 0 s) d s

/-- The fetched descriptors of a queue pair take effect in SQ order, up to a FENCE (R46, R48). -/
def drainQueue (replay : Fetched → State → State) (t q : Nat) : Nat → State → State
  | 0, s => s
  | fuel + 1, s =>
    match (s.qp t q).queue with
    | [] => s
    | d :: _ => if fenceHolds (s.qp t q) then s else drainQueue replay t q fuel (applyDescriptor replay d s)

/-- Part 1: the descriptors that take effect, in the order of R46. -/
def passDescriptors (replay : Fetched → State → State) (s : State) : State :=
  forEach (fmKeys s.qps) (fun k s =>
    drainQueue replay (k / 16) (k % 16) (s.qp (k / 16) (k % 16)).queue.length s) s

/-- Part 2: a DORMANT sequence past its expiry is evicted (R71). -/
def expireDormant (s : State) : State :=
  forEach ((s.ctxs.filter fun c => decide (c.2.state = .dormant) && decide (c.2.expiry < s.stamp)).map Prod.fst)
    (endSeq .done stEvicted) s

/-- Part 3: every sequence then in DRAINING completes; an EXPORT_PREFIX that waits on one that is now FREE
ends. -/
def finishDrains (s : State) : State :=
  forEach ((s.ctxs.filter fun c => decide (c.2.state = .draining) && c.2.replay.isNone).map Prod.fst) (fun i s =>
    let s := finishDraining i s
    if (s.ctx i).state = .free then endExports i s else s) s

/-- EXPORT_PREFIXes that wait on a sequence now FAULTED end as Table 03-2 has it for that state. -/
def faultExports (s : State) : State :=
  let gone := s.exports.filter fun j => decide ((s.ctx j.ctx).state = .faulted)
  forEach gone (fun j s => completeRun j.run stIllegalState 0 j.handle 0 s)
    { s with exports := s.exports.filter fun j => !decide ((s.ctx j.ctx).state = .faulted) }

/-- Row 2. -/
def passRow (replay : Fetched → State → State) (s : State) : State :=
  let s := settleLoads (s.loads.length + 1) s
  let s := endDamaged (markLosses (finishImports (adoptMatches s)))
  let s := resetTenants (stopQps s)
  let s := passDescriptors replay s
  let s := finishDrains (expireDormant s)
  releaseAdapters (releaseSets (finishExports (faultExports s)))

/-! ## Row 3: deliver (R43, R47, R69, R241, R242) -/

/-- A token delivered at this boundary is late (R69). -/
def lateAt (stamp : Nat) (c : Ctx) : Bool :=
  match nextDeadline c with
  | some d => decide (d < stamp)
  | none => false

/-- The ring entries of a sequence's accepted tokens. -/
def tokenEntries (c : Ctx) (y : SeqResult) (late : Bool) : List (BitVec 128) :=
  let k := y.tokens.length
  y.tokens.mapIdx fun i t =>
    let flags := 2 * bit late + 4 * bit (decide (i < y.drafted)) + 8 * bit (decide (i + 1 = k)) + 16 * bit (y.first && i == 0)
    ringEntry t (c.committed + 1 + i - k) flags i 0 0 c.stepNo

/-- One sequence's accepted tokens are delivered, and its state moves on (Table 03-3). -/
def deliverSeq (x : Step) (y : SeqResult) (acc : List (Nat × BitVec 128) × State) : List (Nat × BitVec 128) × State :=
  let s := acc.2
  let c := s.ctx y.ctx
  let k := y.tokens.length
  let late := lateAt s.stamp c
  let entries := (tokenEntries c y late).map fun e => (y.ctx, e)
  let s := count c.tenant (fun g => { g with tokensDelivered := g.tokensDelivered + k, tokensLate := g.tokensLate + (if late then k else 0) }) s
  let s := refreshFinal y.ctx (modCtx y.ctx (fun c =>
    if k = 0 then c
    else { c with delivered := c.delivered + k, started := true, lastDelivery := s.stamp, late := c.late || late, lateNow := late }) s)
  let last := (x.rows.find? fun r => r.ctx == y.ctx).any fun r => r.chunk
  let s :=
    if !(c.state.live) then s
    else if y.reached then
      queueFinal y.ctx stOk 0 (queueEnd y.ctx y.endReason y.stopIndex
        (modCtx y.ctx (fun c => { c with state := .done, drain := none, drafts := [] }) s))
    else if last then
      modCtx y.ctx (fun c =>
        if !c.decoding then c
        else if c.state = .prompt then { c with state := .decode, decoding := false }
        else if c.prior = .prompt then { c with prior := .decode, decoding := false }
        else c) s
    else s
  (acc.1 ++ entries, s)

/-- A decoding sequence whose last recompute chunk ended returns to DECODE (R216). -/
def resumeDecode (x : Step) (s : State) : State :=
  if x.voided then s
  else
    forEach (x.rows.filter fun r => r.chunk && r.recompute) (fun r s =>
      modCtx r.ctx (fun c =>
        if !c.decoding ∨ c.kvLen < c.committed then c
        else if c.state = .prompt then { c with state := .decode, decoding := false }
        else if c.prior = .prompt ∧ c.state.live then { c with prior := .decode, decoding := false }
        else c) s) s

/-- The token ring of a sequence can be written. -/
def ringReachable (s : State) (c : Ctx) : Bool :=
  reachable s c.tenant (rRing c.req.block) (16 * rRingSize c.req.block) true

/-- A token whose ring entry could not be written was not delivered: the counts of delivered tokens do not
hold it (R43, Table 02-8; DEDUCED, log 30). -/
def undeliver (e : Nat × BitVec 128) (s : State) : State :=
  if bitOf e.2.toNat 64 then s
  else
    let late := bit (bitOf e.2.toNat 65)
    count (s.ctx e.1).tenant (fun g => { g with tokensDelivered := g.tokensDelivered - 1, tokensLate := g.tokensLate - late })
      (refreshFinal e.1 (modCtx e.1 (fun c => { c with delivered := c.delivered - 1 }) s))

/-- One ring entry written, with the phase of its pass (R43); a write that fails ends a live sequence
(R45). -/
def writeRing (e : Nat × BitVec 128) (s : State) : State :=
  let c := s.ctx e.1
  let size := rRingSize c.req.block
  let a := rRing c.req.block + c.ringWritten % size * 16
  let w := e.2.toNat + (if phaseOf c.ringWritten size then 2 ^ 127 else 0)
  match (if size = 0 then none else writeHost s c.tenant a (leBytes w 16)) with
  | some s => modCtx e.1 (fun c => { c with ringWritten := c.ringWritten + 1 }) s
  | none => drainSeq e.1 (drainFor stAccess 0 erAccess) (undeliver e s)

/-- The order of completions: those of one SQ by its order, where a FINAL stands at its OPEN (R47), so before the
completion of the CANCEL or CLOSE that caused it (R59). -/
def completionKey (c : Completion) : List Int :=
  [(c.tenant * 16 + c.qp : Nat), (c.index * 2 + bit c.final : Nat)]

/-- The MSI-X events of a boundary's writes (R47, R50): completions, then ring notifications. -/
def ringEvents (entries : List (Nat × BitVec 128)) (s : State) : State :=
  forEach (dedup (entries.map Prod.fst)) (fun i s =>
    let c := s.ctx i
    let b := c.req.block
    let ends := entries.any fun e => e.1 == i && bitOf e.2.toNat 64
    if rVector b = 0xFF then s
    else if rPolicy b = 1 ∨ (rPolicy b = 2 ∧ ends) then raiseVector c.tenant (rVector b) s
    else s) s

/-- The writes of row 3, unless a required IDE stream holds them back (R387). -/
def writeOut (s : State) : State :=
  if s.ideHeld then s
  else
    let entries := s.ringOut
    let s := forEach entries writeRing { s with ringOut := [] }
    let s := forEach (fmKeys s.qps) (fun k s => settleFence (k / 16) (k % 16) s) s
    let done := sortBy (fun a b => lexLt (completionKey a) (completionKey b)) s.outbox
    let s := forEach done writeCompletion { s with outbox := [] }
    let s := forEach done (fun c s => if c.noIrq then s else raiseVector c.tenant (s.cqVector c.tenant c.qp) s) s
    ringEvents entries s

/-- A queue pair under R32 with nothing left reads DISABLED; every other reads a doorbell
line it does not hold, and fetches what its gate admits. -/
def settleQp (t q : Nat) (s : State) : State :=
  let x := s.qp t q
  if x.state = .stopping ∧ x.draining then
    let busy := (s.ctxs.any fun c => c.2.tenant == t && c.2.qp == q && c.2.replay.isNone && !decide (c.2.state = .free)) ||
      !x.running.isEmpty || s.outbox.any fun c => c.tenant == t && c.qp == q
    if busy then s else modQp t q (fun x => { x with state := .disabled, reason := 0, draining := false, held := false, polled := false }) s
  else if x.state = .active ∧ !x.polled ∧ !x.held then readDoorbell t q s
  else fetchReady t q s

def settleQps (s : State) : State :=
  forEach (fmKeys s.qps) (fun k s => settleQp (k / 16) (k % 16) s) s

/-- The step number of every sequence that a main step which was not voided has included advances, after
the entries of the boundary have been written with the number of that step (Tables 09-2 and 09-4, R284;
DEDUCED, log 29). -/
def countStep (x : Step) (s : State) : State :=
  if x.voided then s
  else
    forEach x.rows (fun r s =>
      modCtx r.ctx (fun c =>
        if c.state = .free ∨ c.freedAt = s.boundary ∨ c.before ≠ r.committed then c
        else { c with stepNo := c.stepNo + 1 }) s) s

/-- Row 3, with what the lookup and replay steps have to deliver; `old` entries of the ring queue were left
from before. -/
def deliverRow (old : Nat) (other : Step → State → State) (s : State) : State :=
  let s := match ended s with
    | none => s
    | some x =>
      match x.kind with
      | .main =>
        let r := x.results.foldl (fun acc y => deliverSeq x y acc) ([], s)
        let s := r.2
        resumeDecode x { s with ringOut := s.ringOut.take old ++ r.1 ++ s.ringOut.drop old }
      | .draft _ => s
      | _ => other x s
  let s := writeOut s
  settleQps (match ended s with
    | some x => if x.kind = .main then countStep x s else s
    | none => s)

end Sys2Proof.Machine
end

