-- ==== Sys2Proof/Machine/Edits.lean ====
section
/-! DEFINITION. Rows 4 and 5 of the step boundary (Table 01-3): page-table edits, prefix nodes, the sluice's
work of a boundary, what is released and what returns to the free lists. -/

namespace Sys2Proof.Machine

/-! ## The blocks the ended step read (R256) -/

/-- A block of a slot was streamed or read by NBUs in a step: every non-expert block, and the experts filled
at its routing points. -/
def readInStep (s : State) (x : Step) (b : Block) : Bool :=
  decide (b.slot = x.slot) &&
    (match (s.slot x.slot).package.bind fun p => p.tensors[b.tensor]? with
      | some t =>
        decide (0x8000 ≤ t.expert) ||
          x.expertFill.any fun e => e.1 == t.layer && (e.2.2.1.contains t.expert || e.2.2.2.contains t.expert)
      | none => true)

/-- The last use of the blocks read in the step just ended, its adapters' among them. -/
def touchBlocks (s : State) : State :=
  match ended s with
  | none => s
  | some x =>
    if x.kind = .lookup then s
    else
      let ads := (x.rows.map fun r => (s.ctx r.ctx).adapter).filterMap fun a => fmFind s.adapters a
      { s with blocks := fmMap s.blocks fun n b =>
          if readInStep s x b ∨ ads.any fun a => decide (a.firstBlock ≤ n) && decide (n < a.firstBlock + a.blocks) then
            { b with lastUse := s.boundary }
          else b }

/-! ## Damaged groups (R367, R368) -/

/-- A damaged group leaves: it is dropped, its nodes and the handles that name it go; where it cannot be
recomputed its sequences end FAULTED. -/
def dropDamaged (g : Nat) (s : State) : State :=
  let x := s.group g
  let users := (s.ctxs.filter fun c => decide (c.2.state ≠ .free) && (ctxGroups c.2).contains g).map Prod.fst
  let lost := x.historyLost || ((fmFind s.pools x.slot).map Pool.recurrent).getD false
  let nodes := (s.nodes.filter fun n => n.lgn == g).map fun n => (n.slot, n.chain)
  let s := dropGroup g (modGroup g (fun x => { x with damaged := false, held := none }) s)
  let s := removeNodes (fun n => nodes.contains (n.slot, n.chain)) s
  let s := forEach (s.bindings.filter fun b => b.lgns.contains g) unbind s
  if lost then
    forEach users (fun i s =>
      let c := s.ctx i
      if c.replay.isNone ∧ (c.state.live ∨ c.state = .draining) then endSeq .faulted stFaulted i s else s) s
  else s

def dropDamages (s : State) : State :=
  forEach ((s.groups.filter fun g => g.2.damaged).map Prod.fst) dropDamaged s

/-! ## Page tables -/

/-- A context seen as one of the draft model in slot `k`: its draft-model table and length stand in the place
of the main model's (R193, R225). -/
def enterDraft (i k : Nat) (s : State) : State :=
  modCtx i (fun c => { c with pages := c.draftPages, draftPages := c.pages, committed := c.draftLen, kvLen := c.draftLen, slot := k }) s

/-- The main model's table and length stand in their place again. -/
def leaveDraft (i : Nat) (c : Ctx) (s : State) : State :=
  modCtx i (fun x =>
    { x with draftPages := x.pages, pages := c.pages, committed := c.committed, kvLen := c.kvLen, slot := c.slot }) s

/-- An operation on a context's page table applied to its draft-model table. -/
def onDraft (i : Nat) (f : State → State) (s : State) : State :=
  match draftSlot s (s.ctx i).slot with
  | none => s
  | some k => leaveDraft i (s.ctx i) (f (enterDraft i k s))

/-- Both tables of every context that is not FREE: fills, seals, rollback; the tail of a DORMANT sequence
(R201, R71). -/
def editTables (s : State) : State :=
  forEach ((s.ctxs.filter fun c => !decide (c.2.state = .free)).map Prod.fst) (fun i s =>
    let s := editCtx i s
    let s := if (s.ctx i).draftPages.isEmpty then s else onDraft i (editCtx i) s
    if (s.ctx i).state = .dormant then sealTail i s else s) s

/-! ## Prefix nodes (R209) -/

/-- The tokens of the first `n` pages. -/
def leadingPages (c : Ctx) (n : Nat) : List (List Nat) := (List.range n).map (pageTokens c)

/-- The chain value of a page of a sequence (R208). -/
def chainOf (c : Ctx) (k : Nat) : Option (BitVec 128) :=
  (chainValues c.model c.adapter c.tenant (leadingPages c (k + 1)))[k]?

/-- A page may be inserted: sealed, its parent a node with the same group, the key not yet present, within
the window of a ring model. -/
def mayInsert (s : State) (c : Ctx) (k : Nat) : Bool :=
  let ringOk := match fmFind s.pools c.slot with
    | some p => decide (p.ring = 0) || decide (k < p.window / 256)
    | none => false
  let parentOk := decide (k = 0) ||
    (match (chainOf c (k - 1)).bind (nodeFor s c.tenant c.slot), pageAt c (k - 1) with
      | some n, some g => n.lgn == g
      | _, _ => false)
  let sealed := match pageAt c k with
    | some g => (s.group g).sealed
    | none => false
  ringOk && parentOk && sealed && ((chainOf c k).bind (nodeFor s c.tenant c.slot)).isNone

/-- One node inserted; with all 262,144 in use the least recently matched leaf makes room. -/
def insertNode (i k : Nat) (s : State) : State :=
  let c := s.ctx i
  match chainOf c k, pageAt c k with
  | some v, some g =>
    if mayInsert s c k ∧ pxdInserts s c.slot then
      let s := if 262144 ≤ s.nodes.length then
          match leafNode s c.slot false with
          | some n => removeNode n s
          | none => s
        else s
      let s := nextUse (addRef g s)
      { s with nodes := s.nodes ++ [{ tenant := c.tenant, slot := c.slot, chain := v, parent := if k = 0 then none else chainOf c (k - 1), lgn := g, used := s.useCount }] }
    else s
  | _, _ => s

/-- The pages whose hash is done. -/
def insertNodes (s : State) : State :=
  forEach (s.ctxs.filter fun c => !c.2.hashing.isEmpty) (fun c s =>
    let l := sortBy (fun a b => decide (a < b)) c.2.hashing
    let s := forEach l (insertNode c.1) s
    modCtx c.1 (fun c => { c with hashing := [], hashed := c.hashed ++ l }) s) s

/-! ## The rest of row 4 -/

/-- IMPORT_PREFIXes whose groups all stand in T0 now (R206). -/
def markArrivals (s : State) : State :=
  { s with imports := s.imports.map fun j =>
      if j.lgns.all fun g => (s.group g).residence == .t0 then { j with arrived := true } else j }

/-- Held flags whose 1,024 boundaries have passed (R206). -/
def expireHolds (s : State) : State :=
  { s with groups := fmMap s.groups fun _ g =>
      match g.held with
      | some b => if b ≤ s.boundary then { g with held := none } else g
      | none => g }

/-- The state key of a tenant whose reset took effect in the pass is replaced (R390). -/
def replaceKeys (s : State) : State :=
  forEach ((s.tenants.filter fun x => x.2.resetPending && !x.2.resetArmed && x.2.clearAt == s.boundary + 2).map Prod.fst)
    (fun t s =>
      let n := s.security.nextKey
      modTenant t (fun x => { x with stateKey := x.stateKey.map fun _ => n })
        { s with security := { s.security with nextKey := n + 1 } }) s

/-- Row 4. -/
def editRow (s : State) : State :=
  let s := installCopies (dropDamages (touchBlocks s))
  let s := insertNodes (editTables s)
  let s := markArrivals (settleTransfers s)
  let s := keepFree (idleTables (installTable (idleTables (sluiceCommands s))))
  let s := replaceKeys (graceGroups (spillDormant s))
  let s := expireHolds (graceGroups (reclaimPools s))
  let s := latchUnits (beginLoad s)
  { s with generation := s.generation + 1 }

/-! ## Row 5 -/

/-- A frame set of a group that a tenant under reset owned is cleared before it is freed (R390). -/
def clearSets (s : State) : State :=
  let resets := (s.tenants.filter fun x => x.2.resetPending && decide (x.2.clearAt = s.boundary)).map Prod.fst
  let due (k f : Nat) : Bool := s.grace.any fun g => decide (g.1 ≤ s.boundary) && (match g.2 with
    | .frameSet a b => a == k && b == f
    | _ => false)
  forEach (s.groups.filter fun g => g.2.residence == .grace && resets.contains g.2.owner && due g.2.slot g.2.frameSet) (fun g s =>
    match fmFind s.pools g.2.slot with
    | none => s
    | some p =>
      forEach (slotOrder p) (fun x s =>
        { s with bank := memClear s.bank (slotAddress s g.2.slot p g.2.frameSet x.1 x.2) (slotBytes p) }) s) s

/-- Row 5. -/
def reclaimRow (s : State) : State := reclaim (clearSets s)

end Sys2Proof.Machine
end

