-- ==== Sys2Proof/Machine/Charge.lean ====
section
/-! DEFINITION. Row 8 of the step boundary (Table 01-3): budgets, parking, cancel-on-miss and the siding
(R66 to R70, R436). -/

namespace Sys2Proof.Machine

/-! ## Chunks still to come (R134, R139) -/

/-- The chunk length L: PROMPT_CHUNK, at most 1,024 while a quadrant is in DA prompt mode. -/
def chunkLength (s : State) : Nat :=
  let l := s.regL 0x40 0 1024
  if s.faults.daPrompt.any id then min l 1024 else l

/-- The end of the chunk that begins at position `p`, one past its last position. -/
def chunkEnd (l p goal : Nat) : Nat := min goal ((p + l) / 256 * 256)

/-- Chunks that positions `p` to `goal - 1` still take. -/
def chunksLeft (l goal : Nat) : Nat → Nat → Nat
  | 0, _ => 0
  | fuel + 1, p => if goal ≤ p then 0 else chunksLeft l goal fuel (max (p + 1) (chunkEnd l p goal)) + 1

/-- The first position that a sequence has still to process. -/
def firstPending (c : Ctx) : Nat := min c.kvLen c.committed

/-- The position one past the last pending one. -/
def lastPending (c : Ctx) : Nat := if c.decoding then c.committed else c.goal

/-! ## At risk (R66) -/

/-- The cycle estimate of a slot, in 2^-16 ns: the mean of the intervals between its latest step starts, at
most 8; 0 before its second step (log 5). -/
def cycleOf (x : ModelSlot) : Nat :=
  match x.starts with
  | [] => 0
  | a :: r =>
    match r with
    | [] => 0
    | _ => (a - r.getLastD a) / r.length

/-- The model steps a sequence needs before its next delivery (R66). -/
def stepsNeeded (s : State) (c : Ctx) : Nat :=
  if c.state = .decode then 0 else chunksLeft (chunkLength s) (lastPending c) 4096 (firstPending c) - 1

/-- A P0 or P1 sequence at risk. -/
def atRisk (s : State) (c : Ctx) : Bool :=
  c.state.working && c.replay.isNone && decide (c.cls ≤ 1) &&
    (match nextDeadline c with
      | some d => decide (d < s.stamp + (stepsNeeded s c + 2) * cycleOf (s.slot c.slot))
      | none => false)

/-! ## Budgets (R70) -/

/-- The refill times at or before the stamp that have not been applied. -/
def refillsDue (s : State) (x : Tenant) (p : TenantParams) : Nat :=
  let period := ofNs (p.periodMs * 1000000)
  if period = 0 then 0 else (s.stamp - x.periodStart) / period - x.refills

/-- One tenant refilled and charged. -/
def chargeTenant (t : Nat) (s : State) : State :=
  let x := s.tenant t
  match x.params with
  | none => s
  | some p =>
    if p.perPeriod = 0 then s
    else
      let n := refillsDue s x p
      let level := if n = 0 then x.budget else min (x.budget + (n * p.perPeriod : Nat)) (capacity p)
      modTenant t (fun x => { x with budget := level - (x.gathered.tokensDelivered : Nat), refills := x.refills + n }) s

/-- A sequence whose tenant's level is exhausted enters PARKED. -/
def parkCtx (c : Ctx) : Ctx :=
  { holdSeq .parked c with sidingMark := c.sidingMark || decide (c.state = .siding) }

/-- A PARKED sequence whose tenant's level is above 0 leaves PARKED. -/
def unparkCtx (stamp boundary : Nat) (c : Ctx) : Ctx :=
  let c := rebase stamp c
  if c.sidingMark then { c with state := .siding, sidingMark := false, heldSince := boundary }
  else returnSeq c

def parkSeqs (s : State) : State :=
  { s with ctxs := fmMap s.ctxs fun _ c =>
      if c.replay.isSome then c
      else if budgetGone s c.tenant then (if c.state.working ∨ c.state = .siding then parkCtx c else c)
      else if c.state = .parked then unparkCtx s.stamp s.boundary c
      else c }

/-! ## Counters (R436) -/

/-- Sequence-boundaries in SIDING and PARKED. -/
def countHeld (s : State) : State :=
  forEach s.ctxs (fun c s =>
    match c.2.state with
    | .siding => count c.2.tenant (fun k => { k with sidingBoundaries := k.sidingBoundaries + 1 }) s
    | .parked => count c.2.tenant (fun k => { k with parkedBoundaries := k.parkedBoundaries + 1 }) s
    | _ => s) s

/-- Counters added, each of 64 bits. -/
def addCounters (a b : Counters) : Counters :=
  let f (x y : Nat) : Nat := (x + y) % 2 ^ 64
  { descFetched := f a.descFetched b.descFetched, tokensDelivered := f a.tokensDelivered b.tokensDelivered,
    tokensLate := f a.tokensLate b.tokensLate, ringWaits := f a.ringWaits b.ringWaits,
    sidingBoundaries := f a.sidingBoundaries b.sidingBoundaries,
    parkedBoundaries := f a.parkedBoundaries b.parkedBoundaries,
    prefixTokens := f a.prefixTokens b.prefixTokens,
    status := b.status.foldl (fun m x => fmSet m x.1 (f (fmGet m x.1 0) x.2)) a.status }

/-- The counters show what was gathered. -/
def showCounters (s : State) : State :=
  { s with tenants := fmMap s.tenants fun _ x =>
      { x with counters := addCounters x.counters x.gathered, gathered := zeroCounters } }

/-! ## Cancel on miss (R69) -/

/-- A sequence that asked to be cancelled on a miss has missed. -/
def missed (stamp : Nat) (c : Ctx) : Bool :=
  c.replay.isNone && c.state.live && rCancelOnMiss c.req.block &&
    (c.lateNow || ((c.state.working || decide (c.state = .siding)) && lateAt stamp c))

def cancelMissed (s : State) : State :=
  let s := forEach ((s.ctxs.filter fun c => missed s.stamp c.2).map Prod.fst)
    (drainSeq · (drainFor stDeadlineMissed 0 erDeadlineMissed)) s
  { s with ctxs := fmMap s.ctxs fun _ c => { c with lateNow := false } }

/-! ## The siding (R67) -/

/-- The sequences to move, in order: P3 before P2, the longest committed length, the highest index. -/
def sidingOrder (s : State) : List (Nat × Ctx) :=
  sortBy (fun (a b : Nat × Ctx) =>
      lexLt [-(a.2.cls : Int), -(a.2.committed : Int), -(a.1 : Int)] [-(b.2.cls : Int), -(b.2.committed : Int), -(b.1 : Int)])
    (s.ctxs.filter fun c => c.2.state.working && c.2.replay.isNone && decide (2 ≤ c.2.cls))

/-- The sequences to return, in order: P2 before P3, the longest held. -/
def returnOrder (s : State) : List (Nat × Ctx) :=
  sortBy (fun (a b : Nat × Ctx) => lexLt [(a.2.cls : Int), a.2.heldSince, (a.1 : Int)] [(b.2.cls : Int), b.2.heldSince, (b.1 : Int)])
    (s.ctxs.filter fun c => decide (c.2.state = .siding))

/-- Siding decisions of a boundary. -/
def decideSiding (s : State) : State :=
  if s.ctxs.any fun c => atRisk s c.2 then
    let l := sidingOrder s
    forEach ((l.take (ceilDiv l.length 4)).map Prod.fst) (modCtx · (fun c => { holdSeq .siding c with heldSince := s.boundary }))
      { s with calm := 0 }
  else
    let s := { s with calm := s.calm + 1 }
    if 16 ≤ s.calm then
      let l := returnOrder s
      forEach ((l.take (ceilDiv l.length 4)).map Prod.fst) (modCtx · returnSeq) s
    else s

/-- Row 8. -/
def chargeRow (s : State) : State :=
  let s := forEach (fmKeys s.tenants) chargeTenant s
  let s := showCounters (countHeld (parkSeqs s))
  decideSiding (cancelMissed s)

end Sys2Proof.Machine
end

