-- ==== Sys2Proof/Machine/Junction.lean ====
section
/-! DEFINITION. Nuxus groups as the boundary sees them (chapter 12): layouts, members, and whether a group
model may step. -/

namespace Sys2Proof.Machine

/-- The layout fields of a model slot (R327): head span, expert span, this module's position. -/
def layoutReg (k : Nat) : Nat := junctionBase + 0x3000 + 4 * k
def headSpan (s : State) (k : Nat) : Nat := s.reg (layoutReg k) 0 1
def expertSpan (s : State) (k : Nat) : Nat := s.reg (layoutReg k) 8 1
def groupModel (s : State) (k : Nat) : Bool := s.reg (layoutReg k) 31 0 == 1

/-- The members a group model spans: positions 0 to this less 1. -/
def modelSpan (s : State) (k : Nat) : Nat := max (headSpan s k) (expertSpan s k)

/-- The member at a position. -/
def memberAt (s : State) (p : Nat) : Option Member := fmFind s.junction.members p

/-- The latest READY of a position. -/
def readyOf (s : State) (p : Nat) : Option ReadyBody := s.junction.readies.find? fun r => r.position == p

/-- The report of a slot in a READY: state, package hash, layout. -/
def slotReport (s : State) (k : Nat) : Nat × Nat × Nat × Nat × Nat :=
  let x := s.slot k
  let st := match x.state with
    | .empty => 0 | .loading => 1 | .ready => 2 | .degraded => 3
  (k, st, (x.package.map fun p => p.hash.toNat).getD 0, headSpan s k, expertSpan s k)

/-- A message's target epoch differs from this module's role epoch (R335). -/
def staleFor (s : State) (h : MsgHead) : Bool := decide (h.epoch ≠ s.junction.epoch)

/-- A stale request is answered ROLE_STALE. -/
def refuseStale (h : MsgHead) (s : State) : State :=
  answerStatus h.source h.tag stRoleStale
    { s with junction := { s.junction with staleRefused := (s.junction.staleRefused + 1) % 2 ^ 64 } }

/-- A stale STEP_PLAN, START, ABORT or ACT is discarded and counted. -/
def discardStale (s : State) : State :=
  { s with junction := { s.junction with staleDiscarded := (s.junction.staleDiscarded + 1) % 2 ^ 64 } }

/-- A request outstanding from now on (R320): at most 4,096 to one destination; its tag. -/
def holdRequest (dest op : Nat) (retried : Bool) (s : State) : Option (Nat × State) :=
  let j := s.junction
  if 4096 ≤ (j.outstanding.filter fun o => o.destination == dest).length then none
  else
    some (j.nextTag, { s with junction := { j with nextTag := (j.nextTag + 1) % 65536, outstanding := j.outstanding ++ [{ destination := dest, tag := j.nextTag, op := op, resolving := false, retried := retried }] } })

/-- The request a response answers. -/
def requestOf (s : State) (source tag : Nat) : Option Outstanding :=
  s.junction.outstanding.find? fun o => o.destination == source && o.tag == tag && !o.resolving

/-- A request is no longer outstanding; its tag is retired. -/
def retireRequest (o : Outstanding) (s : State) : State :=
  { s with junction := { s.junction with outstanding := s.junction.outstanding.filter fun x => decide (x ≠ o) } }

/-- A member reports a slot as this module has it. -/
def reportsSame (s : State) (k p : Nat) : Bool :=
  (match memberAt s p with
    | some m => m.joined
    | none => false) &&
  (match readyOf s p with
    | some r => r.slots.contains (slotReport s k)
    | none => false)

/-- A model may be stepped by this module (R328, R333): a group model only by the manager of members that
all report it, and not during a switchover (R340). -/
def groupSteppable (s : State) (k : Nat) : Bool :=
  if groupModel s k ∧ 1 < modelSpan s k then
    decide (s.junction.role = .manager) && !s.junction.paused &&
      ((List.range (modelSpan s k)).filter (· != 0)).all (reportsSame s k)
  else decide (s.junction.role ≠ .worker) && decide (s.junction.role ≠ .spare)

/-- A step of a slot is a group step. -/
def groupStep (s : State) (k : Nat) : Bool := groupModel s k && decide (1 < modelSpan s k)

end Sys2Proof.Machine
end

