-- ==== Sys2Proof/Machine/Engine.lean ====
section
/-! DEFINITION. The engines of a step (chapters 5 to 7): NBU jobs on bank contents, projections of the
tiles, the vector engine's merges, conversions and sums on staging buffers. -/

namespace Sys2Proof.Machine

/-! ## Banks -/

/-- The block whose T0 copy lies in a frame. -/
def blockAtFrame (s : State) (f : Nat) : Option Nat :=
  (s.blocks.find? fun b => decide (b.2.t0 = some f)).map Prod.fst

/-- Byte `i` after a bank row and column: the frame of its row and the offset within (R187, R245). -/
def bankPlace (q l quad bank row col i : Nat) : Nat × Nat :=
  let t := row * 2048 + col + i
  let r := t / 2048
  (frameAt q (bank * 12 + r / 1024) quad l, r % 1024 * 2048 + t % 2048)

def bankByte (s : State) (q l quad bank row col i : Nat) : Byte :=
  let x := bankPlace q l quad bank row col i
  match blockAtFrame s x.1 with
  | some n => memByte s.mem (n * blockBytes + x.2)
  | none => memByte s.bank (x.1 * blockBytes + x.2)

def bankSet (q l quad bank row col i : Nat) (b : Byte) (s : State) : State :=
  let x := bankPlace q l quad bank row col i
  match blockAtFrame s x.1 with
  | some n => { s with mem := memSet s.mem (n * blockBytes + x.2) b }
  | none => { s with bank := memSet s.bank (x.1 * blockBytes + x.2) b }

def bankWrite (q l quad bank row col : Nat) (bs : List Byte) (s : State) : State :=
  (bs.mapIdx fun i b => (i, b)).foldl (fun s x => bankSet q l quad bank row col x.1 x.2 s) s

/-- A little-endian number in a bank. -/
def bankLe (s : State) (q l quad bank row col i n : Nat) : Nat :=
  leNat ((List.range n).map fun k => bankByte s q l quad bank row col (i + k))

/-! ## NBU jobs (R152 to R165) -/

def jobDim (j : Job) : Nat := 64 * 2 ^ j.headDim

/-- The reserved bits and ranges a job must meet; otherwise the NBU does no work, sets overrun and
reports a control fault (R152). -/
def jobOk (j : Job) : Bool :=
  j.reserved == 0 && decide (1 ≤ j.kind) && decide (j.kind ≤ 7) && decide (1 ≤ j.span) &&
    decide (j.span ≤ 24) && decide (j.bank < 4) && decide (j.row < 12288) && decide (j.column % 32 = 0)

/-- Running statistics of one query row: m, l, o (R157). -/
abbrev Partial := Word32 × Word32 × List Word32

def noPartial (d : Nat) : Partial := (f32NegInf, f32Zero, List.replicate d f32Zero)

/-- One token of a slice as read: key codes, value codes and their group parameters (Table 08-2). -/
structure KvToken where
  key : List Nat
  keyPar : List (Nat × Nat)
  value : List Nat
  valuePar : List (Nat × Nat)
  deriving DecidableEq, Repr

/-- Reads token `u` of a slice at byte `o` of a page slot (R184). -/
def readToken (byte : Nat → Byte) (d : Nat) (int4 : Bool) (o u : Nat) : KvToken :=
  let le (a n : Nat) : Nat := leNat ((List.range n).map fun k => byte (a + k))
  let groups := d / 32
  let area (base : Nat) : List Nat :=
    (List.range d).map fun e =>
      if int4 then bitsOf (byte (o + base + u * d / 2 + e / 2)).toNat (4 * (e % 2)) 4
      else (byte (o + base + u * d + e)).toNat
  let pars (base : Nat) : List (Nat × Nat) :=
    (List.range groups).map fun g =>
      if int4 then (le (o + base + u * d / 8 + 4 * g) 2, le (o + base + u * d / 8 + 4 * g + 2) 2)
      else (le (o + base + u * d / 16 + 2 * g) 2, 0)
  if int4 then
    { key := area 0, keyPar := pars (16 * d), value := area (20 * d), valuePar := pars (36 * d) }
  else { key := area 0, keyPar := pars (32 * d), value := area (34 * d), valuePar := pars (66 * d) }

/-- The dot product of a query row with a token's key: scaled partials per KV group, in group order
(R109, R111, R119). -/
def keyDot (int4 : Bool) (t : KvToken) (query : List Num) : Word32 :=
  chunkSum (List.zipWith (fun (p : Nat × Nat) (g : List Nat × List Num) => kvPartial int4 p.1 p.2 g.1 g.2)
    t.keyPar (List.zip (groupsOf 32 t.key.length t.key) (groupsOf 32 t.key.length query)))

/-- Element `e` of a token's value vector (R119). -/
def valueAt (int4 : Bool) (t : KvToken) (e : Nat) : Num :=
  let p := t.valuePar.getD (e / 32) (0, 0)
  kvValue int4 p.1 p.2 (t.value.getD e 0)

/-- One slice on one row's statistics (R157): the scores of the tokens, none where not visible. -/
def sliceStep (int4 : Bool) (d : Nat) (toks : List KvToken) (scores : List (Option Word32))
    (st : Partial) : Partial :=
  let ms := (scores.filterMap id).foldl f32MaxOf f32NegInf
  let mn := f32MaxOf st.1 ms
  if mn = f32NegInf then st
  else
    let a := if st.1 = mn then f32One else veExp (f32Sub st.1 mn)
    let ps := scores.map fun x => match x with
      | some v => bf16.decode (toBf16 (veExp (f32Sub v mn))).toNat
      | none => Num.zero
    let l := f32Add (f32Mul a st.2.1) (toF32 (Num.sum ps))
    let o := (List.range d).map fun e =>
      f32Add (f32Mul a (st.2.2.getD e f32Zero))
        (toF32 (Num.sum (List.zipWith (fun p t => p.mul (valueAt int4 t e)) ps toks)))
    (mn, l, o)

/-- A position visible to a row (R155). -/
def visible (j : Job) (tok row : Nat) : Bool :=
  decide (j.pageBase + tok < j.committed) &&
    (decide (j.window = 0) || decide (row < j.pageBase + tok + j.window))

/-- An ATTEND job (R155 to R158): the statistics of its rows. -/
def attendJob (byte : Nat → Byte) (j : Job) (input : List Byte) (held : List Partial) : List Partial :=
  let d := jobDim j
  let t := 32 * tokenBytes d j.fourBit
  let query (r : Nat) : List Num :=
    (leWords 2 d (input.drop (j.inOff + r * d * 2))).map bf16.decode
  let position (r : Nat) : Nat := leAt input (j.inOff + j.rows * d * 2 + 4 * r) 4
  (List.range j.rows).map fun r =>
    let start := if j.cont then held.getD r (noPartial d) else noPartial d
    (List.range (j.count / 32)).foldl (fun st k =>
      let toks := (List.range 32).map fun u => readToken byte d j.fourBit (k * t) u
      let scores := toks.mapIdx fun u tok =>
        if visible j (j.first + 32 * k + u) (position r) then
          some (f32Mul j.scale (keyDot j.fourBit tok (query r)))
        else none
      sliceStep j.fourBit d toks scores st) start

/-- The output record of a row's statistics (R158). -/
def partialBytes (p : Partial) : List Byte :=
  leBytes p.1.toNat 4 ++ leBytes p.2.1.toNat 4 ++ (p.2.2.map fun w => leBytes w.toNat 4).flatten

/-- A projection's weight format takes FP8 activations (R114). -/
def takesFp8 (fmt : Nat) : Bool :=
  decide (fmt = 0x12) || decide (fmt = 0x13) || decide (fmt = 0x20) || decide (fmt = 0x21)

/-- The values of an activation row: BF16 codes, or FP8 codes followed by a scale byte for each 32 (the
order in the input area is the model's choice, log 11). -/
def activations (fmt count : Nat) (input : List Byte) (o : Nat) : List Num :=
  if takesFp8 fmt then
    (List.range count).map fun i =>
      actValue (input.getD (o + i) 0).toNat (input.getD (o + count + i / 32) 0).toNat
  else (leWords 2 count (input.drop o)).map bf16.decode

def activationBytes (fmt count : Nat) : Nat := if takesFp8 fmt then count + count / 32 else 2 * count

/-- The chunk partial of one output row against an activation row: scaled partials of its groups in
order (R109, R111). -/
def chunkPartial (elem : Nat → Num) (scale : Nat → Num) (group count : Nat) (acts : List Num) : Word32 :=
  let g := if group = 0 then 64 else group
  chunkSum ((List.range (ceilDiv count g)).map fun k =>
    let n := min g (count - k * g)
    scaledPartial ((List.range n).map fun i => elem (k * g + i)) ((acts.drop (k * g)).take n) (scale k))

/-- The scale format of an element format: E8M0 for the MX formats, otherwise FP8 E4M3 (which of the two a
job's scale bytes are is not in the job; log 11). -/
def jobScale (fmt group v : Nat) : Num :=
  if group = 0 then .fin false 1 0 else decodeScale (if 0x20 ≤ fmt then 1 else 2) v

/-- A MATVEC job (R161): a packed tile of outputs by count elements, its scales after it. -/
def matvecJob (byte : Nat → Byte) (j : Job) (input : List Byte) : List Byte :=
  let gcount := if j.group = 0 then 0 else j.count / j.group
  ((List.range j.rows).map fun r =>
    let acts := activations j.format j.count input (j.inOff + r * activationBytes j.format j.count)
    ((List.range j.outputs).map fun o =>
      let elem (i : Nat) : Num := decodeElement j.format (elementAt byte j.format (o * j.count + i))
      let scale (g : Nat) : Num := jobScale j.format j.group (byte (j.scaleOff + o * gcount + g)).toNat
      leBytes (chunkPartial elem scale j.group j.count acts).toNat 4).flatten).flatten

/-- Bytes of an element of an ATOMIC type (R164): FP32, BF16, INT32, INT64. -/
def atomicSize (ty : Nat) : Nat := if ty = 1 then 2 else if ty = 3 then 8 else 4

/-- One memory-side add (R164). -/
def atomicAdd (ty a b : Nat) : Nat :=
  if ty = 0 then (f32Add (BitVec.ofNat 32 a) (BitVec.ofNat 32 b)).toNat
  else if ty = 1 then bf16.encode ((bf16.decode a).add (bf16.decode b))
  else (a + b) % 2 ^ (8 * atomicSize ty)

/-- Elements added in ascending order to a list of bytes. -/
def atomicBytes (ty : Nat) : Nat → List Byte → List Byte → List Byte
  | 0, old, _ => old
  | n + 1, old, add =>
    let k := atomicSize ty
    leBytes (atomicAdd ty (leNat (old.take k)) (leNat (add.take k))) k ++
      atomicBytes ty n (old.drop k) (add.drop k)

/-- Bytes of a table row (R92): 0 INT8, 1 BF16, 2 FP8 E4M3; formats 0 and 2 store an FP16 scale after the
elements. -/
def tableRowBytes (fmt width : Nat) : Nat := if fmt = 1 then 2 * width else width + 2

/-- A table row decoded to FP32 elements. -/
def tableRow (fmt width : Nat) (bs : List Byte) : List Word32 :=
  if fmt = 1 then (leWords 2 width bs).map fun v => ofBf16 (BitVec.ofNat 32 v)
  else
    let sc := fp16.decode (leAt bs width 2)
    (leWords 1 width bs).map fun v =>
      toF32 ((if fmt = 0 then Num.ofInt (signedOf v 8) 0 else e4m3.decode v).mul sc)

/-- Bags pooled in ascending position from +0 (R165). -/
def addRows (width : Nat) (bags : List (List Word32)) (rows : List (Nat × List Word32)) : List (List Word32) :=
  rows.foldl (fun b r =>
    listSet b r.1 (List.zipWith f32Add (b.getD r.1 (List.replicate width f32Zero)) r.2)) bags

/-- A GATHER_ADD job (R165): totals in fast mode, the decoded rows in exact mode. -/
def gatherJob (byte : Nat → Byte) (j : Job) (input : List Byte) (exact : Bool) : List Byte :=
  let rb := tableRowBytes j.rowFormat j.width
  let rows := (List.range j.count).map fun i =>
    let idx := leAt input (j.inOff + 4 * i) 4
    ((input.getD (j.inOff + 4 * j.count + i) 0).toNat,
      tableRow j.rowFormat j.width ((List.range rb).map fun k => byte (idx * rb + k)))
  let out := if exact then rows.map Prod.snd
    else addRows j.width (List.replicate j.bags (List.replicate j.width f32Zero)) rows
  (out.map fun r => (r.map fun w => leBytes w.toNat 4).flatten).flatten

/-- Bytes laid over a list from an offset on. -/
def overlay (l : List Byte) (o : Nat) (bs : List Byte) : List Byte :=
  l.take o ++ List.replicate (o - l.length) 0 ++ bs ++ l.drop (o + bs.length)

def nbuIndex (q l quad : Nat) : Nat := (q * 8 + l) * 256 + quad

/-- The exact mode of the step in flight. -/
def stepExact (s : State) : Bool := (s.step.map fun x => decide (x.mode = 1)).getD false

/-- The bank-group domain of a quad. -/
def groupDomain (q l quad : Nat) : DomainId := { code := 1, quad := q, inst := l * 16 + quad / 16 }

/-- A job on the NBU of a quad (R152). A plain quad's window takes no job: a command error of the layer
and a control fault (R148). -/
def runJob (q l quad : Nat) (j : Job) (input : List Byte) (s : State) : State :=
  if quadPlain s q l quad then
    stepFault (groupDomain q l quad) (quad % 16) 0x02 0 0
      { s with faults := { s.faults with commandErrors := fmAdd s.faults.commandErrors (q * 8 + l) 1 } }
  else if !(jobOk j) then
    stepFault (groupDomain q l quad) (((quadPosition s q l quad).getD 0)) 0x02 0 0
      { s with nbus := fmModify s.nbus (nbuIndex q l quad) idleNbu fun n => { n with overrun := true } }
  else
    let n := fmGet s.nbus (nbuIndex q l quad) idleNbu
    let byte (i : Nat) : Byte := bankByte s q l quad j.bank j.row j.column i
    let n := { n with lastTag := j.tag, runningTag := j.tag, corrected := 0 }
    let put (n : Nbu) (s : State) : State := { s with nbus := fmSet s.nbus (nbuIndex q l quad) n }
    if j.kind = 1 then
      let st := attendJob byte j input (n.held)
      if j.emit then
        put { n with held := [], heldValid := false, output := overlay n.output j.outOff (st.map partialBytes).flatten } s
      else put { n with held := st, heldValid := true } s
    else if j.kind = 2 then
      put { n with output := overlay n.output j.outOff (matvecJob byte j input) } s
    else if j.kind = 3 then
      let d := jobDim j
      let tb := tokenBytes d j.fourBit
      let e := if j.fourBit then d / 2 else d
      let p := tb / 2 - e
      let areas := [(0, 0, e), (32 * e, e, p), (32 * (e + p), e + p, e), (32 * (2 * e + p), 2 * e + p, p)]
      let s := put n s
      (List.range j.count).foldl (fun s i =>
        let tok := j.first + i
        let src := input.drop (j.inOff + i * tb)
        areas.foldl (fun s a =>
          bankWrite q l quad j.bank j.row (j.column + tok / 32 * (32 * tb) + a.1 + tok % 32 * a.2.2)
            ((src.drop a.2.1).take a.2.2) s) s) s
    else if j.kind = 4 then
      let k := j.count * atomicSize j.format
      let old := (List.range k).map byte
      bankWrite q l quad j.bank j.row j.column (atomicBytes j.format j.count old (input.drop j.inOff)) (put n s)
    else if j.kind = 5 then
      put { n with output := overlay n.output j.outOff (gatherJob byte j input (stepExact s)) } s
    else if j.kind = 6 then
      let h := (List.range j.count).map fun i =>
        let w (o : Nat) : Word32 := BitVec.ofNat 32 (leAt input (j.inOff + o + 4 * i) 4)
        f32Fma (w 0) (BitVec.ofNat 32 (leNat ((List.range 4).map fun b => byte (4 * i + b)))) (w (4 * j.count))
      bankWrite q l quad j.bank j.row j.column (h.map fun w => leBytes w.toNat 4).flatten
        (put { n with output := overlay n.output j.outOff (h.map fun w => leBytes (toBf16 w).toNat 2).flatten } s)
    else put n s

/-! ## Projections (R109 to R112, R128) -/

def buffer (s : State) (b : Nat) : List Word32 := fmGet s.staging b []
def setBuffer (b : Nat) (l : List Word32) (s : State) : State := { s with staging := fmSet s.staging b l }

/-- The chunk partials of one output row of a tensor, in chunk order. -/
def rowPartials (s : State) (first : Nat) (p : Package) (t : Tensor) (acts : List Num) (r : Nat) : List Word32 :=
  let base := first * blockBytes + t.dataOffset
  let byte (i : Nat) : Byte := memByte s.mem (base + i)
  (List.range (ceilDiv t.columns 512)).map fun c =>
    let n := min 512 (t.columns - c * 512)
    let elem (i : Nat) : Num := decodeElement t.format (elementAt byte t.format (r * t.columns + c * 512 + i))
    let scale (g : Nat) : Num :=
      if t.group = 0 then .fin false 1 0
      else decodeScale t.scaleFormat
        (p.scales.getD (t.scaleOffset + r * (t.columns / t.group) + c * 512 / t.group + g) 0).toNat
    chunkPartial elem scale t.group n (acts.drop (c * 512))

/-- Chunk partials combined (R112): the canonical tree in exact mode; in fast mode each tile adds the
chunks of R128 assigned to it in order, and the tiles' totals meet in a tree over their positions. -/
def combine (exact : Bool) (tiles first : Nat) (l : List Word32) : Word32 :=
  if exact || decide (tiles = 0) then pairTree l
  else
    let owned := l.mapIdx fun c w => ((first + c) % tiles, w)
    let units := (List.range tiles).filterMap fun u =>
      let mine := owned.filter fun x => x.1 == u
      if mine.isEmpty then none else some (chunkSum (mine.map Prod.snd))
    pairTree units

/-- The step's rows in row blocks of 256 (R128). -/
def rowBlocks (s : State) : Nat :=
  match s.step with
  | some x => max 1 (ceilDiv (sumOf (x.rows.map fun r => if r.chunk then 0 else r.nodes + 1)) 256)
  | none => 1

/-- The DA tiles that take part in a projection of shared weights: all of them, or all but the 8 highest
positions where an adapter of the step's rows targets it (R132). -/
def projectTiles (s : State) (q : Nat) (t : Tensor) : Nat :=
  if adapterTargets s ((s.step.map Step.rows).getD []) t then daActive s q - 8 else daActive s q

/-- The prompt-chunk tokens of the step in row blocks of 256, which the PA numbers on its own (R129). -/
def promptBlocks (s : State) : Nat :=
  match s.step with
  | some x => max 1 (ceilDiv (sumOf (x.rows.map fun r => if r.chunk then r.chunkLast + 1 - r.chunkFirst else 0)) 256)
  | none => 1

/-- The tiles of a prompt projection: those of the PA, or of the DA in DA prompt mode (R138, R139). -/
def promptPassTiles (s : State) (q : Nat) : Nat := if paActive s q = 0 then daActive s q else paActive s q

/-- The projection of one activation row through a tensor of a model slot, on the DA (a candidate row) or
the PA (`prompt`, a prompt token); the arithmetic is the same on both (R102). -/
def projectRow (prompt : Bool) (q slot tensor input output rowBlock : Nat) (s : State) : State :=
  match (s.slot slot).package with
  | none => s
  | some p =>
    match p.tensors[tensor]? with
    | none => s
    | some t =>
      let bf := (buffer s input).map fun w => bf16.decode w.toNat
      let acts := if takesFp8 t.format then
          ((groupsOf 32 bf.length bf).map fun g =>
            let x := actBlock g
            x.1.map fun c => actValue c x.2).flatten
        else bf
      let chunks := ceilDiv t.columns 512
      let tiles := if prompt then promptPassTiles s q else projectTiles s q t
      let blocks := if prompt then promptBlocks s else rowBlocks s
      setBuffer output ((List.range t.rows).map fun r =>
        combine (stepExact s) tiles ((r / 64 * blocks + rowBlock) * chunks)
          (rowPartials s (s.slot slot).firstBlock p t acts r)) s

/-- Attention of prompt tokens over a page read across the bond path (R136): the arithmetic of an ATTEND job,
one partial a row. -/
def promptAttend (q l quad : Nat) (j : Job) (input : List Byte) (output : Nat) (s : State) : State :=
  let parts := attendJob (fun i => bankByte s q l quad j.bank j.row j.column i) j input []
  (parts.zipIdx).foldl (fun s x => setBuffer (output + x.2) (x.1.1 :: x.1.2.1 :: x.1.2.2) s) s

/-! ## Vector engine (R113, R116, R120 to R122, R133, R140, R159, R160) -/

/-- Two partials merged (R159). -/
def mergeTwo (x y : Partial) : Partial :=
  let m := f32MaxOf x.1 y.1
  let a1 := if x.1 = m then f32One else veExp (f32Sub x.1 m)
  let a2 := if y.1 = m then f32One else veExp (f32Sub y.1 m)
  (m, f32Add (f32Mul a1 x.2.1) (f32Mul a2 y.2.1),
    List.zipWith (fun a b => f32Add (f32Mul a1 a) (f32Mul a2 b)) x.2.2 y.2.2)

def bufferPartial (l : List Word32) : Partial := (l.getD 0 f32NegInf, l.getD 1 f32Zero, l.drop 2)

def mergeParts (l : List Partial) : Partial :=
  (treeFold mergeTwo (Nat.log2 l.length + 1) l).headD (f32NegInf, f32Zero, [])

/-- The attention output of a row: o * recip(l), each product rounded once, +0 where l is +0, as BF16
(R159, R160). -/
def attentionOut (p : Partial) : List Word32 :=
  if p.2.1 = f32Zero then p.2.2.map fun _ => toBf16 f32Zero
  else
    let r := veRecip p.2.1
    p.2.2.map fun x => toBf16 (f32Mul x r)

/-- The KV quantisation round trip of R20, counting groups with a non-finite value (R120). -/
def kvRoundTrip (q : Nat) (int4 : Bool) (l : List Word32) (s : State) : List Word32 × State :=
  let gs := groupsOf 32 l.length (l.map f32)
  let out := (gs.map fun g =>
    let k := if int4 then quantInt4 g else quantInt8 g
    k.codes.map fun c => toF32 (kvValue int4 k.scale k.minimum c)).flatten
  let bad := (gs.filter fun g => !(g.all Num.isFinite)).length
  (out, { s with faults := { s.faults with nonfiniteKv := fmAdd s.faults.nonfiniteKv q bad } })

/-- A transcendental unit of the VE (R121). -/
def transcendental (f : VeFunction) : Word32 → Word32 :=
  match f with
  | .exp => veExp
  | .log => veLog
  | .recip => veRecip
  | .rsqrt => veRsqrt
  | .sin => veSin
  | .cos => veCos
  | .tanh => veTanh
  | .erf => veErf

/-- Cosine and sine of the rotary angle of a dimension pair at a position (R122): the reduced angle is a free
function of the model's rotary scalars, the pair and the position (log 2). -/
def rotaryPair (p : Package) (pair position : Nat) : List Word32 :=
  let a := Config.rotaryAngle p.rotaryBase p.rotaryScale p.rotaryDims pair position
  [veCos a, veSin a]

/-- Buffers added element by element, in the order given (R113: experts in ascending router rank, then
shared experts). -/
def sumInOrder (l : List (List Word32)) : List Word32 :=
  match l with
  | [] => []
  | x :: r => r.foldl (List.zipWith f32Add) x

/-- The key of the logits of a row of a context: rows 0 to 15 as R200 numbers them, rows 16 on for the draft
heads (R223). -/
def logitsKey (ctx row : Nat) : Nat := ctx * 32 + row % 32

/-- One operation the timetable places. -/
def runOp (op : EngineOp) (s : State) : State :=
  match op with
  | .nbu q l quad job input => if layerOk q l && decide (quad < 256) then runJob q l quad job input s else s
  | .project prompt q slot tensor input output rowBlock => projectRow prompt q slot tensor input output rowBlock s
  | .promptAttend q l quad job input output =>
    if layerOk q l && decide (quad < 256) && jobOk job then promptAttend q l quad job input output s else s
  | .merge parts output =>
    let m := mergeParts (parts.map fun b => bufferPartial (buffer s b))
    setBuffer output (m.1 :: m.2.1 :: m.2.2) s
  | .attendOut part output => setBuffer output (attentionOut (bufferPartial (buffer s part))) s
  | .actQuant input output =>
    let bf := (buffer s input).map fun w => bf16.decode w.toNat
    setBuffer output ((groupsOf 32 bf.length bf).map fun g =>
      let x := actBlock g
      x.1.map fun c => toF32 (actValue c x.2)).flatten s
  | .kvQuant q input output fmt =>
    let r := kvRoundTrip q (fmt == 1) (buffer s input) s
    setBuffer output r.1 r.2
  | .adapterAdd target lowRank output scale =>
    setBuffer output (List.zipWith (fun t b => f32Add t (f32Mul scale b)) (buffer s target) (buffer s lowRank)) s
  | .vectorAdd a b output => setBuffer output (List.zipWith f32Add (buffer s a) (buffer s b)) s
  | .vectorMul a b output => setBuffer output (List.zipWith f32Mul (buffer s a) (buffer s b)) s
  | .function f input output => setBuffer output ((buffer s input).map (transcendental f)) s
  | .rotary slot pair position output =>
    match (s.slot slot).package with
    | some p => setBuffer output (rotaryPair p pair position) s
    | none => s
  | .treeSum input output => setBuffer output [pairTree (buffer s input)] s
  | .orderedSum parts output => setBuffer output (sumInOrder (parts.map (buffer s))) s
  | .widen input output => setBuffer output ((buffer s input).map ofBf16) s
  | .vectorFma a b c output =>
    setBuffer output (List.zipWith (fun (x : Word32 × Word32) z => f32Fma x.1 x.2 z)
      (List.zip (buffer s a) (buffer s b)) (buffer s c)) s
  | .writeBack input output => setBuffer output ((buffer s input).map toBf16) s
  | .toSampler ctx row b => { s with logits := fmSet s.logits (logitsKey ctx row) (buffer s b) }

end Sys2Proof.Machine
end

