-- ==== Sys2Proof/Machine/Lookups.lean ====
section
/-! DEFINITION. The pooled lookups of a lookup step (R92 to R96, R165, R258): reading the rows of a table,
pooling them in the order of fast mode, writing the pooled rows and completing the EMBED_LOOKUPs. -/

namespace Sys2Proof.Machine

/-- The device-physical address of a row of a table. -/
def rowAddress (t : TableSet) (d : TableDesc) (i : Nat) : Nat :=
  t.firstBlock * blockBytes + d.dataOffset + i * tableRowBytes d.rowFormat d.width

/-- The blocks a row lies in. -/
def rowBlocksOf (t : TableSet) (d : TableDesc) (i : Nat) : List Nat :=
  let a := rowAddress t d i
  let b := (a + tableRowBytes d.rowFormat d.width - 1) / blockBytes
  if a / blockBytes = b then [b] else [a / blockBytes, b]

/-- One row decoded to FP32 (R94). -/
def rowValues (s : State) (t : TableSet) (d : TableDesc) (i : Nat) : List Word32 :=
  tableRow d.rowFormat d.width (memBytes s.mem (rowAddress t d i) (tableRowBytes d.rowFormat d.width))

/-- The NBU that pools a row: one above the index of the quad whose banks hold the row's first block; 0
for a row that lies only in an image, which the staging path pools (R258). -/
def rowUnit (s : State) (t : TableSet) (d : TableDesc) (i : Nat) : Nat :=
  match (s.block (rowAddress t d i / blockBytes)).t0 with
  | some f =>
    let x := framePlace f
    nbuIndex x.1 x.2.2.2 x.2.2.1 + 1
  | none => 0

/-- The sum of rows in ascending position. -/
def sumRows (w : Nat) (l : List (List Word32)) : List Word32 :=
  l.foldl (fun a r => List.zipWith f32Add a r) (List.replicate w f32Zero)

/-- One bag pooled (R94, R165, R258): each NBU adds its rows in ascending position, the totals meet in the
tree over NBU positions, the rows from images last. -/
def poolBag (w : Nat) (rows : List (Nat × List Word32)) : List Word32 :=
  let units := sortBy (fun a b => decide (a < b)) (dedup ((rows.map Prod.fst).filter (· != 0)))
  let of (u : Nat) : List (List Word32) := (rows.filter fun r => r.1 == u).map Prod.snd
  let totals := (units.map fun u => sumRows w (of u)) ++
    (if (of 0).isEmpty then [] else [sumRows w (of 0)])
  if totals.isEmpty then List.replicate w f32Zero
  else (List.range w).map fun e => pairTree (totals.map fun t => t.getD e f32Zero)

/-- The pooled row of a bag: sum or mean (R94). -/
def bagRow (s : State) (t : TableSet) (d : TableDesc) (mean : Bool) (idx : List Nat) : List Word32 :=
  let sum := poolBag d.width (idx.map fun i => (rowUnit s t d i, rowValues s t d i))
  if mean ∧ idx ≠ [] then sum.map fun x => f32Div x (f32OfNat idx.length) else sum

/-- The output bytes of a lookup. -/
def lookupBytes (s : State) (t : TableSet) (d : TableDesc) (l : Lookup) : List Byte :=
  ((List.zip l.offsets (l.offsets.drop 1)).map fun o =>
    ((bagRow s t d l.mean ((l.indices.drop o.1).take (o.2 - o.1))).map fun x =>
      if t.package.bf16Out then leBytes (toBf16 x).toNat 2 else leBytes x.toNat 4).flatten).flatten

/-- The blocks a lookup reads. -/
def lookupBlocks (t : TableSet) (d : TableDesc) (l : Lookup) : List Nat :=
  dedup ((l.indices.map (rowBlocksOf t d)).flatten)

/-- The table set a lookup joined with (R96). -/
def setOf (s : State) (l : Lookup) : Option TableSet :=
  s.tableSets.find? fun t => t.id == l.set && t.version == l.version

/-- A block read by a lookup: its last use, and the promotion of a block read from its image in 64 of the
last 256 boundaries (R256, R258). -/
def noteLookupRead (n : Nat) (s : State) : State :=
  let b := s.block n
  if b.t0.isSome then modBlock n (fun b => { b with lastUse := s.boundary }) s
  else
    let l := s.boundary :: (b.imageReads.filter fun x => decide (s.boundary < x + 256) && decide (x ≠ s.boundary))
    let s := modBlock n (fun b => { b with lastUse := s.boundary, imageReads := l }) s
    if 64 ≤ l.length ∧ freeTarget s < t0FreeCount s b.home then issuePromotion 3 n s else s

/-- Output is written and its descriptor completes; a replay's context returns to FREE. -/
def finishOutput (o : Outgoing) (s : State) : State :=
  let free (s : State) : State := match o.ctx with
    | some i => freeCtx i s
    | none => s
  match writeHost s o.run.tenant o.address o.bytes with
  | some s => free (completeRun o.run stOk 0 o.handle 0 s)
  | none => free (completeRun o.run stAccess o.detail o.handle 0 s)

/-- Output of a lookup or replay step is written in row 3, or waits until its pieces have passed the host DMA
bucket of its tenant's partition (R95, R275, R302). -/
def sendOutput (o : Outgoing) (s : State) : State :=
  let r := govern (.output o.run.tenant o.run.qp o.run.index) (s.tenant o.run.tenant).partition hostDma [o.bytes.length] s
  if r.1 then finishOutput o r.2
  else { r.2 with outgoing := (r.2.outgoing.filter fun x => decide (x.run ≠ o.run)) ++ [o] }

/-- Row 3: outputs whose last piece has passed are written. -/
def sendWaiting (s : State) : State :=
  if s.ideHeld then s
  else
    forEach s.outgoing (fun o s =>
      let who := Waiter.output o.run.tenant o.run.qp o.run.index
      if (s.governed.find? fun g => decide (g.who = who)).any fun g => decide (g.left ≠ []) then s
      else finishOutput o { s with outgoing := s.outgoing.filter fun x => decide (x.run ≠ o.run), governed := s.governed.filter fun g => decide (g.who ≠ who) }) s

/-- One lookup of a lookup step that was not voided: its output written, or FAULTED. -/
def finishLookup (l : Lookup) (s : State) : State :=
  match setOf s l with
  | none => completeRun l.run stFaulted 0 0 0 s
  | some t =>
    match t.package.tables[l.table]? with
    | none => completeRun l.run stFaulted 0 0 0 s
    | some d =>
      let blocks := lookupBlocks t d l
      if l.faulted ∨ blocks.any fun n => decide ((s.block n).state = .lost) then
        completeRun l.run stFaulted 0 0 0 s
      else
        let bytes := lookupBytes s t d l
        let s := forEach blocks noteLookupRead s
        sendOutput { run := l.run, handle := 0, address := l.output, bytes := bytes, detail := 0x20, ctx := none } s

/-- Row 3 of a lookup step's boundary (R95): a voided step completes the lookups that consumed a data
error, and its others run again. -/
def deliverLookups (x : Step) (s : State) : State :=
  if x.voided ∨ s.ideHeld then
    let s := forEach (x.lookups.filter Lookup.faulted) (fun l s => completeRun l.run stFaulted 0 0 0 s) s
    { s with lookups := (x.lookups.filter fun l => !l.faulted) ++ s.lookups }
  else forEach x.lookups finishLookup s

end Sys2Proof.Machine
end

