-- ==== Sys2Proof/Machine/Verify.lean ====
section
/-! DEFINITION. What the sampling units decide in a step (R219 to R239): the logits of a row, the accepted
tokens of each sequence, the drafts of the next step, and the sampling trace of a replay. -/

namespace Sys2Proof.Machine

/-- The FP32 logits of a row: those a command handed to the sampling unit, otherwise free values (log 2). -/
def rowLogits (s : State) (n ctx row vocabulary : Nat) : List Word32 :=
  match fmFind s.logits (logitsKey ctx row) with
  | some l => (l ++ List.replicate (vocabulary - l.length) f32NegInf).take vocabulary
  | none => (List.range vocabulary).map (Config.logit n ctx row)

/-- What the pipeline of a sequence needs of its request. -/
def settingsOf (c : Ctx) : SampleSettings := { req := c.req, allowed := c.allowed }

/-- The draft shape of a package. -/
def shapeOf (p : Package) : DraftShape :=
  p.draft.getD { tree := false, count := 0, headCount := 0, parents := [], heads := [], ranks := [] }

/-- The walk of a sequence's verified tree: logits under number `n` of rows of context `i`. -/
def walkOf (s : State) (n i : Nat) (p : Package) (c : Ctx) (committed stepNo : Nat) (known drafts : List Nat) :
    Walk :=
  { settings := settingsOf c, seed := c.seed, committed := committed, stepNo := stepNo,
    parents := (shapeOf p).parents, ranks := (shapeOf p).ranks, drafts := drafts, known := known,
    logits := (List.range (drafts.length + 1)).map fun r => rowLogits s n i r p.vocabulary }

/-! ## Drafts of the next step (R222, R223) -/

/-- The package drafts with its heads: draft source 1, or heads beside a draft model (R86). -/
def hasHeads (p : Package) : Bool := decide (p.draftSource = 1) || p.draftHeads

/-- The drafts the heads give for the nodes of the shape, in node order. -/
def headDrafts (s : State) (n i : Nat) (p : Package) (c : Ctx) : List Nat :=
  let sh := shapeOf p
  if hasHeads p then
    (List.range (min 15 sh.count)).map fun k =>
      draftToken (settingsOf c) (rowLogits s n i (15 + nodeDepth sh.parents 16 k) p.vocabulary) (sh.ranks.getD k 0)
  else []

/-! ## Results of a main step -/

/-- The result of a sequence whose path of tokens is known: cut at the first stop (R238), ended by a row
without a candidate (R227). -/
def resultFrom (s : State) (n : Nat) (p : Package) (i : Nat) (c : Ctx) (first generated : Nat)
    (known : List Nat) (w : Walked) : SeqResult :=
  let x := cutAtStop c.req w.tokens known (generated + 1) first
  let ended : Option (Nat × Nat) := match x.2 with
    | some e => some e
    | none => if w.noCandidate then some (erNoCandidate, 0) else none
  { ctx := i, tokens := x.1, drafted := min w.drafted x.1.length, reached := ended.isSome,
    endReason := (ended.getD (0, 0)).1, stopIndex := (ended.getD (0, 0)).2,
    nextDrafts := if ended.isSome then [] else headDrafts s n i p c, first := false }

/-- A decoding sequence: its tree is walked from the base row (R232). -/
def decodeResult (s : State) (n : Nat) (p : Package) (r : RowPlan) : SeqResult × Nat :=
  let c := s.ctx r.ctx
  let w := accept (walkOf s n r.ctx p c r.committed c.stepNo c.hist (r.drafts.take r.nodes))
  (resultFrom s n p r.ctx c (r.committed + 1) c.generated c.hist w, w.nonfinite)

/-- A chunk that completes the pending tokens selects one token, the first of its prompt or APPEND (R137,
R234). -/
def chunkResult (s : State) (n : Nat) (p : Package) (r : RowPlan) : SeqResult × Nat :=
  let c := s.ctx r.ctx
  let known := c.hist.take r.chunkFirst ++ r.drafts
  let w := accept (walkOf s n r.ctx p c r.committed c.stepNo known [])
  (resultFrom s n p r.ctx c (r.chunkLast + 1) 0 known w, w.nonfinite)

/-- The result of one row of the length table; none for a chunk that leaves tokens pending. -/
def rowResult (s : State) (n : Nat) (p : Package) (r : RowPlan) : Option (SeqResult × Nat) :=
  if r.chunk then (if r.lastChunk then some (chunkResult s n p r) else none)
  else some (decodeResult s n p r)

/-- Every result of a main step, and the non-finite logits by home quadrant (R123). -/
def mainResults (n : Nat) (x : Step) (s : State) : State :=
  match (s.slot x.slot).package with
  | none => s
  | some p =>
    let l := x.rows.filterMap fun r => (rowResult s n p r).map fun y => (r.home, y.1, y.2)
    let bad := l.foldl (fun m y => if y.2.2 = 0 then m else fmAdd m y.1 y.2.2) s.faults.nonfiniteLogit
    { s with faults := { s.faults with nonfiniteLogit := bad }, step := s.step.map fun x => { x with results := l.map fun y => y.2.1 } }

/-! ## Results of a draft step (R224) -/

/-- The drafts of a sequence with those of one depth filled in from the draft model's logits: depth 1 from
the base row, the children of node `j` from row `j + 1`. -/
def draftFill (s : State) (n depth : Nat) (p : Package) (r : RowPlan) : SeqResult :=
  let c := s.ctx r.ctx
  let sh := shapeOf p
  let row (k : Nat) : Nat := if sh.parents.getD k 0xFF = 0xFF then 0 else sh.parents.getD k 0 + 1
  let l := (List.range r.nodes).map fun k =>
    if nodeDepth sh.parents 16 k = depth then
      draftToken (settingsOf c) (rowLogits s n r.ctx (row k) p.vocabulary) (sh.ranks.getD k 0)
    else r.drafts.getD k 0
  { ctx := r.ctx, tokens := [], drafted := 0, reached := false, endReason := 0, stopIndex := 0,
    nextDrafts := l, first := false }

/-- The results of a draft step of a depth for the main model of slot `k`: the rows are those of the round. -/
def draftResults (n depth : Nat) (round : Step) (s : State) : State :=
  match (s.slot round.slot).package with
  | none => s
  | some p =>
    { s with step := s.step.map fun x => { x with results := round.rows.map (draftFill s n depth p) } }

/-! ## The sampling trace (Table 11-12) -/

/-- What the trace of one row holds. -/
structure Trace where
  token : Nat
  outcome : Nat
  tests : Nat
  sum : Word32
  survivors : Nat
  draws : List (Nat × Nat)
  sumFinal : Word32
  deriving DecidableEq, Repr

/-- A row the accepted path does not reach. -/
def unreached : Trace :=
  { token := 0xFFFFFFFF, outcome := 4, tests := 0, sum := 0, survivors := 0, draws := [], sumFinal := 0 }

/-- The tests of a row's children, counted, with their draws. -/
def traceKids (k : Walk) (row : Nat) :
    List Nat → Nat → List (Nat × Word32) → List (Nat × Nat) × Option (Nat × Nat) × List (Nat × Word32)
  | [], _, w => ([], none, w)
  | kid :: r, t, w =>
    let tok := k.drafts.getD (kid - 1) 0
    let x := drawWord k.seed t row k.committed k.stepNo
    let wt := ((w.find? fun p => p.1 == tok).map Prod.snd).getD f32Zero
    if f32Lt (f32Mul (uniform x) (weightSum w)) wt then ([(t, x)], some (kid, tok), w)
    else
      let y := traceKids k row r (t + 1) (w.map fun p => if p.1 == tok then (p.1, f32Zero) else p)
      ((t, x) :: y.1, y.2)

/-- The trace of one reached row, and the row that follows it on the accepted path. -/
def traceRow (k : Walk) (known : List Nat) (row : Nat) : Trace × Option (Nat × Nat) :=
  let l := (stages16 k.settings (lastTokens known) (k.logits.getD row [])).1
  if noCandidate l then ({ unreached with outcome := 3 }, none)
  else if f32IsZero (rTemperature k.settings.req.block) then
    let goal := target l
    match (childRows k row).find? fun c => k.drafts.getD (c - 1) 0 == goal with
    | some c => ({ unreached with token := goal, outcome := 0 }, some (c, goal))
    | none => ({ unreached with token := goal, outcome := 2 }, none)
  else
    let w := (stages8to12 k.settings.req.block l).1
    let y := traceKids k row (childRows k row) 0 w
    let base := { unreached with tests := y.1.length, sum := weightSum w, survivors := w.length, draws := y.1 }
    match y.2.1 with
    | some (c, tok) => ({ base with token := tok, outcome := 0 }, some (c, tok))
    | none =>
      let x := drawWord k.seed 15 row k.committed k.stepNo
      ({ base with token := weightedPick (uniform x) y.2.2, outcome := 1, draws := y.1 ++ [(15, x)], sumFinal := weightSum y.2.2 }, none)

/-- The traces of the rows of the accepted path, by row. -/
def tracePath (k : Walk) : Nat → List Nat → Nat → List (Nat × Trace)
  | 0, _, _ => []
  | fuel + 1, known, row =>
    let x := traceRow k known row
    (row, x.1) :: (match x.2 with
      | some (c, tok) => tracePath k fuel (known ++ [tok]) c
      | none => [])

/-- The 128 bytes of a trace. -/
def traceBytes (t : Trace) : List Byte :=
  leBytes t.token 4 ++ leBytes t.outcome 1 ++ leBytes t.tests 1 ++ leBytes 0 2 ++ leBytes t.sum.toNat 4 ++
    leBytes t.survivors 4 ++
    ((List.range 16).map fun i => leBytes (((t.draws.find? fun d => d.1 == i).map Prod.snd).getD 0) 4).flatten ++
    leBytes t.sumFinal.toNat 4 ++ leBytes 0 44

end Sys2Proof.Machine
end

