-- ==== Sys2Proof/Machine/Replays.lean ====
section
/-! DEFINITION. REPLAY (R300 to R303): the checks of the descriptor, the replay context it takes, and the
output of a replay step. -/

namespace Sys2Proof.Machine

/-- The context a REPLAY names: any tenant's (R301). -/
def replayedCtx (s : State) (h : Nat) : Option Nat :=
  let i := h % 65536
  let c := s.ctx i
  if c.state ≠ .free ∧ c.incarnation = h / 65536 ∧ c.replay.isNone then some i else none

/-- The length below which a replay reads stored pages: the recorded chunk's first position, or the
committed length. -/
def replayBase (r : Journal) : Nat := if r.promptStep then r.chunkFirst else r.committed

/-- The replayed rows (R303). -/
def replayRows (r : Journal) : Nat := if r.promptStep then 1 else r.nodes + 1

/-- The size of a row record (R303). -/
def rowRecord (p : Package) : Nat := p.layersCount * (2 * p.width + 64) + 4 * p.vocabulary + 128

/-- The step read an entry of a ring that has been reused since (R203, R301). -/
def ringReused (s : State) (c : Ctx) (r : Journal) : Bool :=
  match fmFind s.pools c.slot with
  | some p =>
    decide (0 < p.ring) && decide ((replayBase r + 1 - p.window) / 256 + p.ring < c.pages.length)
  | none => false

/-- The first logical page that a context's table does not name with valid data. -/
def firstInvalid (s : State) (c : Ctx) (n : Nat) : Nat :=
  ((List.range n).find? fun k =>
    match pageAt c k with
    | some g => (s.group g).residence == .dropped
    | none => true).getD n

/-- The replay context (R302): the sequence's groups below the base, its request, seed and tokens; what is
missing is recomputed. -/
def takeReplay (i j : Nat) (d : Fetched) (r : Journal) (s : State) : State :=
  let c := s.ctx j
  let base := replayBase r
  let n := ceilDiv base 256
  let valid := min c.kvLen (256 * firstInvalid s c n)
  let kv := min base valid
  let pages := (List.range (ceilDiv kv 256)).map (pageAt c)
  let pieces := min (freePieces s) (piecesFor pages.length)
  let inc := (s.ctx i).incarnation
  let tokens := (List.range (if r.promptStep then r.chunkLast + 1 else base + 1)).map (tokenAt s c)
  let job : ReplayJob :=
    { tenant := d.tenant, qp := d.qp, index := d.index, cmdId := dCmdId d.desc, handle := dHandle d.desc,
      noIrq := dNoIrq d.desc, source := j, record := r, recomputed := decide (kv < base),
      output := dField d.desc 0x18 8 }
  let fresh : Ctx :=
    { freshCtx with state := .draining, tenant := 0, qp := d.qp, incarnation := inc, home := c.home, slot := c.slot, model := c.model, adapter := c.adapter, cls := c.cls, req := c.req, allowed := c.allowed, cmdId := dCmdId d.desc, opened := d.index, noIrq := dNoIrq d.desc, seed := c.seed, committed := base, before := base, kvLen := kv, hist := tokens, goal := base, appendAt := base + 1, decoding := true, lastStep := (s.slot c.slot).steps, lastBoundary := s.boundary, pages := pages, pieces := pieces, hashed := List.range pages.length, heldSince := s.boundary, replay := some job }
  forEach (pages.filterMap id) addRef
    (startRunning d { s with ctxs := fmSet s.ctxs i fresh, piecesUsed := s.piecesUsed + pieces })

/-- Check 9 of a REPLAY on a context (R301). -/
def replayCtx (j : Nat) (d : Fetched) (s : State) : State :=
  let c := s.ctx j
  match (s.slot c.slot).state, (s.slot c.slot).package with
  | .ready, some p =>
    if p.hash ≠ c.model then complete d stModelUnavailable 0 s
    else
      match takeCtx s with
      | none => complete d stNoContext 0 s
      | some i =>
        if (s.tenant 0).ctxQuota ≤ s.ctxCount 0 then complete d stQuota 0 s
        else
          match c.journal.find? fun r => r.step == dField d.desc 0x10 8 with
          | none => complete d stBadDescriptor 0x10 s
          | some r =>
            if ringReused s c r then complete d stBadDescriptor 0x10 s
            else if dField d.desc 0x20 8 < 256 + replayRows r * rowRecord p then complete d stBadDescriptor 0x20 s
            else takeReplay i j d r s
  | _, _ => complete d stModelUnavailable 0 s

/-- A REPLAY takes effect. -/
def replayEffect (d : Fetched) (s : State) : State :=
  match replayedCtx s (dHandle d.desc) with
  | none => complete d stUnknownHandle 0 s
  | some j => replayCtx j d s

def execReplay (d : Fetched) (s : State) : Host.Outcome State Fault Refusal :=
  run (.replay d) s (whenServing (takeEffect replayEffect d))

/-! ## The output (R303, Tables 11-11 and 11-12) -/

/-- The header. -/
def replayHeader (p : Package) (c : Ctx) (j : ReplayJob) : List Byte :=
  let r := j.record
  let flags := bit (decide (r.mode = 0)) + 2 * bit r.subst + 4 * bit r.shared + 8 * bit j.recomputed + 16 * bit r.voided
  leBytes r.step 8 ++ leBytes j.handle 4 ++ leBytes r.committed 4 ++ leBytes r.stepNo 4 ++
    leBytes (replayRows r) 2 ++ leBytes flags 1 ++ leBytes 1 1 ++ leBytes p.hash.toNat 48 ++
    leBytes c.seed.toNat 8 ++ leBytes p.width 4 ++ leBytes p.vocabulary 4 ++ leBytes p.layersCount 2 ++
    leBytes 0 2 ++ leBytes (rowRecord p) 4 ++ leBytes 0 160

/-- The 64-byte routing record of a layer: zeros for a dense layer; what the step computed is a free value
(log 2). -/
def routingRecord (p : Package) (l : Layer) (byte : Nat → Byte) : List Byte :=
  if l.feed ≠ 4 then List.replicate 64 0
  else
    ((List.range 8).map fun i => if i < p.topK then [byte (2 * i), byte (2 * i + 1)] else [0xFF, 0xFF]).flatten ++
      (List.range 32).map (fun i => byte (16 + i)) ++ List.replicate 16 0

/-- The residual streams and routing records of one row; `n` numbers the free values. -/
def layerBytes (p : Package) (n row : Nat) : List Byte :=
  ((List.range p.layersCount).map fun k =>
    let base := k * (2 * p.width + 64)
    ((List.range (2 * p.width)).map fun i => Config.replayByte n row (base + i)) ++
      (match p.layers[k]? with
        | some l => routingRecord p l fun i => Config.replayByte n row (base + 2 * p.width + i)
        | none => List.replicate 64 0)).flatten

/-- The tokens of the drafts on a row's own path, first the shallowest. -/
def pathTokens (parents drafts : List Nat) : Nat → Nat → List Nat
  | 0, _ => []
  | _, 0 => []
  | fuel + 1, row + 1 =>
    let p := parents.getD row 0xFF
    (if p = 0xFF then [] else pathTokens parents drafts fuel (p + 1)) ++ [drafts.getD row 0]

/-- The record of one replayed row. -/
def rowBytes (s : State) (n : Nat) (p : Package) (c : Ctx) (r : Journal) (k : Walk) (traces : List (Nat × Trace))
    (row : Nat) : List Byte :=
  let known := k.known ++ pathTokens k.parents k.drafts 16 row
  let logits := (stages16 k.settings (lastTokens known) (k.logits.getD row [])).1
  let trace := if r.promptStep && !r.last then List.replicate 128 0
    else traceBytes (((traces.find? fun t => t.1 == row).map Prod.snd).getD unreached)
  layerBytes p n row ++ (logits.map fun z => leBytes z.toNat 4).flatten ++ trace

/-- The whole output of a replay. -/
def replayBytes (s : State) (n i : Nat) (p : Package) (c : Ctx) (j : ReplayJob) : List Byte :=
  let r := j.record
  let drafts := if r.promptStep then [] else r.drafts.take r.nodes
  let known := c.hist.take (if r.promptStep then r.chunkLast + 1 else r.committed + 1)
  let k := walkOf s n i p c r.committed r.stepNo known drafts
  let traces := tracePath k 17 known 0
  replayHeader p c j ++ ((List.range (replayRows r)).map (rowBytes s n p c r k traces)).flatten

/-- Row 3 of a replay step's boundary (R302): the output is written, the REPLAY completes and its context
returns to FREE; a voided step runs again. -/
def deliverReplay (i : Nat) (x : Step) (s : State) : State :=
  let c := s.ctx i
  match c.replay, (s.slot c.slot).package with
  | some j, some p =>
    if x.voided ∨ s.ideHeld then s
    else
      let f := takeFree s
      let bytes := replayBytes f.2 f.1 i p c j
      let r : Running := { tenant := j.tenant, qp := j.qp, index := j.index, cmdId := j.cmdId, noIrq := j.noIrq, opcode := 0x25 }
      sendOutput { run := r, handle := j.handle, address := j.output, bytes := bytes, detail := 0x18, ctx := some i } f.2
  | _, _ => s

end Sys2Proof.Machine
end

