-- ==== Sys2Proof/Machine/Admit.lean ====
section
/-! DEFINITION. Row 9 of the step boundary (Table 01-3): which step comes next and its batch (R64, R65, R95,
R134, R135, R198 to R200, R215, R216, R220, R224, R302). -/

namespace Sys2Proof.Machine

/-! ## Drafts (R85 to R87, R220, R240) -/

/-- Where the drafts of a sequence come from. -/
inductive DraftMode where
  | none | heads | round
  deriving DecidableEq, Repr

/-- Draft source 2 drafts by rounds while the draft model is bound and the sequence is caught up; otherwise
heads, where the package has them (R86, R87). -/
def draftMode (s : State) (k : Nat) (c : Ctx) : DraftMode :=
  match (s.slot k).package with
  | none => .none
  | some p =>
    if p.draftSource = 1 then .heads
    else if p.draftSource = 2 then
      if (draftSlot s k).isSome ∧ c.committed ≤ c.draftLen + 1 then .round
      else if p.draftHeads then .heads
      else .none
    else .none

/-- The sequence's next step is a probe (R240). -/
def isProbe (c : Ctx) : Bool := decide (c.adaptive < c.adaptiveStart) && decide ((c.sinceFall + 1) % 16 = 0)

/-- The adaptive node count of the next step, doubled in a probe. -/
def wantedNodes (c : Ctx) : Nat :=
  if isProbe c then min c.adaptiveStart (if c.adaptive = 0 then 1 else 2 * c.adaptive) else c.adaptive

/-- The number of draft nodes a step may verify for a sequence (R220), before the row limit. -/
def nodesFor (s : State) (k : Nat) (c : Ctx) (available : Nat) : Nat :=
  let p := (s.slot k).package
  let sh := (p.bind Package.draft)
  let parents := (sh.map DraftShape.parents).getD []
  let cap := min (min 15 ((sh.map DraftShape.count).getD 0)) (min available (wantedNodes c))
  let cap := min cap (min (rMaxNew c.req.block - c.generated - 1) (1048575 - c.committed))
  if rSpecOff c.req.block ∨ draftMode s k c = .none then 0
  else
    ((List.range (cap + 1)).reverse.find? fun n => decide (shapeDepth parents n + 2 ≤ rRingSize c.req.block)).getD 0

/-! ## Candidates -/

/-- The pending positions of a sequence: the first, and one past the last. A DONE sequence that an export
waits on and a replay context recompute up to the length needed (R61, R216, R302). -/
def pendingRange (s : State) (i : Nat) (c : Ctx) : Nat × Nat :=
  if c.state = .done then (c.kvLen, maxOf ((s.exports.filter fun j => j.ctx == i).map ExportJob.length))
  else (firstPending c, lastPending c)

/-- The sequence computes for a job beside its own tokens: it selects no token and needs no ring entry. -/
def jobOnly (c : Ctx) : Bool := c.replay.isSome || decide (c.state = .done)

/-- A candidate of a slot (R65, R199, R210). -/
def isCandidate (s : State) (k i : Nat) (c : Ctx) : Bool :=
  let r := pendingRange s i c
  decide (c.slot = k) && c.copy.isNone && !c.lookupPending &&
    (if c.replay.isSome then decide (c.kvLen < c.committed)
     else if c.state = .done then decide (r.1 < r.2)
     else if c.state = .decode then true
     else c.state.working && decide (r.1 < r.2))

/-- The admission class (R65). -/
def admissionClass (s : State) (c : Ctx) : Nat :=
  if 64 ≤ (s.slot c.slot).steps - c.lastStep ∧ 2 ≤ c.cls then c.cls - 1 else c.cls

/-- The key of the candidate order. -/
def candidateKey (s : State) (x : Nat × Ctx) : List Int :=
  [(admissionClass s x.2 : Int), ((nextDeadline x.2).getD (2 ^ 96) : Nat), -((s.slot x.2.slot).steps - x.2.lastStep : Nat),
    (x.1 : Int)]

/-- The candidates of a slot in order. -/
def candidates (s : State) (k : Nat) : List (Nat × Ctx) :=
  sortBy (fun a b => lexLt (candidateKey s a) (candidateKey s b)) (s.ctxs.filter fun c => isCandidate s k c.1 c.2)

/-! ## Token rings (R45) -/

/-- Entries of the ring that are free. -/
def ringFree (c : Ctx) : Nat := rRingSize c.req.block - (c.ringWritten - c.ringHead)

/-- The ring requirement of a sequence: its longest path, plus 2. -/
def ringNeed (s : State) (c : Ctx) (available : Nat) : Nat :=
  let parents := (((s.slot c.slot).package.bind Package.draft).map DraftShape.parents).getD []
  if c.state = .decode then shapeDepth parents (nodesFor s c.slot c available) + 2 else 2

/-- The drafts a sequence's requirement counts with. -/
def ringDrafts (s : State) (c : Ctx) : Nat := if draftMode s c.slot c = .round then 15 else c.drafts.length

/-- The ring-control line of one sequence is read where its free count is below the requirement. -/
def readRingHead (i : Nat) (s : State) : State :=
  let c := s.ctx i
  if ringNeed s c (ringDrafts s c) ≤ ringFree c then s
  else
    match readHost s c.tenant (c.blockAddr + 0x1C0) 64 with
    | none => drainSeq i (drainFor stAccess (blockDetail 0x1C0) erAccess) s
    | some bs =>
      let d := countDiff (leAt bs 0 4) c.ringHead
      if countDiff (leAt bs 0 4) c.ringWritten ≤ 0 ∧ 0 ≤ d then modCtx i (fun c => { c with ringHead := c.ringHead + d.toNat }) s
      else drainSeq i (drainFor stBadDescriptor (blockDetail 0x1C0) erBadDescriptor) s

/-- A wait for ring entries, counted: a sequence in DECODE or PROMPT still below its requirement. -/
def countWait (i : Nat) (s : State) : State :=
  let c := s.ctx i
  if (c.state = .decode ∨ c.state = .prompt) ∧ ringFree c < ringNeed s c (ringDrafts s c) then
    count c.tenant (fun k => { k with ringWaits := k.ringWaits + 1 }) s
  else s

/-- The ring-control lines of a boundary, and the waits. -/
def readRingHeads (s : State) : State :=
  if s.ideHeld then s
  else forEach ((s.ctxs.filter fun c => c.2.state.working && c.2.replay.isNone).map Prod.fst)
    (fun i s => countWait i (readRingHead i s)) s

/-! ## Forming a batch -/

/-- A batch being formed: its rows, its adapters, the sequences passed over because a group was not in T0. -/
structure Batch where
  rows : List RowPlan
  adapters : List Nat
  late : List Nat
  deriving DecidableEq, Repr

/-- A batch without rows. -/
def emptyBatch : Batch := { rows := [], adapters := [], late := [] }

/-- Every block of an adapter has its T0 copy. -/
def adapterInT0 (s : State) (a : Adapter) : Bool :=
  (List.range a.blocks).all fun k => (s.block (a.firstBlock + k)).t0.isSome

/-- The adapter of a sequence fits: at most 64 in a step, its blocks in T0; otherwise they are brought in
(R90). -/
def fitAdapter (b : Batch) (a : Nat) (s : State) : Bool × State :=
  if a = 0xFFFF then (true, s)
  else
    match fmFind s.adapters a with
    | none => (false, s)
    | some x =>
      if x.unusable ∨ (64 ≤ b.adapters.length ∧ !(b.adapters.contains a)) then (false, s)
      else if adapterInT0 s x then (true, s)
      else (false, forEach (List.range x.blocks) (fun k s => issuePromotion 3 (x.firstBlock + k) s) s)

/-- A spill of a group of an admitted sequence is abandoned (Table 08-5). -/
def keepGroups (i : Nat) (s : State) : State := forEach (ctxGroups (s.ctx i)) abandonSpill s

/-- A candidate joins the batch. -/
def joinBatch (b : Batch) (r : RowPlan) (s : State) : Batch × State :=
  let c := s.ctx r.ctx
  let s := modCtx r.ctx (fun c =>
    { c with state := if c.state = .admitted then .prompt else c.state, lastStep := (s.slot c.slot).steps + 1, lastBoundary := s.boundary }) s
  ({ b with rows := b.rows ++ [r], adapters := if c.adapter = 0xFFFF ∨ b.adapters.contains c.adapter then b.adapters else b.adapters ++ [c.adapter] },
    keepGroups r.ctx s)

/-- Token-history chunks that writing positions `a` to `b` may need (R218). -/
def historyFits (s : State) (a b : Nat) : Bool := decide (s.historyUsed + ((b + 1) / 256 - a / 256) ≤ 67108864)

/-- A decoding candidate. -/
def takeDecode (b : Batch) (i : Nat) (s : State) : Batch × State :=
  let c := s.ctx i
  let room := 4096 - candidateRows b.rows
  if room = 0 then (b, s)
  else if ringFree c < ringNeed s c c.drafts.length then (b, s)
  else
    let n := min (nodesFor s c.slot c c.drafts.length) (room - 1)
    if !(historyFits s c.committed (c.committed + n)) then (b, s)
    else
      match preparePages i (pagesOf c.committed (c.committed + n)) s with
      | .wait s => (b, s)
      | .ready s =>
        joinBatch b { ctx := i, committed := c.committed, nodes := n, drafts := c.drafts.take n, chunkFirst := 0, chunkLast := 0, chunk := false, recompute := false, lastChunk := false, home := c.home, probe := isProbe c } s

/-- The tokens of positions `a` to `b - 1`. -/
def tokensFrom (s : State) (c : Ctx) (a b : Nat) : List Nat := (List.range (b - a)).map fun k => tokenAt s c (a + k)

/-- The part of a chunk that lies in the prompt buffer: first position and number (R42). -/
def promptPart (c : Ctx) (a b : Nat) : Nat × Nat :=
  let lo := max a (max c.hist.length c.promptStart)
  let hi := min b (min c.appendAt (c.promptStart + rPromptLen c.req.block))
  (lo, hi - lo)

/-- A candidate with pending positions: its next chunk (R134, R135). -/
def takeChunk (b : Batch) (i : Nat) (s : State) : Batch × State :=
  let c := s.ctx i
  let r := pendingRange s i c
  let stop := chunkEnd (chunkLength s) r.1 r.2
  let tokens := stop - r.1
  let limit := if s.faults.daPrompt.any id then 1024 else 8192
  let part := promptPart c r.1 stop
  let addr := rPrompt c.req.block + 4 * (part.1 - c.promptStart)
  if 16 ≤ (b.rows.filter RowPlan.chunk).length ∨ limit < chunkTokens b.rows + tokens then (b, s)
  else if !(jobOnly c) ∧ ringFree c < ringNeed s c c.drafts.length then (b, s)
  else if !(historyFits s r.1 stop) then (b, s)
  else if 0 < part.2 ∧ !(reachable s c.tenant addr (4 * part.2) false) then
    (b, drainSeq i (drainFor stAccess (blockDetail 0x008) erAccess) s)
  else
    match preparePages i (pagesOf r.1 (stop - 1)) s with
    | .wait s => (b, s)
    | .ready s =>
      joinBatch b { ctx := i, committed := c.committed, nodes := 0, drafts := tokensFrom s c r.1 stop, chunkFirst := r.1, chunkLast := stop - 1, chunk := true, recompute := decide (stop ≤ c.committed), lastChunk := decide (stop = r.2) && !c.decoding && !(jobOnly c), home := c.home, probe := isProbe c } s

/-- One candidate is taken, or passed over (R65). -/
def takeCandidate (i : Nat) (x : Batch × State) : Batch × State :=
  let b := x.1
  let s := x.2
  let c := s.ctx i
  if 512 ≤ b.rows.length then x
  else if !(groupsResident s c) then ({ b with late := b.late ++ [i] }, s)
  else
    let a := fitAdapter b c.adapter s
    if !a.1 then (b, a.2)
    else if c.state = .decode ∧ c.replay.isNone ∧ c.committed ≤ c.kvLen then takeDecode b i a.2
    else takeChunk b i a.2

/-- The batch of a slot. -/
def formBatch (k : Nat) (s : State) : Batch × State :=
  (candidates s k).foldl (fun x c => takeCandidate c.1 x) (emptyBatch, s)

/-! ## Prefetches (R215) -/

/-- Prefetches of the groups a context reads. -/
def prefetchCtx (i : Nat) (s : State) : State := forEach (ctxGroups (s.ctx i)) startPrefetch s

/-- Prefetches of a boundary: sequences passed over, sequences that left SIDING, PARKED or DORMANT at it,
IMPORT_PREFIXes. -/
def issuePrefetches (late held : List Nat) (s : State) : State :=
  let left := held.filter fun i => (s.ctx i).state.working
  let s := forEach left prefetchCtx (forEach late prefetchCtx s)
  forEach s.imports (fun j s => forEach j.lgns startPrefetch s) s

/-! ## Which model (R64) -/

/-- A model may step: READY, no block voided and not MAPPED again, its draft's neither (R282). -/
def modelFree (s : State) (k : Nat) : Bool :=
  let x := s.slot k
  decide (x.state = .ready) && !x.lost && x.waitingBlocks.isEmpty && groupSteppable s k &&
    (match draftSlot s k with
      | some j => (s.slot j).waitingBlocks.isEmpty
      | none => true)

/-- The replay context that comes next for a slot, in REPLAY order (R302). -/
def nextReplay (s : State) (k : Nat) : Option (Nat × Ctx) :=
  leastBy (fun (a b : Nat × Ctx) =>
      let key (x : Nat × Ctx) : List Int := match x.2.replay with
        | some j => [(x.2.heldSince : Int), ((j.tenant * 16 + j.qp : Nat) : Int), (j.index : Int)]
        | none => []
      lexLt (key a) (key b))
    (s.ctxs.filter fun c => decide (c.2.slot = k) && c.2.replay.isSome && !(s.outgoing.any fun o => decide (o.ctx = some c.1)))

/-- Its pages are complete and in T0. -/
def replayReady (s : State) (k : Nat) : Bool :=
  match nextReplay s k with
  | some c => decide (c.2.committed ≤ c.2.kvLen) && groupsResident s c.2
  | none => false

/-- A replay step may be taken now: at most one per model in 64 boundaries. -/
def replayDue (s : State) (k : Nat) : Bool :=
  replayReady s k && (match fmFind s.lastReplay k with
    | some b => decide (b + 64 ≤ s.boundary)
    | none => true)

/-- The model of the at-risk sequence with the earliest deadline. -/
def riskModel (s : State) : Option Nat :=
  (leastBy (fun (a b : Nat × Ctx) =>
      lexLt [((nextDeadline a.2).getD 0 : Nat), a.2.slot] [((nextDeadline b.2).getD 0 : Nat), b.2.slot])
    (s.ctxs.filter fun c => atRisk s c.2)).map fun c => c.2.slot

/-- The slots in the order in which their steps come: the model of an at-risk sequence, then by the longest
time since their last step. -/
def modelOrder (s : State) : List Nat :=
  let l := (List.range 16).filter fun k => modelFree s k && (!(candidates s k).isEmpty || replayDue s k)
  let l := sortBy (fun a b => lexLt [((s.slot a).lastStart : Int), a] [((s.slot b).lastStart : Int), b]) l
  match riskModel s with
  | some k => if l.contains k then k :: l.filter (· != k) else l
  | none => l

/-! ## Rounds of a draft model (R87, R224) -/

/-- What row 9 hands to row 10: the kind of step, its slot, its rows and its lookups. -/
structure Choice where
  kind : StepKind
  slot : Nat
  rows : List RowPlan
  lookups : List Lookup
  deriving DecidableEq, Repr

/-- A step that stands for a round: its rows are the sequences with the drafts found so far. -/
def roundStep (k : Nat) (rows : List RowPlan) : Step :=
  { kind := .main, slot := k, counter := 0, cls := 0, mode := 0, hot := false, derated := false, level := 0, rows := rows, lookups := [], sections := [], slots := 0, generation := 0, started := false, startTime := 0, voided := false, voidedBlocks := [], substituted := false, heldPeriods := 0, expertFill := [], results := [] }

/-- Pages of the draft model's pool are made writable. -/
def prepareDraft (i a b : Nat) (s : State) : Bool × State :=
  match draftSlot s (s.ctx i).slot with
  | none => (false, s)
  | some k =>
    let c := s.ctx i
    match preparePages i (pagesOf a b) (enterDraft i k s) with
    | .ready s => (true, leaveDraft i c s)
    | .wait s => (false, leaveDraft i c s)

/-- The draft model's groups of a sequence are in T0. -/
def draftResident (s : State) (c : Ctx) : Bool :=
  c.draftPages.all fun e => match e with
    | some g => (s.group g).residence == .t0 || (s.group g).residence == .spilling
    | none => true

/-- Sequences that must catch up with a bound draft model (R87). -/
def behind (s : State) (k : Nat) : List (Nat × Ctx) :=
  if (draftSlot s k).isNone then []
  else (candidates s k).filter fun c => c.2.replay.isNone && c.2.state.working && decide (c.2.draftLen + 1 < c.2.committed)

/-- One catch-up chunk (R87, R134, R135). -/
def takeCatchUp (i : Nat) (x : Batch × State) : Batch × State :=
  let b := x.1
  let s := x.2
  let c := s.ctx i
  let stop := chunkEnd (chunkLength s) c.draftLen (c.committed - 1)
  let limit := if s.faults.daPrompt.any id then 1024 else 8192
  if 16 ≤ b.rows.length ∨ limit < chunkTokens b.rows + (stop - c.draftLen) ∨ !(draftResident s c) then (b, s)
  else
    let r := prepareDraft i c.draftLen (stop - 1) s
    if !r.1 then (b, r.2)
    else
      ({ b with rows := b.rows ++ [{ ctx := i, committed := c.committed, nodes := 0, drafts := tokensFrom s c c.draftLen stop, chunkFirst := c.draftLen, chunkLast := stop - 1, chunk := true, recompute := false, lastChunk := false, home := c.home, probe := false }] },
        r.2)

/-- One sequence of a round: the nodes its main step is to verify. -/
def takeRound (k i : Nat) (x : Batch × State) : Batch × State :=
  let b := x.1
  let s := modCtx i (fun c => { c with drafts := [] }) x.2
  let c := s.ctx i
  let n := nodesFor s k c 15
  let parents := (((s.slot k).package.bind Package.draft).map DraftShape.parents).getD []
  if n = 0 ∨ 512 ≤ b.rows.length ∨ 4096 < candidateRows b.rows + n + 1 then (b, s)
  else if !(draftResident s c) then ({ b with late := b.late ++ [i] }, s)
  else
    let r := prepareDraft i c.draftLen (c.committed + shapeDepth parents n) s
    if !r.1 then (b, r.2)
    else
      ({ b with rows := b.rows ++ [{ ctx := i, committed := c.committed, nodes := n, drafts := [], chunkFirst := 0, chunkLast := 0, chunk := false, recompute := false, lastChunk := false, home := c.home, probe := isProbe c }] },
        r.2)

/-- The rows of draft step `d` of a round: every position up to the pending one, or one row for each node
of depth `d - 1` (R224). -/
def draftRows (s : State) (k d : Nat) (rows : List RowPlan) : List RowPlan :=
  let parents := (((s.slot k).package.bind Package.draft).map DraftShape.parents).getD []
  (rows.map fun r =>
    let n := if d = 1 then r.committed + 1 - (s.ctx r.ctx).draftLen
      else ((List.range r.nodes).filter fun j => nodeDepth parents 16 j + 1 == d).length
    (n, r)).filterMap fun x => if x.1 = 0 then none else some { x.2 with nodes := x.1 - 1 }

/-- The depth of a round. -/
def roundDepth (s : State) (k : Nat) (rows : List RowPlan) : Nat :=
  let parents := (((s.slot k).package.bind Package.draft).map DraftShape.parents).getD []
  maxOf (rows.map fun r => shapeDepth parents r.nodes)

/-- The main step of a slot. -/
def mainChoice (k : Nat) (s : State) : Option Choice × List Nat × State :=
  let x := formBatch k s
  if x.1.rows.isEmpty then (none, x.1.late, x.2)
  else (some { kind := .main, slot := k, rows := x.1.rows, lookups := [] }, x.1.late, x.2)

/-- The turn of a slot after any catching up: the first draft step of a round, or the main step. -/
def roundOrMain (k : Nat) (s : State) : Option Choice × List Nat × State :=
  match draftSlot s k with
  | none => mainChoice k s
  | some j =>
    let l := (candidates s k).filter fun c => decide (c.2.state = .decode) && c.2.replay.isNone && decide (draftMode s k c.2 = .round)
    let x := l.foldl (fun x c => takeRound k c.1 x) (emptyBatch, s)
    if x.1.rows.isEmpty then
      let y := mainChoice k x.2
      (y.1, x.1.late ++ y.2.1, y.2.2)
    else
      let s := { x.2 with round := some (roundStep k x.1.rows) }
      (some { kind := .draft 1, slot := j, rows := draftRows s k 1 x.1.rows, lookups := [] }, x.1.late, s)

/-- The turn of a slot: its replay step, a step that catches up, or what follows (R302, R87). -/
def modelTurn (k : Nat) (s : State) : Option Choice × List Nat × State :=
  match (if replayDue s k then nextReplay s k else none) with
  | some c =>
    let r := (c.2.replay.map ReplayJob.record)
    let rows := match r with
      | some r => [{ ctx := c.1, committed := c.2.committed, nodes := if r.promptStep then 0 else r.nodes, drafts := r.drafts, chunkFirst := r.chunkFirst, chunkLast := r.chunkLast, chunk := r.promptStep, recompute := false, lastChunk := r.last, home := c.2.home, probe := false }]
      | none => []
    (some { kind := .replay c.1, slot := k, rows := rows, lookups := [] }, [], { s with lastReplay := fmSet s.lastReplay k s.boundary })
  | none =>
    match draftSlot s k with
    | none => mainChoice k s
    | some j =>
      let x := (behind s k).foldl (fun x c => takeCatchUp c.1 x) (emptyBatch, s)
      if x.1.rows.isEmpty then roundOrMain k x.2
      else
        (some { kind := .draft 0, slot := j, rows := x.1.rows, lookups := [] }, [],
          { x.2 with round := some (roundStep k []) })

/-- The first slot of an order with a step to take. -/
def firstTurn : List Nat → List Nat → State → Option Choice × List Nat × State
  | [], late, s => (none, late, s)
  | k :: r, late, s =>
    let x := modelTurn k s
    match x.1 with
    | some c => (some c, late ++ x.2.1, x.2.2)
    | none => firstTurn r (late ++ x.2.1) x.2.2

/-- The drafts a draft step found enter the round; sequences that left DECODE lose theirs (R224). -/
def roundRows (s : State) (m : Step) (results : List SeqResult) : List RowPlan :=
  (m.rows.filter fun r => decide ((s.ctx r.ctx).state = .decode) && decide ((s.ctx r.ctx).committed = r.committed)).map fun r =>
    match results.find? fun y => y.ctx == r.ctx with
    | some y => { r with drafts := y.nextDrafts }
    | none => r

/-- A round goes on: its next draft step, or its main step. `done` is the draft step that ended, with the
depth it was for. -/
def continueRound (m : Step) (done : Option (Nat × List SeqResult)) (s : State) : Option Choice × List Nat × State :=
  let k := m.slot
  match draftSlot s k with
  | none => mainChoice k { s with round := none }
  | some j =>
    match done with
    | some (0, _) => roundOrMain k { s with round := none }
    | some (d, results) =>
      let rows := roundRows s m results
      if d < roundDepth s k rows then
        (some { kind := .draft (d + 1), slot := j, rows := draftRows s k (d + 1) rows, lookups := [] }, [],
          { s with round := some (roundStep k rows) })
      else
        mainChoice k (forEach rows (fun r => modCtx r.ctx (fun c => { c with drafts := r.drafts })) { s with round := none })
    | none => modelTurn k { s with round := none }

/-! ## Lookup steps (R95) -/

/-- The lookups at the head of the queue whose indices together stay within 4,194,304. -/
def takeLookups : Nat → List Lookup → List Lookup
  | _, [] => []
  | room, l :: r => if l.indices.length ≤ room then l :: takeLookups (room - l.indices.length) r else []

/-- The lookup queue: the lookups whose reads are over. -/
def lookupQueue (s : State) : List Lookup :=
  s.lookups.filter fun l => !(held s (.reads l.run.tenant l.run.qp l.run.index))

def lookupChoice (s : State) : Option Choice × List Nat × State :=
  let l := takeLookups 4194304 (lookupQueue s)
  (some { kind := .lookup, slot := 0, rows := [], lookups := l }, [],
    { s with lookups := s.lookups.filter fun x => !(l.any fun y => decide (y.run = x.run)) })

/-- The oldest lookup has waited 1 ms. -/
def lookupOverdue (s : State) : Bool :=
  match lookupQueue s with
  | l :: _ => decide (l.joined + ofNs 1000000 ≤ s.stamp)
  | [] => false

/-! ## Row 9 -/

/-- No step may be taken now (R353, R387, R411, R412, R459). -/
def stepsBlocked (s : State) : Bool :=
  s.ideHeld || s.boot.latchStops || s.boot.removing || !(domainsReady s)

/-- The draft step that has just ended without being voided: its depth and results. -/
def endedDraft (s : State) : Option (Nat × List SeqResult) :=
  match ended s with
  | some x =>
    match x.kind with
    | .draft d => if x.voided then none else some (d, x.results)
    | _ => none
  | none => none

/-- The step that comes next, and the sequences passed over for want of a group in T0. -/
def chooseStep (s : State) : Option Choice × List Nat × State :=
  match s.round with
  | some m =>
    if modelFree s m.slot then continueRound m (endedDraft s) s
    else firstTurn (modelOrder s) [] { s with round := none }
  | none =>
    let calm := !(s.ctxs.any fun c => atRisk s c.2)
    if lookupOverdue s || (!(lookupQueue s).isEmpty && calm && decide (4 ≤ s.sinceLookup)) then lookupChoice s
    else
      let x := firstTurn (modelOrder s) [] s
      match x.1 with
      | some c => (some c, x.2)
      | none => if !(lookupQueue x.2.2).isEmpty ∧ calm then
          let y := lookupChoice x.2.2
          (y.1, x.2.1, y.2.2)
        else x

/-- Lookups of a lookup step that was built and not started return to the head of the queue. -/
def unbuilt (s : State) : State :=
  match s.step with
  | some x => if x.started then s else { s with step := none, lookups := x.lookups ++ s.lookups }
  | none => s

/-- Row 9; `held` are the contexts that were in SIDING, PARKED or DORMANT when the boundary began. -/
def admitRow (held : List Nat) (s : State) : Option Choice × State :=
  let s := unbuilt (readRingHeads s)
  let x := if stepsBlocked s then (none, [], s) else chooseStep s
  (x.1, issuePrefetches x.2.1 held { x.2.2 with step := none })

end Sys2Proof.Machine
end

