-- ==== Sys2Proof/Machine/Build.lean ====
section
/-! DEFINITION. Row 10 of the step boundary (Table 01-3): the envelope controller, the thermal variant, the
timetable, the scalar bank, the promotions a step needs, the plan of a group step (R142, R170, R277, R288,
R293, R329, R330, R393 to R399). -/

namespace Sys2Proof.Machine

/-! ## The envelope controller (R393, R396, R398) -/

/-- The base of the power block. -/
def powerBase : Nat := 0x20000

/-- The effective limit in watts. -/
def effectiveLimit (s : State) : Nat :=
  let l := min (s.reg (powerBase + 4) 0 2400) s.power.bmcLimit
  let p := phasesOf s
  if p < 24 then min l (p * 2600 / 24) else l

/-- The level and the pace after one test of the greatest control average, in 0.1 W. -/
def envelopeTest (limit : Nat) (x : Power) : Power :=
  let x := { x with effective := limit }
  if limit * 10 < x.pavg then
    if x.level < 3 then { x with level := x.level + 1, below := 0 }
    else { x with pace := min 4096 (if x.pace = 0 then 1 else 2 * x.pace), below := 0 }
  else if x.pavg < limit * 9 then
    if 8 ≤ x.below + 1 then
      if x.pace = 0 then { x with level := x.level - 1, below := 0 } else { x with pace := x.pace / 2, below := 0 }
    else { x with below := x.below + 1 }
  else { x with below := 0 }

/-! ## Thermal variants (Table 07-6, R354) -/

/-- The greatest layer temperature, in 0.25 degrees. -/
def hottest (s : State) : Int := (s.power.layerTemp.map Prod.snd).foldl max 0

/-- The refresh and derating states of a row 10. -/
def thermalTest (s : State) : State :=
  let f := s.faults
  if f.forcedThermal then { s with faults := { f with hot := true, derated := true, forcedThermal := false } }
  else
    let t := hottest s
    let hot := if 340 < t then true else if t ≤ 328 then false else f.hot
    let derated := if 380 < t then true else if t ≤ 368 then false else f.derated
    { s with faults := { f with hot := hot, derated := derated } }

/-! ## The step built -/

/-- The members a group step spans beside this module, with their latest READY. -/
def planMembers (s : State) (k : Nat) : List (Nat × ReadyBody) :=
  if groupStep s k then
    (((List.range (modelSpan s k)).filter (· != 0)).filterMap fun p => (readyOf s p).map fun r => (p, r))
  else []

/-- The mode of a step: the main model's slot for main and draft steps, exact for a replay; a lookup step,
which no MODE governs, runs in fast mode (R297, R302, log 5). -/
def modeOf (s : State) (c : Choice) : Nat :=
  let slotMode (k : Nat) : Nat := s.regL (slotBase k) 8 0
  match c.kind with
  | .main => slotMode c.slot
  | .draft _ => slotMode ((s.round.map Step.slot).getD c.slot)
  | .replay _ => 1
  | .lookup => 0

/-- A choice built into a step (R288, R293, R300, R330). -/
def buildStep (c : Choice) (s : State) : Step :=
  let ms := planMembers s c.slot
  let hot := s.faults.hot || ms.any fun m => m.2.hot
  let derated := s.faults.derated || ms.any fun m => m.2.derated
  let level := max s.power.level (maxOf (ms.map fun m => m.2.level))
  let variant := variantCode hot derated level
  let cls := shapeClass (candidateRows c.rows) (chunkTokens c.rows)
  let mode := modeOf s c
  let indices := sumOf (c.lookups.map fun l => l.indices.length)
  let modules : List Tiles := ownTiles s :: ms.map fun m => (m.2.da, m.2.pa)
  let tt : List Placed × Nat := match c.kind, (s.slot c.slot).package with
    | .lookup, _ => ([], wholePeriods (Config.lookupSlots s.fwVersion indices variant))
    | _, some p => buildTimetable s modules p cls mode variant c.rows
    | _, none => ([], 16)
  { kind := c.kind, slot := c.slot, counter := s.stepCounter + 1, cls := cls, mode := mode, hot := hot, derated := derated, level := level, rows := c.rows, lookups := c.lookups, sections := tt.1, slots := tt.2, generation := s.generation, started := false, startTime := 0, voided := false, voidedBlocks := [], substituted := false, heldPeriods := 0, expertFill := [], results := [] }

/-- The scalar register file entry of a row (Table 06-4). -/
def scalarOf (s : State) (x : Step) (r : RowPlan) : Scalar :=
  let c := s.ctx r.ctx
  let p := (s.slot x.slot).package
  let ranks := dedup ((x.rows.map fun r => (s.ctx r.ctx).adapter).filter (· != 0xFFFF))
  { position := r.committed, rows := if r.chunk then 0 else r.nodes + 1, home := r.home,
    int4 := (p.map Package.kvInt4).getD false, temperature := rTemperature c.req.block,
    adapter := if c.adapter = 0xFFFF then 0xFFFF else (ranks.findIdx? (· == c.adapter)).getD 0xFFFF,
    adapterScale := ((fmFind s.adapters c.adapter).bind fun a => a.package.map Package.adapterScale).getD 0,
    chunkFirst := if r.chunk then r.chunkFirst else 0, chunkLast := if r.chunk then r.chunkLast else 0,
    window := (p.map fun p => maxOf (p.layers.map Layer.window)).getD 0 }

/-- The idle scalar bank loaded (R143). -/
def loadScalars (x : Step) (s : State) : State :=
  let l := x.rows.map (scalarOf s x)
  if s.activeBank = 0 then { s with bank1 := l, bankReady := true } else { s with bank0 := l, bankReady := true }

/-- The blocks of a tensor of a slot, by number. -/
def tensorBlocks (s : State) (k t : Nat) : List Nat :=
  (s.blocks.filter fun b => b.2.slot == k && b.2.tensor == t).map Prod.fst

/-- Promotions of the non-expert blocks that the step will stream without a T0 copy, in order of their first
stream slot (R277). -/
def promoteFor (x : Step) (s : State) : State :=
  let l := sortBy (fun a b => decide (a.startSlot < b.startSlot)) x.sections
  forEach (dedup (l.map Placed.tensor)) (fun t s =>
    match (s.slot x.slot).package.bind fun p => p.tensors[t]? with
    | some d => if d.expert < 0x8000 then s else forEach (tensorBlocks s x.slot t) (issuePromotion 3) s
    | none => s) s

/-! ## The plan of a group step (R329) -/

/-- The page edits of a boundary, as its group map shows them against the one before. -/
def planEdits (old : FMap Group) (s : State) (k : Nat) : List PlanEdit :=
  (s.groups.filter fun g => g.2.slot == k).filterMap fun g =>
    let o := fmGet old g.1 freeGroup
    let at' := s.ctxs.findSome? fun c => (pageIndex c.2 g.1).map fun p => (c.1, p)
    let edit (a : Nat) : PlanEdit :=
      { lgn := g.1, action := a, fill := g.2.fill, ctx := (at'.getD (0, 0)).1, page := (at'.getD (0, 0)).2 }
    if g.2.residence = .grace ∧ o.residence ≠ .grace then some (edit 3)
    else if g.2.sealed ∧ !o.sealed then some (edit 2)
    else if o.residence = .free ∧ g.2.residence = .t0 then some (edit 1)
    else none

/-- The plan of a built step. -/
def planOf (old : FMap Group) (x : Step) (s : State) : PlanBody :=
  { slot := x.slot, mode := x.mode, cls := x.cls, variant := variantCode x.hot x.derated x.level, steps := x.slots,
    starts := (x.sections.filter fun p => p.engine == 6).map Placed.startSlot,
    rows := x.rows.map fun r => (r.ctx, if r.chunk then 0 else r.nodes + 1), edits := planEdits old s x.slot }

/-- The numbers of a STEP_PLAN in the order of R329. -/
def planValues (counter : Nat) (p : PlanBody) : List Nat :=
  [counter, p.slot, p.mode, p.cls, p.variant, p.steps, p.starts.length, p.rows.length, p.edits.length] ++ p.starts ++
    (p.rows.map fun r => [r.1, r.2]).flatten ++
    (p.edits.map fun e => [e.lgn, e.action, e.fill, e.ctx, e.page]).flatten

/-- STEP_PLAN to every member of a group step; the manager waits for their READYs from its own ready time. -/
def sendPlans (old : FMap Group) (x : Step) (s : State) : State :=
  let ms := planMembers s x.slot
  if ms.isEmpty then s
  else
    let p := planOf old x s
    let s := forEach ms (fun m s =>
      match memberAt s m.1 with
      | some e => sendMsg { kind := 0x07, destination := e.id, tag := 0, epoch := e.epoch, status := 0, address := 0, values := planValues x.counter p, data := [] } s
      | none => s) s
    { s with junction := { s.junction with plan := some p, startAt := none, readyFor := [] } }

/-- Row 10: `old` is the group map when the boundary began. -/
def buildRow (old : FMap Group) (c : Option Choice) (s : State) : State :=
  let s := thermalTest { s with power := envelopeTest (effectiveLimit s) s.power }
  let s := { s with waits := s.power.pace, checked := true }
  match c with
  | none => s
  | some c =>
    let x := buildStep c s
    sendPlans old x (promoteFor x (loadScalars x { s with step := some x }))

end Sys2Proof.Machine
end

