-- ==== Sys2Proof/Machine/Ports.lean ====
section
/-! DEFINITION. Nuxus ports (R306 to R316, R321, R438): training, lane wear, flits, replay and credits. -/

namespace Sys2Proof.Machine

/-- The recovery domain of a port (Table 14-2). -/
def portDomain (p : Nat) : DomainId := { code := 10, quad := 0, inst := p }

/-- A port begins training: the reason of an earlier failure, lane wear and what was in flight are gone
(R307, R309, R325, R438). -/
def beginTraining (x : Port) : Port :=
  { x with state := .training, failReason := 0, laneWear := [], wearRun := [], credits := [], unacked := [], waiting := [], sinceAck := 0, replayRun := 0, nextSeq := 0, lastSeq := 4095, pending := 0 }

/-- A port goes DOWN. -/
def portDown (x : Port) : Port :=
  { x with state := .down, credits := [], unacked := [], waiting := [], sinceAck := 0, replayRun := 0, pending := 0 }

/-- A port that fails. -/
def failPort (reason : Nat) (x : Port) : Port := { portDown x with state := .failed, failReason := reason }

/-- ENABLE written 1 (R438): from DOWN; a cable that R447 does not accept leaves the port FAILED with LANES. -/
def enablePort (p : Nat) (cableOk : Bool) (s : State) : State :=
  let s := setReg (portBase p) 0 1 s
  if (s.port p).state = .down then
    modPort p (fun x => if cableOk then { beginTraining x with autoTrainings := 0 } else failPort 1 x) s
  else s

def execPortEnable (port : Nat) (cableOk : Bool) (s : State) : Host.Outcome State Fault Refusal :=
  run (.portEnable port cableOk) s (whenExposed (enablePort port cableOk))

/-- ENABLE written 0 (R438). -/
def disablePort (p : Nat) (s : State) : State :=
  let s := setReg (portBase p) 0 0 s
  match (s.port p).state with
  | .down => s
  | .training | .up => modPort p (fun x => { x with pending := 1 }) s
  | .failed => modPort p portDown s

def execPortDisable (port : Nat) (s : State) : Host.Outcome State Fault Refusal :=
  run (.portDisable port) s (whenExposed (disablePort port))

/-- RETRAIN written 1 (R438). -/
def retrainPort (p : Nat) (s : State) : State :=
  match (s.port p).state with
  | .down => refuseWrite .pf (portBase p + 4) 8 s
  | .training => s
  | .up => modPort p (fun x => if x.pending = 1 then x else { x with pending := 2 }) s
  | .failed => modPort p (fun x => { beginTraining x with autoTrainings := 0 }) s

def execRetrain (port : Nat) (s : State) : Host.Outcome State Fault Refusal :=
  run (.retrain port) s (whenExposed (retrainPort port))

/-- Row 7 for one port: DOWN or TRAINING as asked; a training the provider asks for is none of the automatic
ones. -/
def settlePort (x : Port) : Port :=
  if x.pending = 1 then portDown x
  else if x.pending = 2 then { beginTraining x with autoTrainings := 0 }
  else x

def settlePorts (s : State) : State := { s with ports := fmMap s.ports fun _ x => settlePort x }

/-- The lane selection of a direction (R307): the lane that lane 4 replaces, 7 for none; none where the
direction fails. -/
def selectLanes (failing : List Nat) : Option Nat :=
  match (List.range 4).filter failing.contains with
  | [] => some 7
  | [j] => if failing.contains 4 then none else some j
  | _ => none

/-- The check of R308: 0, or the reason of Table 18-8. -/
def helloReason (s : State) (h : Hello) : Nat :=
  if !h.identityOk then 2
  else if h.domainId ≠ s.reg (junctionBase + 4) 0 0 then 3
  else if h.moduleId = s.moduleId then 4
  else 0

/-- Training ends (Table 12-1). -/
def finishTraining (p : Nat) (rx tx : LaneTest) (h : Hello) (s : State) : State :=
  if (s.port p).state ≠ .training then s
  else
    let eye := (rx.eye.take 5).mapIdx fun j e => (j, e)
    match selectLanes rx.failing, selectLanes tx.failing with
    | some r, some t =>
      let s := modPort p (fun x =>
        { x with rxReplaced := r, txReplaced := t, eye := eye, peerId := h.moduleId, peerRole := h.role, peerEpoch := h.epoch }) s
      let k := helloReason s h
      if k ≠ 0 then modPort p (failPort k) s
      else
        checkSpares (dropDomain (portDomain p)
          (modPort p (fun x =>
            { x with state := .up, credits := (List.range 8).map fun v => (v, vcFlits v), usableFrom := s.boundary + 1 }) s))
    | _, _ => modPort p (fun x => { failPort 1 x with eye := eye }) s

def execTrainingDone (port : Nat) (rx tx : LaneTest) (hello : Hello) (s : State) : Host.Outcome State Fault Refusal :=
  run (.trainingDone port rx tx hello) s (whenAnswering (finishTraining port rx tx hello))

/-- A port leaves UP by itself (Table 12-1): an automatic training, at most 3 in a row; a UNIT fault. -/
def losePort (p reason : Nat) (s : State) : State :=
  let x := s.port p
  let s := unitFault (portDomain p) 0 0x09 0 0 s
  if x.autoTrainings < 3 then modPort p (fun x => { beginTraining x with autoTrainings := x.autoTrainings + 1 }) s
  else modPort p (failPort reason) s

def execLaneLockLoss (port : Nat) (replays : Bool) (s : State) : Host.Outcome State Fault Refusal :=
  run (.laneLockLoss port replays) s (whenAnswering fun s =>
    if (s.port port).state = .up then losePort port (if replays then 5 else 6) s else s)

/-- The end of a one-second period (R309): 2,240,000 errors are a ratio of 1.0e-5 at 224 Gbit/s. -/
def countErrors (errors : List Nat) (x : Port) : Port :=
  let bits : List (Nat × Nat) := (errors.take 5).mapIdx fun j e => (j, e)
  let x := { x with bitErrors := bits.foldl (fun (m : FMap Nat) (e : Nat × Nat) => fmSet m e.1 ((fmGet m e.1 0 + e.2) % 2 ^ 64)) x.bitErrors }
  let worn := bits.map fun (e : Nat × Nat) => (e.1, if 2240000 < e.2 then fmGet x.wearRun e.1 0 + 1 else 0)
  { x with wearRun := worn, laneWear := dedup (x.laneWear ++ (worn.filter fun (e : Nat × Nat) => decide (10 ≤ e.2)).map Prod.fst) }

/-- A lane newly worn is a UNIT fault (R359). -/
def wearLanes (p : Nat) (errors : List Nat) (s : State) : State :=
  if (s.port p).state ≠ .up then s
  else
    let old := (s.port p).laneWear
    let s := modPort p (countErrors errors) s
    let new := (s.port p).laneWear.filter fun j => !(old.contains j)
    checkSpares (forEach new (fun j s => unitFault (portDomain p) j 0x08 0 0 s) s)

def execLaneErrorPeriod (port : Nat) (errors : List Nat) (s : State) : Host.Outcome State Fault Refusal :=
  run (.laneErrorPeriod port errors) s (whenAnswering (wearLanes port errors))

/-! ## Flits -/

/-- The flits up to a sequence number are acknowledged; the rest stay in the replay buffer (R312). -/
def acknowledged (a : Nat) (l : List Nat) : List Nat :=
  match l.findIdx? (· == a) with
  | some i => l.drop (i + 1)
  | none => l

/-- The acknowledgement and the credit a good flit carries (R312 to R314). -/
def takeAck (f : Flit) (x : Port) : Port :=
  let rest := acknowledged f.ack x.unacked
  let moved := decide (rest.length < x.unacked.length)
  let x := { x with unacked := rest, replayRun := if moved then 0 else x.replayRun }
  let x := if f.nak && !rest.isEmpty then { x with replays := x.replays + 1, replayRun := x.replayRun + 1 } else x
  drainPort { x with credits := fmSet x.credits f.creditVc (min (vcFlits f.creditVc) (fmGet x.credits f.creditVc 0 + f.credit)) }

/-- A flit in order leaves the receive buffer: for this module, onward by its route, or discarded (R316,
R321). -/
def passFlit (p : Nat) (f : Flit) (s : State) : State :=
  if f.reserved ≠ 0 ∨ !f.wellTyped then
    let s := modPort p (fun x => { x with badMessages := x.badMessages + 1 }) s
    if f.responds then answerStatus f.source 0 stBadDescriptor s else s
  else if f.destination = s.moduleId then s
  else
    match routePort s f.source f.destination with
    | some o => modPort o (sendFlit f.vc) s
    | none =>
      let s := { s with junction := { s.junction with routeDiscarded := s.junction.routeDiscarded + 1 } }
      if f.responds then answerStatus f.source 0 stAccess s else s

/-- A flit arrives at a port that is UP. -/
def receiveFlit (p : Nat) (f : Flit) (s : State) : State :=
  if (s.port p).state ≠ .up then s
  else if !f.good then
    modPort p (fun x => { x with crcErrors := x.crcErrors + 1, naksSent := x.naksSent + 1, sinceAck := 0 }) s
  else
    let s := modPort p (takeAck f) s
    if 16 ≤ (s.port p).replayRun then losePort p 5 s
    else if f.kind = 0 ∨ f.kind = 3 ∨ f.sequence ≠ ((s.port p).lastSeq + 1) % 4096 then s
    else
      let s := modPort p (fun x =>
        if x.sinceAck + 1 = 64 then { x with lastSeq := f.sequence, sinceAck := 0, acksSent := x.acksSent + 1 }
        else { x with lastSeq := f.sequence, sinceAck := x.sinceAck + 1 }) s
      passFlit p f s

def execFlitReceive (port : Nat) (flit : Flit) (s : State) : Host.Outcome State Fault Refusal :=
  run (.flitReceive port flit) s (whenAnswering (receiveFlit port flit))

def execAckTimer (port : Nat) (s : State) : Host.Outcome State Fault Refusal :=
  run (.ackTimer port) s (whenAnswering fun s =>
    if (s.port port).state = .up then modPort port (fun x => { x with acksSent := x.acksSent + 1, sinceAck := 0 }) s
    else s)

end Sys2Proof.Machine
end

