-- ==== Sys2Proof/Machine/Cxl.lean ====
section
/-! DEFINITION. Host access to the device-physical range (R166, R167, R177 to R179, R249, R250, R281): CXL.mem
reads and writes, atomic adds, host windows, the sluice's command field. -/

namespace Sys2Proof.Machine

/-- A line of 64 bytes inside the 4 TiB range (R244). -/
def lineOk (a : Nat) : Bool := a % 64 == 0 && decide (a < 2 ^ 42)

/-- A line that reads as poison (R281). -/
def linePoisoned (s : State) (a : Nat) : Bool := s.poisoned.contains (a / 64)

/-- Some line of an area is poisoned. -/
def areaPoisoned (s : State) (a n : Nat) : Bool := s.poisoned.any fun x => decide (a < 64 * x + 64) && decide (64 * x < a + n)

/-- Bytes of a block read from its image pass the sluice and its codec (R250, R259). -/
def noteRead (a : Nat) (bs : List Byte) (s : State) : State :=
  let n := a / blockBytes
  let b := s.block n
  if b.t0.isSome ∨ b.state = .unmapped then s
  else snoop 1 none bs (if b.plainImage then s else noteDecoded n a s)

/-- A read of `n` bytes in one block under Table 10-4; none for the error response. -/
def memRead (a n : Nat) (tenantKeys : Bool) (s : State) : Option (List Byte × State) :=
  let k := a / blockBytes
  let read : Option (List Byte × State) :=
    if areaPoisoned s a n then none
    else
      let bs := memBytes s.mem a n
      some (bs, noteRead a bs s)
  match accessOf s k false with
  | .zeros => some (List.replicate n 0, s)
  | .served | .fresh => read
  | .failed =>
    let b := s.block k
    if tenantKeys && b.sealed && decide (b.keyOwner ≠ 0) && decide (b.state ≠ .unmapped) && decide (b.state ≠ .lost) &&
        (b.t0.isSome || b.image.isSome) then read else none

/-- Bytes applied to a block's content; a line written whole is no longer poisoned. -/
def applyWrite (a : Nat) (bs : List Byte) (s : State) : State :=
  { s with mem := memWrite s.mem a bs, poisoned := s.poisoned.filter fun x => !(decide (a ≤ 64 * x) && decide (64 * x + 64 ≤ a + bs.length)) }

/-- A write in one block under Table 10-4; none for the error response. -/
def memStore (a : Nat) (bs : List Byte) (s : State) : Option State :=
  let k := a / blockBytes
  match accessOf s k true with
  | .served => some (applyWrite a bs s)
  | .fresh =>
    match freshFrame s k with
    | some (q, f) => some (applyWrite a bs (mapFresh k q f s))
    | none => none
  | _ => none

/-- The layer whose host queue an access to a T0 copy joins, where the quad is in compute mode: a step is in
flight and the quad has its NBU, or earlier accesses wait there (R177, R178). -/
def queueFor (s : State) (a : Nat) : Option Nat :=
  match (s.block (a / blockBytes)).t0 with
  | none => none
  | some f =>
    let x := framePlace f
    let l := x.1 * 8 + x.2.2.2
    let waits := !(fmGet s.hostQueues l []).isEmpty
    let busy := (s.step.map Step.started).getD false && !(quadPlain s x.1 x.2.2.2 x.2.2.1)
    if busy || waits then some l else none

def joinQueue (l : Nat) (x : HostAccess) (s : State) : State :=
  { s with hostQueues := fmSet s.hostQueues l (fmGet s.hostQueues l [] ++ [x]) }

/-- A CXL.mem read served: its data, or poison. -/
def serveRead (a : Nat) (s : State) : State :=
  match memRead a 64 false s with
  | some (bs, s) => reply (.cxlData a bs) s
  | none => reply (.cxlPoison a) s

/-- A CXL.mem write served. -/
def serveWrite (a : Nat) (bs : List Byte) (s : State) : State :=
  match memStore a bs s with
  | some s => reply (.cxlDone a) s
  | none => reply (.cxlError a) s

/-- Until WIPE_DONE, and in RETIRED, an access has the error response (R379, R389). -/
def memClosed (s : State) : Bool := !s.boot.wipeDone || decide (s.security.state = .retired)

/-- A CXL.mem read arrives. -/
def hostRead (a : Nat) (s : State) : State :=
  if memClosed s then reply (.cxlPoison a) s
  else if accessOf s (a / blockBytes) false = .served then
    match queueFor s a with
    | some l => joinQueue l (.read a) s
    | none => serveRead a s
  else serveRead a s

def hostWrite (a : Nat) (bs : List Byte) (s : State) : State :=
  if memClosed s then reply (.cxlError a) s
  else if accessOf s (a / blockBytes) true = .served then
    match queueFor s a with
    | some l => joinQueue l (.write a bs) s
    | none => serveWrite a bs s
  else serveWrite a bs s

/-- CXL.mem reaches the LT9 by lines of 64 bytes of the range; anything else is no event. -/
def execCxlMemRead (address : Nat) (s : State) : Host.Outcome State Fault Refusal :=
  if lineOk address then .next (whenAnswering (hostRead address) s) else .fault .outsideRange

def execCxlMemWrite (address : Nat) (data : List Byte) (s : State) : Host.Outcome State Fault Refusal :=
  if lineOk address && data.length == 64 then .next (whenAnswering (hostWrite address data) s) else .fault .outsideRange

/-! ## Atomic adds (R164, R166, R167, R319) -/

/-- An ATOMIC names whole, naturally aligned elements within one block (R318). -/
def atomicOk (a ty : Nat) (data : List Byte) : Bool :=
  decide (ty < 4) && !data.isEmpty && decide (data.length ≤ 4096) && data.length % atomicSize ty == 0 && a % atomicSize ty == 0 &&
    a / blockBytes == (a + data.length - 1) / blockBytes

/-- The target of an ATOMIC: a mapped block, not sealed, with a T0 copy (R319). -/
def atomicTarget (s : State) (a : Nat) : Bool :=
  let b := s.block (a / blockBytes)
  decide (b.state = .mapped) && !b.sealed && b.t0.isSome

/-- The lines of an area. -/
def linesOf (a n : Nat) : List Nat := (List.range ((a + n - 1) / 64 + 1 - a / 64)).map (· + a / 64)

/-- Lines of a plain quad's target are held in its quadrant's atomic cache, 131,072 lines, least recently used
out first (R167). -/
def cacheLines (a n : Nat) (s : State) : State :=
  match (s.block (a / blockBytes)).t0 with
  | none => s
  | some f =>
    let x := framePlace f
    if quadPlain s x.1 x.2.2.2 x.2.2.1 then
      let l := (linesOf a n).foldl (fun l k => k :: l.filter (· != k)) (fmGet s.atomicCache x.1 [])
      { s with atomicCache := fmSet s.atomicCache x.1 (l.take 131072) }
    else s

/-- The add in place; poisoned targets stay as they are (Table 14-6). -/
def applyAtomic (a ty : Nat) (data : List Byte) (s : State) : State :=
  if areaPoisoned s a data.length then s
  else
    let old := memBytes s.mem a data.length
    cacheLines a data.length { s with mem := memWrite s.mem a (atomicBytes ty (data.length / atomicSize ty) old data) }

/-- The response to a write or an atomic. -/
def writeAck (dest tag status : Nat) (s : State) : State :=
  sendMsg { kind := 0x41, destination := dest, tag := tag, epoch := 0, status := status, address := 0, values := [], data := [] } s

/-- An atomic served outside a planned exchange, its acknowledgement sent once it is visible. -/
def serveAtomic (a ty : Nat) (data : List Byte) (ack : Option (Nat × Nat)) (s : State) : State :=
  let ok := atomicTarget s a
  let s := if ok then applyAtomic a ty data s else s
  match ack with
  | some (dest, tag) => writeAck dest tag (if ok then stOk else stAccess) s
  | none => s

/-! ## Host windows (R177) -/

/-- The 64-byte accesses a queued access counts for. -/
def accessSize : HostAccess → Nat
  | .read _ => 1
  | .write _ _ => 1
  | .atomic _ _ d _ => ceilDiv d.length 64

/-- The accesses at the head of a queue that one window serves: up to 320. -/
def windowTake : Nat → List HostAccess → List HostAccess
  | _, [] => []
  | room, x :: r => if accessSize x ≤ room then x :: windowTake (room - accessSize x) r else []

def serveAccess (x : HostAccess) (s : State) : State :=
  match x with
  | .read a => serveRead a s
  | .write a d => serveWrite a d s
  | .atomic a ty d k => serveAtomic a ty d k s

/-- One host window of a layer. -/
def serveWindow (l : Nat) (s : State) : State :=
  let q := fmGet s.hostQueues l []
  let now := windowTake 320 q
  forEach now serveAccess { s with hostQueues := fmSet s.hostQueues l (q.drop now.length) }

def execHostWindow (q layer : Nat) (s : State) : Host.Outcome State Fault Refusal :=
  run (.hostWindow q layer) s (whenServing (serveWindow (q * 8 + layer)))

/-! ## The sluice's commands (R249, R424) -/

def execSluiceSeal (block : Nat) (s : State) : Host.Outcome State Fault Refusal :=
  run (.sluiceSeal block) s (whenExposed (queueSluice .seal block))

def execSluiceUnseal (block : Nat) (s : State) : Host.Outcome State Fault Refusal :=
  run (.sluiceUnseal block) s (whenExposed (queueSluice .unseal block))

def execSluiceRelease (block : Nat) (s : State) : Host.Outcome State Fault Refusal :=
  run (.sluiceRelease block) s (whenExposed (queueSluice .release block))

end Sys2Proof.Machine
end

