-- ==== Sys2Proof/Machine/DeviceTime.lean ====
section
/-! DEFINITION. Device time (chapter 13): the reference input, the pulse output, the exchange with the
manager, steps of the counter. -/

namespace Sys2Proof.Machine

def timeBase : Nat := 0x10000

/-- 10 ns in 2^-48 ns: the nominal INCREMENT (R344). -/
def nominal : Nat := 0x000A000000000000

/-- This module's counter is its own to steer: a STANDALONE, or the time root of its domain (R345, R348). -/
def ownTime (s : State) : Bool :=
  decide (s.junction.role = .standalone) || (decide (s.junction.role = .manager) && decide (s.junction.level = 2))

/-! ## REF_IN (R345) -/

def execRefInPresent (s : State) : Host.Outcome State Fault Refusal :=
  run .refInPresent s (whenAnswering fun s => { s with clock := { s.clock with refPresent := true } })

/-- Steering has reached REF_IN's frequency; it reaches over 50 ppm each way (R344). -/
def lockRef (steer : Int) (s : State) : State :=
  if s.reg (timeBase + 4) 0 0 = 1 ∧ s.clock.refPresent ∧ ownTime s then
    { s with clock := { s.clock with refLocked := true, steer := max (-50000) (min 50000 steer) } }
  else s

def execRefInLock (steer : Int) (s : State) : Host.Outcome State Fault Refusal :=
  run (.refInLock steer) s (whenAnswering (lockRef steer))

/-- REF_IN is lost: the lock clears, the last steering value is held, the loss is counted. -/
def loseRef (s : State) : State :=
  if s.clock.refPresent then
    { s with clock := { s.clock with refPresent := false, refLocked := false, refLoss := (s.clock.refLoss + 1) % 2 ^ 32 } }
  else s

def execRefInLoss (s : State) : Host.Outcome State Fault Refusal := run .refInLoss s (whenAnswering loseRef)

/-! ## PPS_OUT (R346) -/

/-- Whole seconds of a stamp. -/
def secondOf (t : Nat) : Nat := nsOf t / 1000000000

/-- Device time has come to a whole second: a pulse, once for each second, where PPS_EN is set. -/
def pulse (s : State) : State :=
  let k := secondOf s.now
  if k ≤ s.clock.lastPulse then s
  else
    let s := { s with clock := { s.clock with lastPulse := k } }
    if s.reg (timeBase + 4) 2 0 = 1 then { s with out := { s.out with pps := k :: s.out.pps } } else s

def execPpsOut (s : State) : Host.Outcome State Fault Refusal := run .ppsOut s (whenAnswering pulse)

/-! ## Steps (R350) -/

/-- Device time is stepped to a stamp: the step is added to budget periods and dormancy expiries; no pulse is
given for a second the step crosses or reaches. -/
def stepTime (t : Nat) (s : State) : State :=
  let old := s.now
  let move (x : Nat) : Nat := x + t - old
  let s := { s with clock := { s.clock with count := t * 2 ^ 32 % 2 ^ 112, phase := 0, lastPulse := secondOf t } }
  let s := { s with tenants := fmMap s.tenants fun _ x => { x with periodStart := move x.periodStart } }
  { s with ctxs := fmMap s.ctxs fun _ c => { c with expiry := move c.expiry } }

/-- TIME_SET written (R350, R416): refused under the time seal, by a module that follows another's time, and
while a context is live; otherwise it waits for row 7. -/
def setTime (value : Nat) (s : State) : State :=
  if value = s.reg (timeBase + 0x28) 0 0 then s
  else if s.seals.getLsbD 1 then refuseWrite .pf (timeBase + 0x28) 1 s
  else if !(ownTime s) then refuseWrite .pf (timeBase + 0x28) 8 s
  else if s.anyLive then refuseWrite .pf (timeBase + 0x28) 3 s
  else setReg (timeBase + 0x28) 0 value { s with clock := { s.clock with pendingSet := some value } }

def execTimeSet (value : Word64) (s : State) : Host.Outcome State Fault Refusal :=
  run (.timeSet value) s (whenExposed (setTime value.toNat))

/-- Row 7: an accepted TIME_SET takes effect. -/
def settleTime (s : State) : State :=
  match s.clock.pendingSet with
  | none => s
  | some v => stepTime (ofNs v) { s with clock := { s.clock with pendingSet := none } }

/-! ## The exchange (R348, R349) -/

/-- The module whose time this one follows. -/
def timeSource (s : State) : Option Nat :=
  match s.junction.role with
  | .worker | .spare => some s.junction.managerId
  | .manager => if s.junction.level = 1 then some s.junction.domainMgr else none
  | .standalone => none

/-- An exchange that failed: the eighth in a row clears the lock. -/
def failExchange (s : State) : State :=
  let c := s.clock
  let s := { s with junction := { s.junction with outstanding := s.junction.outstanding.filter fun o => o.op != 4 } }
  { s with clock := { c with exchange := none, timeFails := (c.timeFails + 1) % 2 ^ 32, failed := c.failed + 1, good := 0, bad := 0, timeLocked := c.timeLocked && decide (c.failed + 1 < 8) } }

/-- A TIME REQUEST to a module at an epoch; one still without its reply has failed (R320). -/
def sendTime (dest epoch : Nat) (retried : Bool) (s : State) : State :=
  match holdRequest dest 4 retried s with
  | none => failExchange s
  | some (tag, s) =>
    let k := s.clock.nextExchange
    let t := s.now % 2 ^ 64
    let s := { s with clock := { s.clock with exchange := some k, nextExchange := (k + 1) % 2 ^ 32 } }
    sendMsg { kind := 0x02, destination := dest, tag := tag, epoch := epoch, status := 0, address := 0, values := [0, k, t, 0, 0, 0, 0, 0], data := [] } s

def requestTime (s : State) : State :=
  match timeSource s with
  | none => s
  | some m => sendTime m s.junction.managerEpoch false (if s.clock.exchange.isSome then failExchange s else s)

def execTimeRequest (s : State) : Host.Outcome State Fault Refusal :=
  run .timeRequest s (whenAnswering requestTime)

/-- A manager answers a TIME REQUEST. -/
def answerTime (h : MsgHead) (sequence t1 correction : Nat) (s : State) : State :=
  if s.junction.role ≠ .manager then s
  else if staleFor s h then refuseStale h s
  else
    let t := s.now % 2 ^ 64
    sendMsg { kind := 0x02, destination := h.source, tag := h.tag, epoch := 0, status := 0, address := 0, values := [1, sequence, t1, t, t, correction, 0, nsOf s.now], data := [] } s

def execTimeRequestReceived (head : MsgHead) (sequence t1 requestCorrection : Nat) (s : State) :
    Host.Outcome State Fault Refusal :=
  run (.timeRequestReceived head sequence t1 requestCorrection) s (whenAnswering (answerTime head sequence t1 requestCorrection))

/-- A difference of two stamps, signed modulo 2^64. -/
def stampDiff (a b : Nat) : Int := signedOf (a % 2 ^ 64 + 2 ^ 64 - b % 2 ^ 64) 64

/-- The offset of the manager's time over this module's, in 2^-16 ns, and the reply's delay on its way (R349,
log 22). -/
def offsetOf (b : TimeReplyBody) : Int :=
  (stampDiff b.t2 b.t1 - b.requestCorrection - (stampDiff b.t4 b.t3 - b.replyCorrection)) / 2

def replyDelay (b : TimeReplyBody) : Int := stampDiff b.t4 b.t3 + offsetOf b

/-- INCREMENT that removes an offset over 1,048,576 ns, within 200 ppm of nominal (R349). -/
def slewFor (theta : Int) : Nat :=
  let d : Int := (nominal : Int) * theta / (2 ^ 36 : Nat)
  let most : Int := (nominal * 200 / 1000000 : Nat)
  ((nominal : Int) + max (-most) (min most d)).toNat

/-- TIME_LOCKED after an exchange (R349). -/
def lockTest (theta : Int) (c : Clock) : Clock :=
  let n := theta.natAbs
  let c := { c with failed := 0, theta := theta, good := if n ≤ 131072 then c.good + 1 else 0, bad := if 262144 < n then c.bad + 1 else 0 }
  { c with timeLocked := if 8 ≤ c.good then true else if 4 ≤ c.bad then false else c.timeLocked }

/-- A reply of the exchange in flight: a step above 1 µs with no live context, otherwise a slew. -/
def takeTimeReply (h : MsgHead) (b : TimeReplyBody) (s : State) : State :=
  if timeSource s = none ∨ s.clock.exchange ≠ some b.sequence then s
  else
    let s := match requestOf s h.source h.tag with
      | some o => retireRequest o s
      | none => s
    let theta := offsetOf b
    let s := { s with clock := { lockTest theta s.clock with exchange := none } }
    if 65536000 < theta.natAbs ∧ !s.anyLive then
      stepTime ((ofNs b.managerTime : Nat) + replyDelay b).toNat s
    else
      let f := takeFree s
      { f.2 with clock := { f.2.clock with increment := slewFor theta, steer := signedOf (Config.memberSteer f.1).toNat 32 } }

def execTimeReply (head : MsgHead) (body : TimeReplyBody) (s : State) : Host.Outcome State Fault Refusal :=
  run (.timeReply head body) s (whenAnswering (takeTimeReply head body))

/-! ## Role changes (Table 13-3) -/

/-- The clock of a module that joins a group or changes its time source: unlocked. -/
def unlockTime (s : State) : State :=
  { s with clock := { s.clock with timeLocked := false, good := 0, bad := 0, failed := 0, exchange := none, refLocked := false } }

/-- The clock of a module that becomes STANDALONE: the exchange stops, INCREMENT returns to nominal. -/
def freeTime (s : State) : State :=
  { s with clock := { s.clock with timeLocked := false, good := 0, bad := 0, failed := 0, exchange := none, increment := nominal } }

end Sys2Proof.Machine
end

