-- ==== Sys2Proof/Machine/Remote.lean ====
section
/-! DEFINITION. Remote access over Nuxus (R316 to R320, R335, R336, R441): what a module answers to READ, WRITE
and ATOMIC, its own remote-access mailbox, responses, refusals and timeouts. -/

namespace Sys2Proof.Machine

/-! ## Global addresses (Table 12-6) -/

def gaClass (a : Word64) : Nat := bitsOf a.toNat 56 2
def gaPosted (a : Word64) : Bool := bitOf a.toNat 58
def gaModule (a : Word64) : Nat := bitsOf a.toNat 46 10
def gaPhysical (a : Word64) : Nat := bitsOf a.toNat 0 42

/-- No reserved bit is set and the class is one of 0 to 2. -/
def gaOk (a : Word64) : Bool := bitsOf a.toNat 59 5 == 0 && bitsOf a.toNat 42 4 == 0 && decide (gaClass a ≠ 3)

/-- The address and length limits of READ and WRITE (R318). -/
def rangeOk (a : Word64) (n : Nat) : Bool :=
  let p := gaPhysical a
  gaOk a && decide (64 ≤ n) && decide (n ≤ 4096) && n % 64 == 0 && p % 64 == 0 && p / blockBytes == (p + n - 1) / blockBytes

/-! ## The target -/

/-- What a READ of this module's range gives: a status and the data (R318). -/
def targetRead (a : Word64) (n : Nat) (s : State) : Nat × List Byte × State :=
  if !(rangeOk a n) then (stBadDescriptor, [], s)
  else if memClosed s then (stAccess, [], s)
  else
    match memRead (gaPhysical a) n (gaClass a == 1) s with
    | some (bs, s) => (stOk, bs, s)
    | none => (stAccess, [], s)

/-- What a WRITE gives. -/
def targetWrite (a : Word64) (bs : List Byte) (s : State) : Nat × State :=
  if !(rangeOk a bs.length) then (stBadDescriptor, s)
  else if memClosed s then (stAccess, s)
  else
    match memStore (gaPhysical a) bs s with
    | some s => (stOk, s)
    | none => (stAccess, s)

def readMessage (dest tag status : Nat) (bs : List Byte) (s : State) : State :=
  sendMsg { kind := 0x40, destination := dest, tag := tag, epoch := 0, status := status, address := 0, values := [], data := bs } s

/-- A READ arrives. -/
def serveReadMsg (h : MsgHead) (s : State) : State :=
  if !(rangeOk h.address h.length) then readMessage h.source h.tag stBadDescriptor [] s
  else if staleFor s h then refuseStale h s
  else
    let r := targetRead h.address h.length s
    readMessage h.source h.tag r.1 r.2.1 r.2.2

def execRead (head : MsgHead) (s : State) : Host.Outcome State Fault Refusal :=
  run (.read head) s (whenAnswering (serveReadMsg head))

/-- An answer that a posted write does not get. -/
def ackUnless (posted : Bool) (h : MsgHead) (status : Nat) (s : State) : State :=
  if posted then s else writeAck h.source h.tag status s

/-- A WRITE arrives. -/
def serveWriteMsg (h : MsgHead) (data : List Byte) (s : State) : State :=
  if !(rangeOk h.address data.length) then ackUnless (gaPosted h.address) h stBadDescriptor s
  else if staleFor s h then refuseStale h s
  else
    let r := targetWrite h.address data s
    ackUnless (gaPosted h.address) h r.1 r.2

def execWrite (head : MsgHead) (data : List Byte) (s : State) : Host.Outcome State Fault Refusal :=
  run (.write head data) s (whenAnswering (serveWriteMsg head data))

/-- An ATOMIC arrives: refused, applied at once, or queued for a host window (R319). -/
def serveAtomicMsg (h : MsgHead) (ty : Nat) (data : List Byte) (s : State) : State :=
  let a := gaPhysical h.address
  let posted := gaPosted h.address
  if !(gaOk h.address && atomicOk a ty data) then ackUnless posted h stBadDescriptor s
  else if staleFor s h then refuseStale h s
  else if memClosed s || !(atomicTarget s a) then ackUnless posted h stAccess s
  else
    let ack := if posted then none else some (h.source, h.tag)
    if gaClass h.address = 2 then serveAtomic a ty data ack s
    else
      match queueFor s a with
      | some l => joinQueue l (.atomic a ty data ack) s
      | none => serveAtomic a ty data ack s

def execAtomic (head : MsgHead) (elemType : Nat) (data : List Byte) (s : State) : Host.Outcome State Fault Refusal :=
  run (.atomic head elemType data) s (whenAnswering (serveAtomicMsg head elemType data))

/-! ## The mailbox (R439, R441) -/

def raAddr (s : State) : Word64 := BitVec.ofNat 64 (s.reg (junctionBase + 0x4000) 0 0)
def raOp (s : State) : Nat := s.reg (junctionBase + 0x4008) 0 0
def raType (s : State) : Nat := s.reg (junctionBase + 0x4008) 8 0
def raLength (s : State) : Nat := s.reg (junctionBase + 0x4008) 16 64

/-- The operands of the mailbox: RA_LENGTH bytes of RA_DATA. -/
def raOperands (s : State) : List Byte :=
  let d := s.junction.raData
  (List.range (raLength s)).map fun i => d.getD i 0

/-- The access is over (R441): a READ that succeeded has laid its bytes over RA_DATA. -/
def finishRa (status : Nat) (data : Option (List Byte)) (s : State) : State :=
  let j := s.junction
  { s with junction := { j with raBusy := false, raStatus := status, raData := match data with
      | some bs => bs ++ j.raData.drop bs.length
      | none => j.raData } }

/-- The access on this module itself. -/
def ownAccess (s : State) : State :=
  let a := raAddr s
  if raOp s = 1 then
    let r := targetRead a (raLength s) s
    finishRa r.1 (if r.1 = stOk then some r.2.1 else none) r.2.2
  else if raOp s = 2 then
    let r := targetWrite a (raOperands s) s
    finishRa r.1 none r.2
  else
    let p := gaPhysical a
    let d := raOperands s
    if !(gaOk a && atomicOk p (raType s) d) then finishRa stBadDescriptor none s
    else if !(atomicTarget s p) then finishRa stAccess none s
    else finishRa stOk none (applyAtomic p (raType s) d s)

/-- The message of the access to a module at an epoch. -/
def raMessage (s : State) (dest tag epoch : Nat) : SentMsg :=
  let base : SentMsg := { kind := 0x30, destination := dest, tag := tag, epoch := epoch, status := 0, address := (raAddr s).toNat, values := [], data := [] }
  if raOp s = 1 then base
  else if raOp s = 2 then { base with kind := 0x50, data := raOperands s }
  else { base with kind := 0x51, values := [raType s], data := raOperands s }

/-- The access is sent; without a route it fails at once, a posted one is over with its sending (R320, R321). -/
def sendRa (dest epoch : Nat) (retried : Bool) (s : State) : State :=
  if dest = s.moduleId then ownAccess s
  else if (routePort s s.moduleId dest).isNone then
    finishRa stAccess none (sendMsg (raMessage s dest 0 epoch) s)
  else if gaPosted (raAddr s) ∧ raOp s ≠ 1 then finishRa stOk none (sendMsg (raMessage s dest 0 epoch) s)
  else
    match holdRequest dest (raOp s) retried s with
    | none => finishRa stAccess none s
    | some (tag, s) => sendMsg (raMessage s dest tag epoch) s

/-- RA_GO written 1; an RA_OP of 0 names no access (log 20). -/
def goRa (s : State) : State :=
  if s.junction.raBusy then refuseWrite .pf (junctionBase + 0x400C) 8 s
  else if raOp s = 0 then s
  else sendRa (gaModule (raAddr s)) 0 false { s with junction := { s.junction with raBusy := true, raTimeout := false } }

def execRaGo (s : State) : Host.Outcome State Fault Refusal := run .raGo s (whenExposed goRa)

/-! ## Responses (R319, R320, R335, R336) -/

/-- A request of this module fails (R325). -/
def failRequest (o : Outstanding) (s : State) : State :=
  let s := retireRequest o s
  if o.op = 4 then failExchange s else finishRa stAccess none s

/-- A request sent once more, to the module and epoch now named. -/
def resend (o : Outstanding) (dest epoch : Nat) (s : State) : State :=
  let s := retireRequest o s
  if o.op = 4 then sendTime dest epoch true { s with junction := { s.junction with managerEpoch := epoch } }
  else sendRa dest epoch true s

/-- The module that answers RESOLVE for this one. -/
def resolver (s : State) : Nat :=
  match s.junction.role with
  | .worker | .spare => s.junction.managerId
  | _ => s.junction.domainMgr

/-- A request refused with ROLE_STALE: a manager looks in its own table; otherwise RESOLVE is sent, naming the
module meant; a second refusal fails the request. -/
def refused (o : Outstanding) (s : State) : State :=
  if o.retried then failRequest o s
  else
    match (if s.junction.role = .manager then s.junction.members.find? fun m => m.2.id == o.destination else none) with
    | some m => resend o m.2.id m.2.epoch s
    | none =>
      let s := retireRequest o s
      let j := s.junction
      sendMsg { kind := 0x05, destination := resolver s, tag := o.tag, epoch := 0, status := 0, address := 0, values := [1, o.destination], data := [] }
        { s with junction := { j with resolves := (j.resolves + 1) % 2 ^ 32, outstanding := j.outstanding ++ [{ o with resolving := true }] } }

/-- A response to an outstanding request; one for a retired tag is discarded. -/
def takeResponse (h : MsgHead) (status : Nat) (data : List Byte) (s : State) : State :=
  match requestOf s h.source h.tag with
  | none => s
  | some o =>
    if status = stRoleStale then refused o s
    else if o.op = 4 then failRequest o s
    else
      finishRa status (if o.op = 1 ∧ status = stOk then some data else none) (retireRequest o s)

def execReadData (head : MsgHead) (status : Nat) (data : List Byte) (s : State) : Host.Outcome State Fault Refusal :=
  run (.readData head status data) s (whenAnswering (takeResponse head status data))

def execWriteAck (head : MsgHead) (status : Nat) (s : State) : Host.Outcome State Fault Refusal :=
  run (.writeAck head status) s (whenAnswering (takeResponse head status []))

/-- A request without a response after 1 ms (R320). -/
def timeoutRequest (dest tag : Nat) (s : State) : State :=
  match s.junction.outstanding.find? fun o => o.destination == dest && o.tag == tag with
  | none => s
  | some o =>
    if o.op = 4 then failRequest o s
    else
      let s := finishRa stAccess none (retireRequest o s)
      { s with junction := { s.junction with raTimeout := true } }

def execRequestTimeout (destination tag : Nat) (s : State) : Host.Outcome State Fault Refusal :=
  run (.requestTimeout destination tag) s (whenAnswering (timeoutRequest destination tag))

/-! ## RESOLVE (R336) -/

def roleCode : Role → Nat
  | .standalone => 0 | .manager => 1 | .worker => 2 | .spare => 3

def roleFrom (n : Nat) : Role :=
  if n = 1 then .manager else if n = 2 then .worker else if n = 3 then .spare else .standalone

/-- The holder a manager names: module id, role, position, epoch. -/
def holderOf (s : State) (byPosition : Bool) (which : Nat) : Option (Nat × Nat × Nat × Nat) :=
  let j := s.junction
  if (byPosition ∧ which = 0) ∨ (!byPosition ∧ which = s.moduleId) then some (s.moduleId, roleCode j.role, j.position, j.epoch)
  else
    (j.members.find? fun m => if byPosition then m.1 == which else m.2.id == which).map fun m =>
      (m.2.id, roleCode m.2.role, m.1, m.2.epoch)

/-- RESOLVE at a manager; epoch 0 matches every module. -/
def answerResolve (h : MsgHead) (byPosition : Bool) (which : Nat) (s : State) : State :=
  if s.junction.role ≠ .manager then s
  else if h.epoch ≠ 0 ∧ staleFor s h then refuseStale h s
  else
    match holderOf s byPosition which with
    | some x => sendMsg { kind := 0x06, destination := h.source, tag := h.tag, epoch := 0, status := stOk, address := 0, values := [x.1, x.2.1, x.2.2.1, x.2.2.2], data := [] } s
    | none => sendMsg { kind := 0x06, destination := h.source, tag := h.tag, epoch := 0, status := stAccess, address := 0, values := [], data := [] } s

def execResolve (head : MsgHead) (byPosition : Bool) (which : Nat) (s : State) : Host.Outcome State Fault Refusal :=
  run (.resolve head byPosition which) s (whenAnswering (answerResolve head byPosition which))

/-- RESOLVE_REPLY: the request goes once more to the module named, or fails. -/
def takeResolve (h : MsgHead) (moduleId epoch : Nat) (found : Bool) (s : State) : State :=
  match s.junction.outstanding.find? fun o => o.resolving && o.tag == h.tag with
  | none => s
  | some o => if found then resend o moduleId epoch s else failRequest o s

def execResolveReply (head : MsgHead) (moduleId epoch : Nat) (found : Bool) (s : State) :
    Host.Outcome State Fault Refusal :=
  run (.resolveReply head moduleId epoch found) s (whenAnswering (takeResolve head moduleId epoch found))

end Sys2Proof.Machine
end

