-- ==== Sys2Proof/Machine/Roles.lean ====
section
/-! DEFINITION. Roles, groups and evacuation (R304, R324 to R342, R358, R440): the messages of a group, the
barrier of a group step, and what row 7 changes. -/

namespace Sys2Proof.Machine

/-- A message of this module's own to a member. -/
def tell (dest kind epoch step : Nat) (values : List Nat) (s : State) : State :=
  sendMsg { kind := kind, destination := dest, tag := 0, epoch := epoch, status := 0, address := step, values := values, data := [] } s

/-! ## Members (R326, R333, R334) -/

/-- The next epoch a manager issues. -/
def issueEpoch (s : State) : Nat × State :=
  let n := s.junction.issued + 1
  ((s.reg (junctionBase + 0x20) 0 0 + n) % 2 ^ 32, { s with junction := { s.junction with issued := n } })

def setMember (p : Nat) (m : Member) (s : State) : State :=
  { s with junction := { s.junction with members := fmSet s.junction.members p m } }

/-- A position is left: its member, its READY. -/
def clearMember (p : Nat) (s : State) : State :=
  { s with junction := { s.junction with members := fmErase s.junction.members p, readies := s.junction.readies.filter fun r => r.position != p, readyFor := s.junction.readyFor.filter (· != p) } }

/-- The positions that the group models of this manager span. -/
def spanned (s : State) (p : Nat) : Bool := (List.range 16).any fun k => groupModel s k && decide (p < modelSpan s k)

/-! ## ROLE_SET and ROLE_ACK (R326) -/

/-- A sequence of a group model is live. -/
def groupLive (s : State) : Bool := s.ctxs.any fun c => c.2.state.live && groupModel s c.2.slot

/-- A ROLE_SET is refused: from a module that is not allowed, to WORKER or SPARE with a context that is not
FREE, from or to MANAGER with a live sequence of a group model (log 21). -/
def roleRefused (s : State) (h : MsgHead) (g : RoleGrant) : Bool :=
  let b := junctionBase + 8
  !(s.reg b 15 0 == 1) || decide (h.source ≠ s.reg b 0 0) ||
    (decide (g.role = 2 ∨ g.role = 3) && s.ctxs.any fun c => !decide (c.2.state = .free)) ||
    ((decide (g.role = 1) != decide (s.junction.role = .manager)) && groupLive s)

def takeRoleSet (h : MsgHead) (g : RoleGrant) (s : State) : State :=
  if staleFor s h then refuseStale h s
  else
    let no := roleRefused s h g
    let s := sendMsg { kind := 0x04, destination := h.source, tag := h.tag, epoch := 0, status := if no then stAccess else stOk, address := 0, values := [], data := [] } s
    if no then s
    else { s with junction := { s.junction with changes := s.junction.changes ++ [{ target := s.moduleId, grant := g, atStep := h.step }] } }

def execRoleSet (head : MsgHead) (grant : RoleGrant) (s : State) : Host.Outcome State Fault Refusal :=
  run (.roleSet head grant) s (whenAnswering (takeRoleSet head grant))

/-- A grant of this manager for a module at a position: WORKER where a group model spans it, otherwise SPARE
(log 21). -/
def grantFor (s : State) (p epoch : Nat) : RoleGrant :=
  { role := if spanned s p then 2 else 3, position := p, manager := s.moduleId, domainManager := s.junction.domainMgr, level := 0, newEpoch := epoch, leaving := none }

/-- ROLE_ACK at a manager: an accepted role is due in row 7, a refused one is dropped. -/
def takeRoleAck (h : MsgHead) (p : Nat) (accepted : Bool) (s : State) : State :=
  if s.junction.role ≠ .manager then s
  else if !accepted then { s with junction := { s.junction with changes := s.junction.changes.filter fun c => c.target != h.source } }
  else if (s.junction.changes.any fun c => c.target == h.source) || (memberAt s p).isSome || p == 0 || decide (64 ≤ p) then s
  else
    let e := issueEpoch s
    { e.2 with junction := { e.2.junction with changes := e.2.junction.changes ++ [{ target := h.source, grant := grantFor s p e.1, atStep := h.step }] } }

def execRoleAck (head : MsgHead) (position : Nat) (accepted : Bool) (s : State) : Host.Outcome State Fault Refusal :=
  run (.roleAck head position accepted) s (whenAnswering (takeRoleAck head position accepted))

/-! ## ROLE_CMD (R440) -/

/-- ROLE_CMD 1: a STANDALONE of a sealed junction with no live context becomes domain manager. -/
def becomeManager (s : State) : State :=
  if s.junction.role = .standalone ∧ s.seals.getLsbD 5 ∧ !s.anyLive then
    { s with junction := { s.junction with changes := s.junction.changes ++ [{ target := s.moduleId, atStep := 0, grant := { role := 1, position := 0, manager := s.moduleId, domainManager := s.moduleId, level := 2, newEpoch := (s.reg (junctionBase + 0x20) 0 0 + 1) % 2 ^ 32, leaving := none } }] } }
  else refuseWrite .pf (junctionBase + 0x28) 8 s

def execBecomeDomainManager (s : State) : Host.Outcome State Fault Refusal :=
  run .becomeDomainManager s (whenExposed becomeManager)

/-- ROLE_CMD 2: a manager of no other member, with no live sequence of a group model, becomes STANDALONE and
keeps its epoch. -/
def leaveManager (s : State) : State :=
  if s.junction.role = .manager ∧ s.junction.members.isEmpty ∧ !(groupLive s) then
    { s with junction := { s.junction with changes := s.junction.changes ++ [{ target := s.moduleId, atStep := 0, grant := { role := 0, position := 0, manager := 0, domainManager := s.junction.domainMgr, level := 0, newEpoch := s.junction.epoch, leaving := none } }] } }
  else refuseWrite .pf (junctionBase + 0x28) 8 s

def execReturnToStandalone (s : State) : Host.Outcome State Fault Refusal :=
  run .returnToStandalone s (whenExposed leaveManager)

/-! ## READY, START, ABORT (R304, R331 to R333) -/

/-- `n` aclk in 2^-16 ns, rounded up. -/
def aclkTicks (s : State) (n : Nat) : Nat := ceilDiv (n * s.clock.increment) (6 * 2 ^ 32)

/-- GROUP_HOPS as latched. -/
def groupHops (s : State) : Nat := s.regL (junctionBase + 0x24) 0 1

/-- This module's report (R304, R328, R330). -/
def ownReady (s : State) : ReadyBody :=
  { position := s.junction.position, readyTime := s.now, slots := (List.range 16).map (slotReport s),
    da := (List.range 4).map (daActive s), pa := (List.range 4).map (paActive s), hot := s.faults.hot,
    derated := s.faults.derated, level := s.power.level }

def readyValues (r : ReadyBody) : List Nat :=
  [r.position, r.readyTime] ++ (r.slots.map fun x => [x.1, x.2.1, x.2.2.1, x.2.2.2.1, x.2.2.2.2]).flatten ++
    r.da ++ r.pa ++ [bit r.hot, bit r.derated, r.level]

/-- A member's READY, while its time is locked (R333, R349). -/
def sendReady (counter : Nat) (s : State) : State :=
  if (s.junction.role = .worker ∨ s.junction.role = .spare) ∧ s.clock.timeLocked then
    tell s.junction.managerId 0x10 s.junction.epoch counter (readyValues (ownReady s))
      { s with junction := { s.junction with readySent := true } }
  else s

/-- The positions a planned step waits for. -/
def planPositions (s : State) : List Nat :=
  match s.junction.plan, s.step with
  | some _, some x => (planMembers s x.slot).map Prod.fst
  | _, _ => []

/-- Every READY of the step is in: START, with its start time (R304). -/
def tryStart (s : State) : State :=
  match s.step with
  | some x =>
    let l := planPositions s
    if x.started ∨ l.isEmpty ∨ s.junction.startAt.isSome ∨ s.junction.paused ∨ !(l.all s.junction.readyFor.contains) then s
    else
      let own := s.stamp + aclkTicks s 4096
      let latest := maxOf (own :: l.filterMap fun p => (readyOf s p).map ReadyBody.readyTime)
      let t := latest + aclkTicks s (450 * groupHops s + 64)
      let s := { s with junction := { s.junction with startAt := some t, members := fmMap s.junction.members fun p m => if l.contains p then { m with aborts := 0 } else m } }
      forEach l (fun p s =>
        match memberAt s p with
        | some m => tell m.id 0x11 m.epoch x.counter [t] s
        | none => s) s
  | none => s

/-- READY at a manager; one at a stale epoch counts as missing (R335). -/
def takeReady (h : MsgHead) (b : ReadyBody) (s : State) : State :=
  match (if s.junction.role = .manager then memberAt s b.position else none) with
  | none => s
  | some m =>
    if m.id ≠ h.source ∨ m.epoch ≠ h.epoch then s
    else
      let s := setMember b.position { m with joined := true } s
      let j := s.junction
      let due : Bool := match s.step with
        | some x => x.counter == h.step && j.plan.isSome
        | none => false
      tryStart { s with junction := { j with readies := b :: j.readies.filter (fun r => r.position != b.position), readyFor := if due ∧ !(j.readyFor.contains b.position) then b.position :: j.readyFor else j.readyFor } }

def execReady (head : MsgHead) (body : ReadyBody) (s : State) : Host.Outcome State Fault Refusal :=
  run (.ready head body) s (whenServing (takeReady head body))

/-- A member declared failed: row 7 acts on it (R358). -/
def declareFailed (p : Nat) (s : State) : State :=
  if s.junction.lost.contains p then s else { s with junction := { s.junction with lost := s.junction.lost ++ [p] } }

/-- One more abort on a member's account; the third in a row fails it (R332). -/
def countAbort (p : Nat) (s : State) : State :=
  match memberAt s p with
  | none => s
  | some m =>
    let s := setMember p { m with aborts := m.aborts + 1 } s
    if 3 ≤ m.aborts + 1 then declareFailed p s else s

/-- READY messages are missing 1,024 slots after the manager's ready time: the step is abandoned. -/
def abandonStep (missing : List Nat) (s : State) : State :=
  match s.step with
  | none => s
  | some x =>
    let l := planPositions s
    let gone := l.filter fun p => missing.contains p || !(s.junction.readyFor.contains p)
    if x.started ∨ l.isEmpty ∨ s.junction.startAt.isSome ∨ gone.isEmpty then s
    else
      let s := forEach l (fun p s =>
        match memberAt s p with
        | some m => tell m.id 0x12 m.epoch x.counter [] { s with junction := { s.junction with aborts := (s.junction.aborts + 1) % 2 ^ 32 } }
        | none => s) s
      let s := { s with junction := { s.junction with plan := none, readyFor := [], members := fmMap s.junction.members fun p m => if gone.contains p then m else { m with aborts := 0 } }, step := none }
      forEach gone countAbort s

def execReadyTimeout (missing : List Nat) (s : State) : Host.Outcome State Fault Refusal :=
  run (.readyTimeout missing) s (whenServing (abandonStep missing))

/-- A joining member has sent no READY within 1 s (R333). -/
def execJoinTimeout (position : Nat) (s : State) : Host.Outcome State Fault Refusal :=
  run (.joinTimeout position) s (whenServing fun s =>
    match (if s.junction.role = .manager then memberAt s position else none) with
    | some m => if m.joined then s else declareFailed position s
    | none => s)

/-- START at a member; one that comes after its start time is a timing fault and starts nothing (R304). -/
def takeStart (h : MsgHead) (t : Nat) (s : State) : State :=
  if staleFor s h then discardStale s
  else
    match s.step with
    | some x =>
      if x.started ∨ x.counter ≠ h.step then s
      else if t < s.now then
        stepFault (portDomain 0) 0 0x01 0 0 { s with step := none, junction := { s.junction with plan := none, startAt := none } }
      else { s with junction := { s.junction with startAt := some t } }
    | none => s

def execStart (head : MsgHead) (startTime : Nat) (s : State) : Host.Outcome State Fault Refusal :=
  run (.start head startTime) s (whenServing (takeStart head startTime))

/-- ABORT at a member: the step's timetable and scalar bank are discarded (R332). -/
def takeAbort (h : MsgHead) (s : State) : State :=
  if staleFor s h then discardStale s
  else
    let drop := match s.step with
      | some x => !x.started && x.counter == h.step
      | none => false
    { s with junction := { s.junction with aborts := (s.junction.aborts + 1) % 2 ^ 32, plan := none, startAt := none }, step := if drop then none else s.step }

def execAbort (head : MsgHead) (s : State) : Host.Outcome State Fault Refusal :=
  run (.abort head) s (whenServing (takeAbort head))

/-- ACT: rows, partials or accepted paths of an exchange section arrive in their buffer (R328). -/
def takeAct (h : MsgHead) (b : Nat) (data : List Word32) (s : State) : State :=
  if staleFor s h then discardStale s else setBuffer b data s

def execAct (head : MsgHead) (buffer : Nat) (data : List Word32) (s : State) : Host.Outcome State Fault Refusal :=
  run (.act head buffer data) s (whenServing (takeAct head buffer data))

/-! ## STEP_PLAN at a member (R329, R331) -/

/-- One page edit: 1 allocate, 2 seal, 3 release, 4 receive. -/
def applyEdit (slot : Nat) (e : PlanEdit) (s : State) : State :=
  let place (s : State) : State := modCtx e.ctx (fun c => { c with pages := setPage c.pages e.page (some e.lgn) }) s
  if e.action = 1 then
    match fmFind s.pools slot with
    | some p =>
      match p.freeSets with
      | f :: r =>
        place (modPool slot (fun p => { p with freeSets := r })
          { s with groups := fmSet s.groups e.lgn { freeGroup with refs := 1, residence := .t0, slot := slot, frameSet := f } })
      | [] => lackSet slot 1 s
    | none => s
  else if e.action = 2 then modGroup e.lgn (fun g => { g with sealed := true, fill := e.fill }) s
  else if e.action = 3 then
    let s := modCtx e.ctx (fun c => { c with pages := c.pages.map fun x => if x = some e.lgn then none else x }) s
    modGroup e.lgn (fun g => { g with refs := 0 }) s
  else if e.action = 4 then place s
  else s

/-- The row of the length table a plan names for a context. -/
def planRow (s : State) (r : Nat × Nat) : RowPlan :=
  { ctx := r.1, committed := (s.ctx r.1).committed, nodes := r.2 - 1, drafts := [], chunkFirst := 0, chunkLast := 0,
    chunk := r.2 == 0, recompute := false, lastChunk := false, home := 0, probe := false }

/-- The step a member builds from a plan. -/
def planStep (counter : Nat) (p : PlanBody) (s : State) : Step :=
  { roundStep p.slot (p.rows.map (planRow s)) with
    counter := counter, cls := p.cls, mode := p.mode, hot := bitOf p.variant 0, derated := bitOf p.variant 1,
    level := bitsOf p.variant 2 2, slots := p.steps, generation := s.generation,
    sections := p.starts.map fun x => { engine := 6, quads := 0, startSlot := x, length := 0, flags := 0, tensor := 0 } }

def takePlan (h : MsgHead) (p : PlanBody) (s : State) : State :=
  if staleFor s h then discardStale s
  else if s.junction.role ≠ .worker ∨ (s.step.map Step.started).getD false then s
  else
    let s := forEach p.edits (applyEdit p.slot) s
    let x := planStep h.step p s
    sendReady h.step (loadScalars x { s with step := some x, junction := { s.junction with plan := some p, startAt := none } })

def execStepPlan (head : MsgHead) (plan : PlanBody) (s : State) : Host.Outcome State Fault Refusal :=
  run (.stepPlan head plan) s (whenServing (takePlan head plan))

/-! ## Evacuation (R337 to R342)

The phase an EVACUATE names: 0 cancels or refuses, 1 requests, 2 copies, 3 reports every sealed group copied, 4
orders the switchover, 5 reports every group acknowledged (log 23). -/

def evacMessage (dest phase worker spare epoch : Nat) (s : State) : State := tell dest 0x08 epoch 0 [phase, worker, spare] s

/-- The bytes of a group in the order of R214, from T0 or from its image. -/
def groupContent (s : State) (g : Nat) : List Byte :=
  let x := s.group g
  match fmFind s.pools x.slot with
  | none => []
  | some p =>
    match x.residence, fmFind s.images x.image with
    | .t1, some i | .t2, some i => ((List.range (p.layers * p.heads * (slotBytes p / 2048))).map fun r => memBytes s.bank (imageAddress i (r * 2048)) 2048).flatten
    | _, _ => ((slotOrder p).map fun h => memBytes s.bank (slotAddress s x.slot p x.frameSet h.1 h.2) (slotBytes p)).flatten

/-- A group that holds a position's data. -/
def heldGroup (s : State) (g : Group) : Bool :=
  groupModel s g.slot && (g.residence == .t0 || g.residence == .spilling || g.residence == .t1 || g.residence == .t2 || g.residence == .prefetching)

/-- A group sent as PAGE_DATA under the bulk bucket of its owner's partition, past snoop point 2 of its port. -/
def sendGroup (dest : Nat) (g : Nat) (s : State) : State :=
  let x := s.group g
  let bs := groupContent s g
  let s := passWeir (s.tenant x.owner).partition bulk bs.length s
  let s := match routePort s s.moduleId dest with
    | some p => snoop 2 (some (p + 16 * 6)) bs s
    | none => s
  let s := sendMsg { kind := 0x60, destination := dest, tag := 0, epoch := 0, status := 0, address := 0, values := [g, x.fill], data := bs } s
  { s with junction := { s.junction with sentGroups := s.junction.sentGroups ++ [g], unacked := s.junction.unacked ++ [g] } }

/-- Groups not yet sent, ascending. -/
def unsent (s : State) (all : Bool) : List Nat :=
  (s.groups.filter fun g => heldGroup s g.2 && (all || g.2.sealed) && !(s.junction.sentGroups.contains g.1)).map Prod.fst

/-- A worker's part of a boundary in the copy phase (R339, R340). -/
def copyGroups (s : State) : State :=
  let j := s.junction
  if j.role ≠ .worker ∨ j.evacState ≠ 2 then s
  else
    let first := j.sentGroups.isEmpty
    let s := if j.unacked.isEmpty ∧ !j.reported ∧ (!first ∨ (unsent s false).isEmpty) then
        evacMessage j.managerId 3 s.moduleId j.evacPeer j.managerEpoch { s with junction := { j with reported := true } }
      else s
    forEach (unsent s false) (sendGroup j.evacPeer) s

/-- The report that every group is acknowledged. -/
def reportDone (s : State) : State :=
  let j := s.junction
  if j.role = .worker ∧ j.evacState = 3 ∧ j.unacked.isEmpty then
    evacMessage j.managerId 5 s.moduleId j.evacPeer j.managerEpoch s
  else s

/-- The spare releases what it has filled (R341). -/
def releaseFilled (s : State) : State :=
  let s := forEach s.junction.sentGroups (modGroup · (fun g => { g with refs := 0 })) s
  { s with junction := { s.junction with evacState := 0, evacPeer := 0, sentGroups := [], unacked := [], reported := false } }

/-- The evacuation of this module ends without a switchover. -/
def endEvac (s : State) : State :=
  { s with junction := { s.junction with evacState := 0, evacPeer := 0, sentGroups := [], unacked := [], reported := false, paused := false, switchover := false } }

/-- The blocks of the group models are brought into T0 (R339). -/
def promoteGroup (s : State) : State :=
  forEach ((s.blocks.filter fun b => b.2.slot != 0xFF && groupModel s b.2.slot && b.2.t0.isNone).map Prod.fst) (issuePromotion 3) s

/-- EVACUATE at a manager. -/
def evacAtManager (h : MsgHead) (phase : Nat) (s : State) : State :=
  let j := s.junction
  let pos := (j.members.find? fun m => m.2.id == h.source).map Prod.fst
  match pos with
  | none => s
  | some p =>
    if phase = 1 then
      if j.evacQueue.contains p ∨ (j.evacState ≠ 0 ∧ j.evacWorker = p) then s
      else { s with junction := { j with evacQueue := j.evacQueue ++ [p] } }
    else if phase = 0 then
      if j.evacState ≠ 0 ∧ j.evacWorker = p then
        match memberAt s j.evacSpare with
        | some sp => evacMessage sp.id 0 h.source sp.id sp.epoch (endEvac s)
        | none => endEvac s
      else { s with junction := { j with evacQueue := j.evacQueue.filter (· != p) } }
    else if phase = 3 ∧ j.evacState = 2 ∧ j.evacWorker = p then
      let drop := match s.step with
        | some x => !x.started && groupStep s x.slot
        | none => false
      let s := { s with step := if drop then none else s.step, junction := { j with evacState := 3, paused := true, plan := none } }
      match memberAt s p, memberAt s j.evacSpare with
      | some w, some sp => evacMessage sp.id 4 w.id sp.id sp.epoch (evacMessage w.id 4 w.id sp.id w.epoch s)
      | _, _ => s
    else if phase = 5 ∧ j.evacState = 3 ∧ j.evacWorker = p then { s with junction := { j with switchover := true } }
    else s

/-- EVACUATE at a worker: the copy begins, the switchover is ordered, or the request is refused. -/
def evacAtWorker (phase spare : Nat) (s : State) : State :=
  let j := s.junction
  if phase = 0 then endEvac s
  else if phase = 2 ∧ j.evacState = 1 then { s with junction := { j with evacState := 2, evacPeer := spare, sentGroups := [], unacked := [], reported := false } }
  else if phase = 4 ∧ j.evacState = 2 then
    let s := forEach (unsent s true) (sendGroup j.evacPeer) { s with junction := { j with evacState := 3 } }
    reportDone s
  else s

/-- EVACUATE at a spare. -/
def evacAtSpare (phase worker : Nat) (s : State) : State :=
  let j := s.junction
  if phase = 0 then releaseFilled s
  else if phase = 2 then promoteGroup { s with junction := { j with evacState := 2, evacPeer := worker, sentGroups := [] } }
  else if phase = 4 then { s with junction := { j with evacState := 3 } }
  else s

def takeEvacuate (h : MsgHead) (phase worker spare : Nat) (s : State) : State :=
  if staleFor s h then refuseStale h s
  else
    match s.junction.role with
    | .manager => evacAtManager h phase s
    | .worker => evacAtWorker phase spare s
    | .spare => evacAtSpare phase worker s
    | .standalone => s

def execEvacuate (head : MsgHead) (phase worker spare : Nat) (s : State) : Host.Outcome State Fault Refusal :=
  run (.evacuate head phase worker spare) s (whenServing (takeEvacuate head phase worker spare))

/-- The slot a group that arrives belongs to: the group model whose frame sets have the content's size (log 23). -/
def slotForContent (s : State) (n : Nat) : Option Nat :=
  (List.range 16).find? fun k => groupModel s k &&
    (match fmFind s.pools k with
      | some p => p.layers * p.heads * slotBytes p == n
      | none => false)

/-- A group's content laid into a frame set of this module's pool. -/
def putContent (k f : Nat) (p : Pool) (bs : List Byte) (s : State) : State :=
  forEach ((slotOrder p).mapIdx fun i h => (i, h)) (fun x s =>
    { s with bank := memWrite s.bank (slotAddress s k p f x.2.1 x.2.2) ((bs.drop (x.1 * slotBytes p)).take (slotBytes p)) }) s

/-- PAGE_DATA at a spare: the group is placed and acknowledged; with no frame set free it waits for a
resend (R339). -/
def takePage (h : MsgHead) (g fill : Nat) (bs : List Byte) (s : State) : State :=
  let s := passWeir (s.tenant h.tenant).partition bulk bs.length s
  let s := match routePort s s.moduleId h.source with
    | some p => snoop 2 (some (p + 16 * 6)) bs s
    | none => s
  match slotForContent s bs.length with
  | none => s
  | some k =>
    match fmFind s.pools k with
    | none => s
    | some p =>
      let x := s.group g
      let set := if x.residence = .t0 ∧ x.slot = k then some (x.frameSet, p.freeSets)
        else match p.freeSets with
          | f :: r => some (f, r)
          | [] => none
      match set with
      | none => lackSet k 1 s
      | some (f, r) =>
        let s := putContent k f p bs (modPool k (fun p => { p with freeSets := r }) s)
        let s := { s with groups := fmSet s.groups g { freeGroup with refs := 1, residence := .t0, sealed := decide (fill = 256), slot := k, frameSet := f, fill := fill, owner := h.tenant }, junction := { s.junction with sentGroups := if s.junction.sentGroups.contains g then s.junction.sentGroups else s.junction.sentGroups ++ [g] } }
        sendMsg { kind := 0x42, destination := h.source, tag := h.tag, epoch := 0, status := stOk, address := 0, values := [g], data := [] } s

def execPageData (head : MsgHead) (lgn fill : Nat) (content : List Byte) (s : State) : Host.Outcome State Fault Refusal :=
  run (.pageData head lgn fill content) s (whenServing fun s =>
    if s.junction.role = .spare ∧ (s.junction.evacState = 2 ∨ s.junction.evacState = 3) then takePage head lgn fill content s else s)

/-- PAGE_ACK at the owner of the pages; at a manager it notes what is kept (R341). -/
def takePageAck (lgns : List Nat) (s : State) : State :=
  let j := s.junction
  if j.role = .manager then { s with junction := { j with sentGroups := dedup (j.sentGroups ++ lgns) } }
  else if j.unacked.isEmpty then s
  else reportDone { s with junction := { j with unacked := j.unacked.filter fun g => !(lgns.contains g) } }

def execPageAck (head : MsgHead) (lgns : List Nat) (s : State) : Host.Outcome State Fault Refusal :=
  run (.pageAck head lgns) s (whenServing (takePageAck lgns))

/-- BULK_DATA: plain content of a block, under the bulk bucket of tenant 0's partition (Table 12-3). -/
def takeBulk (h : MsgHead) (b o : Nat) (bs : List Byte) (s : State) : State :=
  if staleFor s h then discardStale s
  else
    let s := passWeir (s.tenant 0).partition bulk bs.length s
    let s := match routePort s s.moduleId h.source with
      | some p => snoop 2 (some (p + 16 * 7)) bs s
      | none => s
    if (s.block b).state = .unmapped ∨ blockBytes < o + bs.length then s
    else { s with mem := memWrite s.mem (b * blockBytes + o) bs }

def execBulkData (head : MsgHead) (block offset : Nat) (content : List Byte) (s : State) : Host.Outcome State Fault Refusal :=
  run (.bulkData head block offset content) s (whenServing (takeBulk head block offset content))

/-! ## Row 7 -/

/-- A free SPARE for the group models, by lowest position (R338). -/
def freeSpare (s : State) : Option (Nat × Member) :=
  s.junction.members.find? fun m =>
    decide (m.2.role = .spare) && decide (s.junction.evacState = 0 ∨ s.junction.evacSpare ≠ m.1) &&
      (List.range 16).all fun k =>
        !(groupModel s k) || decide ((s.slot k).state ≠ .ready) ||
          (match readyOf s m.1 with
            | some r => r.slots.any fun x => x.1 == k && x.2.1 == 2 && x.2.2.1 == (slotReport s k).2.2.1
            | none => false)

/-- The manager answers the oldest evacuation request: a copy, or a refusal. -/
def answerEvac (s : State) : State :=
  let j := s.junction
  if j.role ≠ .manager ∨ j.evacState ≠ 0 then s
  else
    match j.evacQueue with
    | [] => s
    | p :: r =>
      let s := { s with junction := { j with evacQueue := r } }
      match memberAt s p, freeSpare s with
      | some w, some (q, sp) =>
        let s := { s with junction := { s.junction with evacState := 2, evacPeer := sp.id, evacWorker := p, evacSpare := q, sentGroups := [] } }
        evacMessage sp.id 2 w.id sp.id sp.epoch (evacMessage w.id 2 w.id sp.id w.epoch s)
      | some w, none => evacMessage w.id 0 w.id 0 w.epoch s
      | none, _ => s

/-- ROLE_SET from this manager. -/
def sendRole (dest oldEpoch : Nat) (g : RoleGrant) (s : State) : State :=
  tell dest 0x03 oldEpoch s.stepCounter [g.role, g.position, g.manager, g.domainManager, g.level, g.newEpoch, (g.leaving.getD 0)] s

/-- A spare takes a position: the table changes, both sides are told (R340, R358). -/
def replaceMember (p q : Nat) (sp : Member) (leaving : Option Nat) (s : State) : State :=
  let e := issueEpoch s
  let s := clearMember q (clearMember p e.2)
  let s := setMember p { id := sp.id, role := .worker, epoch := e.1, joined := false, aborts := 0 } s
  sendRole sp.id sp.epoch { role := 2, position := p, manager := s.moduleId, domainManager := s.junction.domainMgr, level := 0, newEpoch := e.1, leaving := leaving } s

/-- The switchover of R340: the spare becomes WORKER at the position, the worker STANDALONE. -/
def switchOver (s : State) : State :=
  let j := s.junction
  if !(j.role = .manager ∧ j.switchover) then s
  else
    match memberAt s j.evacWorker, memberAt s j.evacSpare with
    | some w, some sp =>
      let s := replaceMember j.evacWorker j.evacSpare sp (some w.id) s
      let e := issueEpoch s
      endEvac (sendRole w.id w.epoch { role := 0, position := 0, manager := 0, domainManager := j.domainMgr, level := 0, newEpoch := e.1, leaving := none } e.2)
    | _, _ => endEvac s

/-- Every group of the models that span a position is dropped, but those acknowledged (R341, R358). -/
def dropPosition (p : Nat) (kept : List Nat) (s : State) : State :=
  forEach ((s.groups.filter fun g => groupModel s g.2.slot && decide (p < modelSpan s g.2.slot) && !(kept.contains g.1)).map Prod.fst) dropGroup s

/-- A member declared failed leaves the table, its position's epoch rises; a free SPARE takes the position
(R358). -/
def failMember (p : Nat) (s : State) : State :=
  match memberAt s p with
  | none => s
  | some m =>
    let during := s.junction.evacState ≠ 0 ∧ s.junction.evacWorker = p
    let spare := if during then (memberAt s s.junction.evacSpare).map fun x => (s.junction.evacSpare, x) else freeSpare s
    let kept := if during then s.junction.sentGroups else []
    match (if m.role = .worker then spare else none) with
    | some (q, sp) => dropPosition p kept (replaceMember p q sp none (if during then endEvac s else s))
    | none => clearMember p (issueEpoch s).2

def failMembers (s : State) : State :=
  let l := s.junction.lost
  forEach l failMember { s with junction := { s.junction with lost := [] } }

/-- This module takes a role (Table 12-7, Table 13-3, R326). -/
def takeRole (g : RoleGrant) (s : State) : State :=
  let j := s.junction
  let new := roleFrom g.role
  let member (r : Role) : Bool := decide (r = .worker) || decide (r = .spare)
  let same := member j.role && member new && j.managerId == g.manager
  let leaves := decide (j.role = .worker) && decide (new = .standalone) && decide (j.evacState = 3)
  let s := { s with junction := { j with
    role := new, position := g.position, level := if new = .manager then g.level else 0, epoch := g.newEpoch,
    managerId := if new = .manager then s.moduleId else if new = .standalone then 0 else g.manager, domainMgr := g.domainManager,
    managerEpoch := if same then j.managerEpoch else 0, evacState := if leaves then 4 else 0,
    evacPeer := if leaves then j.evacPeer else 0, evacQueue := [], sentGroups := [], unacked := [], reported := false,
    paused := false, switchover := false, lost := [], members := if new = .manager ∧ j.role = .manager then j.members else [],
    issued := if new = .manager ∧ j.role ≠ .manager then g.newEpoch - s.reg (junctionBase + 0x20) 0 0 else j.issued,
    readies := [], readyFor := [], plan := none, startAt := none, readySent := false } }
  let s := if member j.role then { s with step := none } else s
  match new with
  | .standalone => freeTime s
  | .manager => if g.level = 1 then unlockTime s else s
  | _ => if same then s else unlockTime s

/-- A role change is due: this module's own from a role with no step counter in common, or once the step it
names has run (R326). -/
def changeDue (s : State) (c : RoleChange) : Bool :=
  (c.target == s.moduleId && (decide (s.junction.role = .standalone) || decide (s.junction.role = .spare))) ||
    decide (c.atStep ≤ s.stepCounter)

/-- The manager's side of a change: the member enters the table. -/
def enterMember (c : RoleChange) (s : State) : State :=
  if (memberAt s c.grant.position).isSome then s
  else setMember c.grant.position { id := c.target, role := roleFrom c.grant.role, epoch := c.grant.newEpoch, joined := false, aborts := 0 } s

def applyChanges (s : State) : State :=
  let due := s.junction.changes.filter (changeDue s)
  let s := { s with junction := { s.junction with changes := s.junction.changes.filter fun c => !(changeDue s c) } }
  forEach due (fun c s => if c.target = s.moduleId then takeRole c.grant s else enterMember c s) s

/-- Row 7: ports, device time, roles, evacuation (Table 01-3). -/
def changeRoles (s : State) : State :=
  let s := settleTime (settlePorts s)
  let s := switchOver (applyChanges s)
  copyGroups (answerEvac (failMembers s))

end Sys2Proof.Machine
end

