-- ==== Sys2Proof/Machine/Boundary.lean ====
section
/-! DEFINITION. The step boundary (R25): the ten rows of Table 01-3 in their order, and the 64 slots it lasts. -/

namespace Sys2Proof.Machine

/-- Contexts held back when a boundary begins: SIDING, PARKED and DORMANT (R215). -/
def heldCtxs (s : State) : List Nat :=
  (s.ctxs.filter fun c => decide (c.2.state = .siding) || decide (c.2.state = .parked) || decide (c.2.state = .dormant)).map Prod.fst

/-- What the lookup and replay steps deliver in row 3. -/
def otherSteps (x : Step) (s : State) : State :=
  match x.kind with
  | .lookup => deliverLookups x s
  | .replay i => deliverReplay i x s
  | .main => s
  | .draft _ => s

/-- A step ended and was not voided: the windows of recovered domains close (R355). -/
def stepRan (s : State) : Bool :=
  match ended s with
  | some x => !x.voided
  | none => false

/-- The pins and cores at a boundary: the latch stops and releases steps (R412), a restarted core rejoins
(R371). -/
def settleBoot (s : State) : State :=
  { s with boot := { s.boot with latchStops := s.boot.latchOpen }, faults := { s.faults with cores := s.faults.cores.map fun c => if c = 3 then 0 else c } }

/-- A managed removal that waited for this boundary: no step was taken, REMOVE_READY is set (R411). -/
def settleRemoval (s : State) : State :=
  if s.boot.removing then { s with boot := { s.boot with removeReady := true } } else s

/-- One control core runs alone (R371). -/
def coreAlone (s : State) : Bool := s.faults.cores.any fun c => decide (c ≠ 0)

/-- In single-core operation the step waits until the idle scalar bank is written (R371, log 6). -/
def coreWaits (s : State) : State :=
  if coreAlone s ∧ s.step.isSome then
    let n := takeFree s
    let w := Config.corePeriods n.1
    { n.2 with waits := max n.2.waits w, bankReady := decide (w = 0) }
  else s

/-- Rows 1 to 5. -/
def firstRows (s : State) : State :=
  let old := s.ringOut.length
  reclaimRow (settleDepot (editRow (deliverRow old otherSteps (sendWaiting (passRow replayEffect (commitRowOne s))))))

/-- The plan of the step before is over. -/
def endPlan (s : State) : State := { s with junction := { s.junction with plan := none, startAt := none, readyFor := [] } }

/-- A FATAL fault of row 6 has row 6 as its timetable position (Table 14-8). -/
def noteRow6 (before : Bool) (s : State) : State :=
  if before ∨ !s.faults.fatal then s
  else { s with faults := { s.faults with dump := s.faults.dump.map fun d => { d with position := 2 ^ 24 + 6 * 2 ^ 25 } } }

/-- Rows 6 to 10; `ran`: the ended step was not voided. -/
def lastRows (failed : List DomainId) (ran : Bool) (old : FMap Group) (held : List Nat) (s : State) : State :=
  let plain := allPlain s
  let s := changeRoles (closeWindows ran (loseQuads plain (noteRow6 s.faults.fatal (swapSpares failed s))))
  let x := admitRow held (chargeRow (endPlan s))
  coreWaits (buildRow old x.1 x.2)

/-- A worker or spare that has sent no READY at its epoch and boundary sends one (R333). -/
def reportReady (s : State) : State :=
  if s.junction.readySent then s else sendReady s.stepCounter s

/-- The whole boundary: a step in flight plays out to its end first. A FATAL fault met on the way stops it. -/
def stepBoundary (b : BoundaryInput) (s : State) : State :=
  let s := playOut s
  let old := s.groups
  let held := heldCtxs s
  let s := settleBoot (beginBoundary b s)
  let ran := stepRan s
  let s := settleRemoval (lastRows b.failedRetests ran old held (firstRows s))
  reportReady (passSlots 64 { s with step := if s.faults.fatal then none else s.step })

def execStepBoundary (input : BoundaryInput) (s : State) : Host.Outcome State Fault Refusal :=
  run (.stepBoundary input) s (whenServing (stepBoundary input))

end Sys2Proof.Machine
end

