-- ==== Sys2Proof/Machine/Steps.lean ====
section
/-! DEFINITION. What happens from one boundary to the next (R17, R25, R143, R277 to R280): wait periods, the start
of a step, routing points and hold points. -/

namespace Sys2Proof.Machine

/-! ## Wait periods (R25, R331, R371, R399) -/

/-- One wait period of 16 slots passes between a boundary and its step; at the last one of those due the
idle scalar bank is written. -/
def waitPeriod (s : State) : State :=
  if (s.step.map Step.started).getD false then s
  else
    let s := passSlots 16 { s with waits := s.waits - 1 }
    if s.waits = 0 then { s with bankReady := true } else s

def execWaitPeriod (s : State) : Host.Outcome State Fault Refusal := run .waitPeriod s (whenServing waitPeriod)

/-! ## The start of a step (R143, R304, R370) -/

/-- A step of a group, on its manager and on its members, starts at the barrier's start time. -/
def barrierOpen (s : State) : Bool :=
  match s.junction.plan with
  | none => true
  | some _ =>
    match s.junction.startAt with
    | some t => decide (t ≤ s.now)
    | none => false

/-- The SSQs start the step: it is built and checked, the wait periods are over, the scalar bank is
written, the barrier is open. -/
def mayStart (s : State) (x : Step) : Bool :=
  !x.started && decide (s.waits = 0) && s.checked && s.bankReady && barrierOpen s

/-- The record of a main step's start in its slot (R64 to R66, R95). -/
def noteStart (x : Step) (s : State) : State :=
  match x.kind with
  | .main =>
    modSlot x.slot (fun m => { m with steps := m.steps + 1, lastStart := s.boundary, starts := (s.now :: m.starts).take 9 })
      { s with sinceLookup := s.sinceLookup + 1 }
  | .lookup => { s with sinceLookup := 0 }
  | _ => s

/-- The rows whose sequences this module holds; a member selects no token of the manager's. -/
def ownRows (s : State) (x : Step) : Step :=
  { x with rows := x.rows.filter fun r => !decide ((s.ctx r.ctx).state = .free) }

/-- What the SUs decide in the step (R24): the free logits of a step are numbered by its start. -/
def decideTokens (x : Step) (s : State) : State :=
  let n := takeFree s
  match x.kind with
  | .main => mainResults n.1 (ownRows s x) n.2
  | .draft d =>
    match s.round with
    | some m => if d = 0 then s else draftResults n.1 d m n.2
    | none => s
  | _ => s

/-- The step starts: the scalar banks are exchanged, no held partial is left (R158), the engines' operations
run, the tokens are chosen. -/
def startStep (work : List EngineOp) (s : State) : State :=
  match s.step with
  | none => s
  | some x =>
    if !(mayStart s x) then s
    else
      let x := { x with started := true, startTime := s.now }
      let s := noteStart x { s with step := some x, stepCounter := x.counter, activeBank := 1 - s.activeBank, logits := [], nbus := fmMap s.nbus fun _ n => { n with held := [], heldValid := false } }
      decideTokens x (forEach work runOp s)

def execStepStart (work : List EngineOp) (s : State) : Host.Outcome State Fault Refusal :=
  run (.stepStart work) s (whenServing (startStep work))

/-! ## Routing points (R17, R130, R131, R279) -/

/-- The blocks of a routed expert of a layer of a slot. -/
def expertBlocks (s : State) (slot layer expert : Nat) : List (Nat × Block) :=
  s.blocks.filter fun b => b.2.slot == slot &&
    (match (s.slot slot).package.bind fun p => p.tensors[b.2.tensor]? with
      | some t => t.layer == layer && t.expert == expert
      | none => false)

/-- A quadrant that holds a block of an expert without its T0 copy. -/
def lateIn (s : State) (slot layer expert : Nat) : Option Nat :=
  (List.range 4).find? fun q => (expertBlocks s slot layer expert).any fun b => b.2.home == q && b.2.t0.isNone

/-- The experts a row selects, with the quadrant counters of its substitutions: each late expert, in order of
rank, gives way to the highest-ranked expert that is neither selected nor late. -/
def substituteRow (late : Nat → Option Nat) (ranked : List Nat) : List Nat → List Nat → List Nat × List Nat
  | done, [] => (done, [])
  | done, e :: r =>
    match late e with
    | none => substituteRow late ranked (done ++ [e]) r
    | some q =>
      match ranked.find? fun c => !((done ++ e :: r).contains c) && (late c).isNone with
      | some c =>
        let x := substituteRow late ranked (done ++ [c]) r
        (x.1, q :: x.2)
      | none => substituteRow late ranked (done ++ [e]) r

/-- The rows of an expert among the rows' selections. -/
def expertRows (l : List (List Nat)) (e : Nat) : Nat := (l.filter fun r => r.contains e).length

/-- A quadrant's fill: its experts of more than 8 rows stream, those of 1 to 8 run on NBUs, ascending. -/
def fillQuadrant (s : State) (slot layer : Nat) (chosen : List (List Nat)) (q : Nat) : Nat × Nat × List Nat × List Nat :=
  let mine := sortBy (fun a b => decide (a < b)) (dedup chosen.flatten) |>.filter fun e => (expertBlocks s slot layer e).any fun b => b.2.home == q
  (layer, q, mine.filter fun e => decide (8 < expertRows chosen e), mine.filter fun e => decide (expertRows chosen e ≤ 8))

/-- The expert section of a layer is filled. -/
def fillExperts (x : Step) (p : Package) (l : Layer) (layer : Nat) (routes : List RouteRow) (s : State) : State :=
  let late := lateIn s x.slot layer
  let first (r : RouteRow) : List Nat := (r.ranked.filter fun e => decide (e < p.experts)).take p.topK
  let missing := sortBy (fun a b => decide (a < b)) (dedup ((routes.map first).flatten.filter fun e => (late e).isSome))
  let subst := decide (x.mode = 0) && l.substitution
  let picked := routes.map fun r =>
    if subst then substituteRow late (r.ranked.filter fun e => decide (e < p.experts)) [] (first r) else (first r, [])
  let counts := (picked.map Prod.snd).flatten
  let chosen := picked.map Prod.fst
  let x := { x with substituted := x.substituted || !counts.isEmpty, expertFill := (x.expertFill.filter fun f => f.1 != layer) ++ (List.range 4).map (fillQuadrant s x.slot layer chosen) }
  let s := { s with step := some x, faults := { s.faults with substitutions := counts.foldl (fun m q => fmAdd m q 1) s.faults.substitutions } }
  forEach missing (fun e s =>
    forEach ((expertBlocks s x.slot layer e).filter fun b => b.2.t0.isNone) (fun b s => issuePromotion 2 b.1 s) s) s

/-- Playback reaches the routing point of a mixture-of-experts layer. -/
def routeLayer (layer : Nat) (routes : List RouteRow) (s : State) : State :=
  match ended s with
  | none => s
  | some x =>
    match (s.slot x.slot).package with
    | none => s
    | some p =>
      match p.layers[layer]? with
      | some l => if l.feed = 4 ∧ x.kind ≠ .lookup then fillExperts x p l layer routes s else s
      | none => s

def execRoutingPoint (layer : Nat) (routes : List RouteRow) (s : State) : Host.Outcome State Fault Refusal :=
  run (.routingPoint layer routes) s (whenServing (routeLayer layer routes))

/-! ## Hold points (R278, R280) -/

/-- The step in flight is voided for blocks it cannot use (R282): its model waits until they are MAPPED
again. -/
def voidFor (blocks : List Nat) (s : State) : State :=
  match ended s with
  | none => s
  | some x =>
    let s := { s with step := some { x with voided := true, voidedBlocks := dedup (x.voidedBlocks ++ blocks) } }
    match x.kind with
    | .lookup => s
    | _ => modSlot x.slot (fun m => { m with waitingBlocks := dedup (m.waitingBlocks ++ blocks), voidedCtxs := x.rows.map RowPlan.ctx }) s

/-- A hold that lasted 4,096 periods: the missing block is the data error HOLD_TIMEOUT. -/
def timeoutHold (n : Nat) (s : State) : State :=
  match ended s with
  | none => s
  | some x =>
    if x.heldPeriods < 4096 ∨ (s.block n).t0.isSome then s
    else packageError n .holdTimeout (voidFor [n] s)

def execHoldTimeout (block : Nat) (s : State) : Host.Outcome State Fault Refusal :=
  run (.holdTimeout block) s (whenServing (timeoutHold block))

/-- A hold point, or the end of a hold period: playback goes on where every block has its T0 copy, otherwise
all four SSQs hold for 16 slots. -/
def holdTest (blocks : List Nat) (s : State) : State :=
  match ended s with
  | none => s
  | some x =>
    let missing := blocks.filter fun n => (s.block n).t0.isNone
    if missing.isEmpty then { s with step := some { x with heldPeriods := 0 } }
    else if 4096 ≤ x.heldPeriods then
      let s := forEach missing timeoutHold s
      { s with step := s.step.map fun x => { x with heldPeriods := 0 } }
    else
      let held := (List.range 4).foldl (fun m q => fmAdd m q 16) s.faults.heldSlots
      passSlots 16 { s with step := some { x with heldPeriods := x.heldPeriods + 1, slots := x.slots + 16 }, faults := { s.faults with heldSlots := held } }

def execHoldPoint (blocks : List Nat) (s : State) : Host.Outcome State Fault Refusal :=
  run (.holdPoint blocks) s (whenServing (holdTest blocks))

end Sys2Proof.Machine
end

