-- ==== Sys2Proof/Machine/Faults.lean ====
section
/-! DEFINITION. Faults as they are detected (chapter 14): timing, control, thermal and power faults, wear,
escalations, control cores, board channels, data errors, scrub, the FATAL fault and its dump. -/

namespace Sys2Proof.Machine

/-! ## STEP faults (R148, R295, R353, R370) -/

/-- A fault met while a step is built and not started: nothing is voided, no SSQ starts the step (R143, R370). -/
def blockStart (s : State) : State :=
  match s.step with
  | some x => if x.started then s else { s with checked := false }
  | none => s

/-- A late crossing: counted in its quadrant, attributed to the domain that sends it. -/
def timingFault (d : DomainId) (unit slot : Nat) (s : State) : State :=
  stepFault d unit 0x01 slot 0
    (blockStart { s with faults := { s.faults with timingFaults := fmAdd s.faults.timingFaults d.quad 1 } })

def execTimingFault (domain : DomainId) (unit slot : Nat) (s : State) : Host.Outcome State Fault Refusal :=
  run (.timingFault domain unit slot) s (whenServing (timingFault domain unit slot))

/-- The layer of a domain of a quadrant's stack: bank groups and DRAM rows; layer 0 otherwise. -/
def domainLayer (d : DomainId) : Nat :=
  if d.code = 1 then d.inst / 16 else if d.code = 6 then d.inst / 1024 else if d.code = 5 then d.inst / 32 else 0

/-- A malformed item, attributed to the domain that produced it; an access to a command window outside compute
mode is a command error of the layer. -/
def controlFault (d : DomainId) (unit slot : Nat) (command : Bool) (s : State) : State :=
  let f := s.faults
  stepFault d unit 0x02 slot 0
    (blockStart { s with faults := { f with commandErrors := if command then fmAdd f.commandErrors (d.quad * 8 + domainLayer d) 1 else f.commandErrors } })

def execControlFault (domain : DomainId) (unit slot : Nat) (commandError : Bool) (s : State) : Host.Outcome State Fault Refusal :=
  run (.controlFault domain unit slot commandError) s (whenServing (controlFault domain unit slot commandError))

/-! ## Thermal and power faults (R354, R393, R394) -/

/-- A layer above 100.0 degrees is FATAL; above 90.0 under a normal-refresh timetable it voids the step and
forces the hot and derated variants. -/
def layerOvertemp (q layer : Nat) (t : Int) (s : State) : State :=
  let s := { s with power := { s.power with layerTemp := fmModify s.power.layerTemp (q * 8 + layer) t (max t) } }
  if 400 < t then fatal 0x06 noDomain s
  else
    match ended s with
    | some x =>
      if 360 < t ∧ !x.hot then
        writeLog (faultEntry s 2 noDomain 0x06 0 (slotsSince s x.startTime) 0)
          (voidStep { s with faults := { s.faults with forcedThermal := true } })
      else s
    | none => s

def execLayerOvertemp (q layer : Nat) (quarterDegrees : Int) (s : State) : Host.Outcome State Fault Refusal :=
  run (.layerOvertemp q layer quarterDegrees) s (whenServing (layerOvertemp q layer quarterDegrees))

/-- A converter phase is shed at once; fewer than 20 in service is FATAL. -/
def phaseFault (p : Nat) (s : State) : State :=
  if s.power.shed.contains p then s
  else
    let d : DomainId := { code := 11, quad := 0, inst := p }
    let s := record (.unit d 0) (shedPhase p s)
    let s := writeLog (faultEntry s 3 d 0x08 (if 24 ≤ phasesOf s then 2 else 3) 0 0) s
    let s := setDomain { id := d, state := 2, opened := nsOf s.now, unit := 0, recovered := false, escalating := false, entry := none } s
    if phasesOf s < 20 then fatal 0x14 d s else checkSpares s

def execPhaseFault (phase : Nat) (s : State) : Host.Outcome State Fault Refusal :=
  run (.phaseFault phase) s (whenServing (phaseFault phase))

def execRailFault (s : State) : Host.Outcome State Fault Refusal :=
  run .railFault s (whenAnswering (fatal 0x14 noDomain))

/-- A loss of the CXL link is FATAL, but for a removal: with REMOVE_READY set, within 60 s of the latch opening,
after an evacuation (R372, R410 to R412). -/
def linkLoss (s : State) : State :=
  if s.boot.linkWidth = 0 then s
  else
    let removal := s.boot.removeReady || s.boot.evacuated || (s.boot.latchOpen && !s.boot.latchExpired)
    let s := { s with boot := { s.boot with linkWidth := 0, linkRate := 0, cxlCache := false } }
    if removal then s else fatal 0x13 noDomain s

def execCxlLinkLoss (s : State) : Host.Outcome State Fault Refusal := run .cxlLinkLoss s (whenAnswering linkLoss)

/-! ## Control cores (R371) -/

def coreDomain (c : Nat) : DomainId := { code := 12, quad := 0, inst := c }

/-- A core in service is halted; one halted goes offline; a fault of the core that runs alone is FATAL. -/
def haltCore (c cause : Nat) (s : State) : State :=
  let st := s.faults.cores.getD c 0
  if st = 2 then s
  else if st = 0 ∧ s.faults.cores.getD (1 - c) 0 ≠ 0 then fatal 0x10 (coreDomain c) s
  else
    let s := unitFault (coreDomain c) 0 cause 0 0 s
    checkSpares (if st = 0 then setCore c 1 s else s)

def execCoreWatchdog (core : Nat) (s : State) : Host.Outcome State Fault Refusal :=
  run (.coreWatchdog core) s (whenServing (haltCore core 0x0A))

/-- A halted core restarts: it rejoins at the next boundary, or its failed test counts as a second fault. -/
def restartCore (c : Nat) (passed : Bool) (s : State) : State :=
  if s.faults.cores.getD c 0 ≠ 1 then s
  else if passed then dropDomain (coreDomain c) (setCore c 3 s)
  else haltCore c 0x0A s

def execCoreRestartDone (core : Nat) (passed : Bool) (s : State) : Host.Outcome State Fault Refusal :=
  run (.coreRestartDone core passed) s (whenServing (restartCore core passed))

/-! ## Board channels (Table 14-2) -/

def channelDomain (tier c : Nat) : DomainId := { code := 7 + tier, quad := 0, inst := c }

/-- A channel loses training, or its margin wears: it retrains, its frames unreadable meanwhile; within its
window it goes offline. -/
def loseChannel (tier c cause : Nat) (s : State) : State :=
  if (s.channel tier c).offline then s
  else
    let s := unitFault (channelDomain tier c) 0 cause 0 0 s
    if (s.channel tier c).offline then s
    else modChannel tier c (fun x => { x with trained := false, retraining := true, retrains := x.retrains + 1 }) s

def execChannelTrainingLoss (tier channel : Nat) (s : State) : Host.Outcome State Fault Refusal :=
  run (.channelTrainingLoss tier channel) s (whenServing (loseChannel tier channel 0x09))

/-- A channel trained: its margin is what training measured (log 25). -/
def trainChannel (tier c : Nat) (s : State) : State :=
  let n := takeFree s
  modChannel tier c (fun x => { x with trained := true, retraining := false, margin := Config.measured n.1 (600 + channelKey tier c) % 256 }) n.2

/-- A channel's retraining ends, and with it its window (R355). -/
def retrainedChannel (tier c : Nat) (s : State) : State :=
  if (s.channel tier c).retraining then dropDomain (channelDomain tier c) (trainChannel tier c s) else s

def execChannelRetrained (tier channel : Nat) (s : State) : Host.Outcome State Fault Refusal :=
  run (.channelRetrained tier channel) s (whenServing (retrainedChannel tier channel))

/-! ## Wear and escalation (R356, R359) -/

/-- The cause of a UNIT fault of a domain (Table 14-7, log 24). -/
def unitCause (d : DomainId) : Nat :=
  if d.code ≤ 3 then 0x07
  else if d.code = 12 then 0x0A
  else if d.code = 6 ∨ d.code = 11 then 0x08
  else 0x09

/-- A domain of steps is to go offline on its resource in the next row 6. -/
def orderEscalation (d : DomainId) (unit : Nat) (entry : Option FaultEntry) (s : State) : State :=
  match s.domain d with
  | some x => setDomain { x with escalating := true, unit := unit, entry := if x.entry.isSome then x.entry else entry } s
  | none => setDomain { id := d, state := 1, opened := nsOf s.now, unit := unit, recovered := false, escalating := true, entry := entry } s

/-- A wear threshold: the unit measured is retired, its spare brought in at the next row 6, or at once for a
phase; a channel retrains, a core restarts. -/
def wear (d : DomainId) (unit : Nat) (s : State) : State :=
  let cause := if d.code ≤ 3 then 0x07 else 0x08
  if inSteps d then orderEscalation d unit (some (faultEntry s 3 d cause 0 0 (if d.code = 6 then unit else 0))) (noteFault d unit s)
  else if d.code = 8 ∨ d.code = 9 then loseChannel (d.code - 7) d.inst cause s
  else if d.code = 11 then phaseFault d.inst s
  else if d.code = 12 then haltCore d.inst cause s
  else unitFault d unit cause 0 0 s

def execWearThreshold (domain : DomainId) (unit : Nat) (s : State) : Host.Outcome State Fault Refusal :=
  run (.wearThreshold domain unit) s (whenServing (wear domain unit))

/-- A second fault in a recovery window: offline at the next row 6 for a domain of steps, at once for the
others. -/
def escalateDomain (d : DomainId) (unit : Nat) (s : State) : State :=
  match s.domain d with
  | none => s
  | some x =>
    if x.state = 2 ∧ !(inSteps d) then s
    else if inSteps d then orderEscalation d unit (some (faultEntry s 3 d (unitCause d) 0 0 0)) s
    else checkSpares (unitFault d unit (unitCause d) 0 0 s)

def execEscalation (domain : DomainId) (unit : Nat) (s : State) : Host.Outcome State Fault Refusal :=
  run (.escalation domain unit) s (whenServing (escalateDomain domain unit))

/-! ## Data errors (R281 to R286, R367, R368) -/

/-- The lookups of a lookup step in flight that consumed a block with a data error (R95, R282). -/
def faultLookups (n : Nat) (s : State) : State :=
  { s with step := s.step.map fun x =>
      { x with lookups := x.lookups.map fun l =>
          match setOf s l with
          | some t =>
            match t.package.tables[l.table]? with
            | some d => if (lookupBlocks t d l).contains n then { l with faulted := true } else l
            | none => l
          | none => l } }

/-- An error in a block: of the host region it poisons the line where it lies; of a package it voids the step
that consumed it and sends the block up the ladder. -/
def blockError (n : Nat) (e : DataErr) (consumed : Bool) (s : State) : State :=
  if (s.block n).state = .unmapped then s
  else if inHost s n then
    let k := takeFree s
    let line := n * 32768 + Config.errorPlace k.1 % 32768
    { k.2 with poisoned := if k.2.poisoned.contains line then k.2.poisoned else line :: k.2.poisoned }
  else packageError n e (if consumed then voidFor [n] (faultLookups n s) else s)

/-- The DRAM row where a word of a group lies, which its error does not name (log 24): domain and row. -/
def groupRow (k g : Nat) (s : State) : DomainId × Nat :=
  let x := s.group g
  match fmFind s.pools x.slot with
  | none => ({ code := 7, quad := 0, inst := 0 }, 0)
  | some p =>
    let l := slotOrder p
    let h := (l[Config.errorPlace k % max 1 l.length]?).getD (0, 0)
    let a := slotAddress s x.slot p x.frameSet h.1 h.2 + Config.errorPlace (k + 1) % slotBytes p
    let f := framePlace (a / blockBytes)
    let bank := f.2.2.1 * 4 + f.2.1 / 12
    ({ code := 6, quad := f.1, inst := f.2.2.2 * 1024 + bank }, f.2.1 % 12 * 1024 + a % blockBytes / 2048)

/-- An uncorrectable word in a key/value page: a STEP fault of the DRAM row where a step consumed it; the group
is dropped in row 4 of the next boundary (R367). -/
def groupError (g : Nat) (consumed : Bool) (s : State) : State :=
  let x := s.group g
  if x.residence = .free ∨ x.residence = .grace ∨ x.residence = .dropped then s
  else
    let k := takeFree s
    let r := groupRow k.1 g s
    let s := { k.2 with freeIndex := k.2.freeIndex + 1 }
    let s := if consumed then stepFault r.1 r.2 0x05 0 r.2 s else unitFault r.1 r.2 0x08 0 r.2 s
    modGroup g (fun x => { x with damaged := true }) s

/-- A context's private data is lost: it ends FAULTED at the next boundary. -/
def damageCtx (i : Nat) (s : State) : State :=
  if s.faults.damaged.contains i ∨ (s.ctx i).state = .free then s
  else { s with faults := { s.faults with damaged := s.faults.damaged ++ [i] } }

/-- Recurrent state of a sequence (Table 14-6). -/
def recurrentError (i : Nat) (consumed : Bool) (s : State) : State :=
  damageCtx i (if consumed then voidStep s else s)

/-- A spill image: its prefetch is abandoned, the group is dropped in the next row 4 (Table 14-6). -/
def imageError (g : Nat) (s : State) : State :=
  let x := s.group g
  if x.residence = .t1 ∨ x.residence = .t2 ∨ x.residence = .prefetching then
    dropTransfers (ofGroup g) (modGroup g (fun x => { x with damaged := true, finished := false }) s)
  else s

/-- A history chunk is lost: its group is never dropped; a sequence that needs it to recompute ends FAULTED. -/
def historyError (g : Nat) (s : State) : State :=
  let x := s.group g
  if !x.history then s
  else
    let s := modGroup g (fun x => { x with historyLost := true }) s
    if x.residence = .dropped then
      forEach ((s.ctxs.filter fun c => decide (some g ∈ c.2.pages)).map Prod.fst) damageCtx s
    else s

/-- A journal record is discarded. -/
def journalError (i step : Nat) (s : State) : State :=
  modCtx i (fun c => { c with journal := c.journal.filter fun r => r.step != step }) s

/-- The target of a poisoned ATOMIC stays poisoned. -/
def atomicError (a : Nat) (s : State) : State :=
  { s with poisoned := if s.poisoned.contains (a / 64) then s.poisoned else a / 64 :: s.poisoned }

/-- A data error, by what it struck. -/
def dataError (target : Damaged) (err : DataErr) (consumed : Bool) (s : State) : State :=
  match target with
  | .block n => blockError n err consumed s
  | .kvGroup g => groupError g consumed s
  | .recurrent i => recurrentError i consumed s
  | .spillImage g => imageError g (countErr err s)
  | .historyChunk g => historyError g s
  | .journalRecord i step => journalError i step s
  | .atomicTarget a => atomicError a s

def execDataError (target : Damaged) (err : DataErr) (consumed : Bool) (s : State) : Host.Outcome State Fault Refusal :=
  run (.dataError target err consumed) s (whenServing (dataError target err consumed))

/-! ## Scrub (R266, R281, R365) -/

/-- The blocks whose image is a frame of a lower tier, and the groups whose image has it. -/
def imageOwners (s : State) (tier f : Nat) : List Nat × List Nat :=
  ((s.blocks.filter fun b => b.2.image == some f && (if b.2.imageT2 then 2 else 1) == tier).map Prod.fst,
    (s.images.filter fun i => i.2.tier == tier && i.2.frames.contains f).map fun i => i.2.lgn)

/-- One frame's finding: bursts corrected are counted; 16 retire the frame; an uncorrectable burst damages what
the frame holds. -/
def scrubFinding (x : ScrubFinding) (s : State) : State :=
  let c := x.frame / channelFrames x.tier
  let s := modChannel x.tier c (fun h => { h with corrected := h.corrected + x.corrected, uncorrectable := h.uncorrectable + bit x.uncorrectable }) s
  let s := if 16 ≤ x.corrected then
      writeLog (faultEntry s 3 (channelDomain x.tier c) 0x08 3 0 0) (retireFrame x.tier x.frame s)
    else s
  if x.uncorrectable then
    let o := imageOwners s x.tier x.frame
    forEach o.2 imageError (forEach o.1 (fun n => packageError n .tierUe) (retireFrame x.tier x.frame s))
  else s

/-- A scrub pass of the lower tiers ends. -/
def scrub (l : List ScrubFinding) (s : State) : State :=
  let s := forEach l scrubFinding s
  forEach (List.range 36) (fun k s =>
    let t := if k < 20 then 1 else 2
    let c := if k < 20 then k else k - 20
    if (s.channel t c).offline then s
    else modChannel t c (fun h => { h with scrubPasses := h.scrubPasses + 1 }) s) s

def execScrubPass (findings : List ScrubFinding) (s : State) : Host.Outcome State Fault Refusal :=
  run (.scrubPass findings) s (whenServing (scrub findings))

/-! ## FATAL and the dump (R373 to R376) -/

def fatalFault (cause : Nat) (d : DomainId) (hasQuad : Bool) (s : State) : State :=
  if s.faults.fatal then s
  else
    let s := fatal cause d s
    { s with faults := { s.faults with dump := s.faults.dump.map fun x => { x with quadrant := if hasQuad then d.quad else 0xFF } } }

def execFatalFault (cause : Nat) (domain : DomainId) (hasQuad : Bool) (s : State) : Host.Outcome State Fault Refusal :=
  run (.fatalFault cause domain hasQuad) s (whenAnswering (fatalFault cause domain hasQuad))

/-- The 32 bytes of a fault-log entry (Table 14-10). -/
def entryBytes (e : FaultEntry) : List Byte :=
  leBytes e.time 8 ++ leBytes e.step 8 ++ leBytes e.cls 1 ++ leBytes e.domain.code 1 ++ leBytes e.domain.inst 2 ++
    leBytes e.cause 2 ++ leBytes e.action 1 ++ leBytes e.quadrant 1 ++ leBytes e.slot 4 ++ leBytes e.detail 4

/-- Every fault-log entry, oldest first, at most 65,536. -/
def logBytes (s : State) : List Byte :=
  let all := s.faults.log.reverse ++ ((List.range 4).map fun q => (fmGet s.faults.quadLog q []).reverse).flatten
  let l := sortBy (fun (a b : FaultEntry) => decide (a.time < b.time)) all
  ((l.drop (l.length - 65536)).map entryBytes).flatten

/-- The unit map of a dump. -/
def unitMapBytes (s : State) : List Byte :=
  ((List.range 4).map fun q =>
    (List.range 100).map (fun i => BitVec.ofNat 8 (tileState s q false i)) ++
      (List.range 168).map (fun i => BitVec.ofNat 8 (tileState s q true i)) ++
      ((List.range 8).map fun l =>
        (List.range 272).map fun k => BitVec.ofNat 8 (nbuState s q l (k / 17) (k % 17))).flatten).flatten

/-- The instances of a spare class in a quadrant's layer, a quadrant, a port or the module: quadrant, layer and
instance. -/
def spareInstances (cls : Nat) : List (Nat × Nat × Nat) :=
  let each (n : Nat) : List (Nat × Nat × Nat) := ((List.range 32).map fun k => (List.range n).map fun i => (k / 8, k % 8, i)).flatten
  if cls ≤ 1 then each 1024
  else if cls = 2 then ((List.range 4).map fun q => (List.range 640).map fun i => (q, 0, i)).flatten
  else if cls = 3 then each 32
  else if cls = 4 then each 16
  else if cls ≤ 6 then (List.range 4).map fun q => (q, 0, 0)
  else if cls = 7 then (List.range 8).map fun p => (0, p, 0)
  else [(0, 0, 0)]

/-- The spare budgets of a dump: one entry for each instance built. -/
def budgetBytes (s : State) : List Byte :=
  ((List.range 10).map fun cls => (spareInstances cls).map fun x =>
    let b := (sparesOf s cls x.1 x.2.1 x.2.2).getD (0, 0)
    leBytes cls 1 ++ leBytes x.1 1 ++ leBytes x.2.1 1 ++ [0] ++ leBytes b.1 2 ++ leBytes b.2 2).flatten.flatten

def domainBytes (s : State) : List Byte :=
  (s.faults.domains.map fun d =>
    leBytes d.id.code 1 ++ leBytes (if logsInQuadrant d.id then d.id.quad else 0xFF) 1 ++ leBytes d.id.inst 2 ++ leBytes d.state 1 ++ leBytes 0 3 ++ leBytes d.opened 8).flatten

/-- The code of a queue pair's state (Table 18-3). -/
def qpCode : QpState → Nat
  | .disabled => 0 | .active => 1 | .error => 2 | .stopping => 3

def qpBytes (s : State) : List Byte :=
  ((List.range 4096).map fun k =>
    let t := k / 16
    let q := k % 16
    let x := s.qp t q
    leBytes t 1 ++ leBytes q 1 ++ leBytes (qpCode x.state) 1 ++ leBytes (bit x.polled) 1 ++ leBytes x.fetched 4 ++
      leBytes x.written 4 ++ leBytes x.tail 4 ++ leBytes x.head 4 ++ leBytes (owed s t q) 4 ++ leBytes 0 8).flatten

def ctxBytes (s : State) : List Byte :=
  ((List.range 65536).map fun i =>
    let c := s.ctx i
    leBytes c.state.code 1 ++ leBytes (c.prior.code + 128 * bit c.sidingMark) 1 ++ leBytes c.tenant 1 ++ leBytes c.slot 1 ++
      leBytes c.incarnation 2 ++ leBytes c.home 1 ++ leBytes c.qp 1 ++ leBytes c.committed 4 ++ leBytes c.stepNo 4).flatten

/-- Bytes padded to whole units of 4 KiB. -/
def padPage (l : List Byte) : List Byte := l ++ List.replicate (ceilDiv l.length 4096 * 4096 - l.length) 0

/-- The directory and the records laid out behind the header: type, entry size, bytes. -/
def layRecords : Nat → List (Nat × Nat × List Byte) → List Byte × List Byte
  | _, [] => ([], [])
  | o, r :: l =>
    let body := padPage r.2.2
    let x := layRecords (o + body.length) l
    (leBytes r.1 2 ++ leBytes r.2.1 2 ++ leBytes (r.2.2.length / r.2.1) 4 ++ leBytes o 8 ++ x.1, body ++ x.2)

/-- The dump without its CRC (Tables 14-8 and 14-9). -/
def dumpBody (n : Nat) (d : Dump) (crc : Nat) (s : State) : List Byte :=
  let trace := Config.firmwareTrace n
  let recs := [(1, 32, logBytes s), (2, 1, unitMapBytes s), (3, 8, budgetBytes s), (4, 16, domainBytes s), (5, 32, qpBytes s),
    (6, 16, ctxBytes s), (7, 16, (trace.1.take (trace.1.length / 16 * 16)).take 134217728)]
  let x := layRecords 4096 recs
  let flags := 1 + 2 * bit d.hostFailed + 4 * bit trace.2
  let head := [0x4C, 0x54, 0x39, 0x44, 0x55, 0x4D, 0x50, 0x00] ++ leBytes 1 2 ++ leBytes (bit d.toReserve) 1 ++ leBytes flags 1 ++
    leBytes recs.length 4 ++ leBytes (4096 + x.2.length) 8 ++ leBytes d.time 8 ++ leBytes d.step 8 ++ leBytes d.cause 2 ++
    leBytes d.domain 1 ++ leBytes d.quadrant 1 ++ leBytes d.inst 4 ++ leBytes s.fwVersion.toNat 8 ++ leBytes (bit s.security.gradeS) 1 ++
    leBytes (roleCode s.junction.role) 1 ++ leBytes s.moduleId 2 ++ leBytes s.faults.mapGen 4 ++
    ((List.range 4).map fun _ => leBytes d.position 4).flatten ++ leBytes crc 4 ++ List.replicate 172 0
  padPage (head ++ x.1 ++ List.replicate (256 - x.1.length) 0) ++ x.2

/-- The whole dump. -/
def dumpBytes (n : Nat) (d : Dump) (s : State) : List Byte := dumpBody n d (crc32c (dumpBody n d 0 s)) s

/-- DUMP_BASE and DUMP_SIZE (Table 17-2). -/
def dumpBase (s : State) : Nat := s.reg 0x100 0 0
def dumpSize (s : State) : Nat := s.reg 0x108 0 0

/-- The host region can take a dump (R374). -/
def dumpToHost (s : State) : Bool :=
  decide (dumpBase s ≠ 0) && dumpBase s % 4096 == 0 && decide (268435456 ≤ dumpSize s) && decide (s.boot.linkWidth ≠ 0) &&
    reachable s 0 (dumpBase s) (dumpSize s) true

/-- The signal box finishes the dump: in the host region, else whole in the reserve. -/
def finishDump (failed : Bool) (s : State) : State :=
  match s.faults.dump with
  | none => s
  | some d =>
    if !s.faults.fatal ∨ s.faults.dumpDone then s
    else
      let k := takeFree s
      let host := dumpToHost s && !failed
      let d := { d with complete := true, hostFailed := dumpToHost s && failed, toReserve := !host }
      let bytes := dumpBytes k.1 d s
      let s := k.2
      match (if host then writeHost s 0 (dumpBase s) bytes else none) with
      | some s => { s with faults := { s.faults with dump := some d, dumpDone := true } }
      | none =>
        let d := { d with toReserve := true }
        { s with faults := { s.faults with dump := some d, dumpDone := true, dumpInReserve := true, reserve := dumpBytes k.1 d s } }

def execDumpDone (hostWriteFailed : Bool) (s : State) : Host.Outcome State Fault Refusal :=
  run (.dumpDone hostWriteFailed) s (whenAnswering (finishDump hostWriteFailed))

/-- DUMP_RELEASE: the reserve is cleared, the dump key destroyed (R375, R377). -/
def releaseDump (s : State) : State :=
  if s.faults.dumpInReserve then
    { s with faults := { s.faults with dumpInReserve := false, reserve := [] }, security := { s.security with dumpKey := none } }
  else s

def execDumpRelease (s : State) : Host.Outcome State Fault Refusal := run .dumpRelease s (whenAnswering releaseDump)

end Sys2Proof.Machine
end

