-- ==== Sys2Proof/Machine/Resets.lean ====
section
/-! DEFINITION. Resets, boot and wiping (R381 to R383, R389, R390, R401 to R407): what each reset kind keeps, the
boot from flash, training from the health record, the wipe. -/

namespace Sys2Proof.Machine

/-! ## ALERT# (R446) -/

/-- ALERT# is held low while SPARES_LOW, FATAL, POWER_WARN or LATCH_OPEN holds. -/
def settleAlert (s : State) : State :=
  { s with out := { s.out with alert := s.faults.sparesLow || s.faults.fatal || s.power.warn || s.boot.latchOpen } }

/-! ## What a wipe clears (Tables 15-8, 16-5) -/

/-- Every store is zeros, and nothing of models, sequences, pages, tiers or steps is left (Table 15-9). -/
def wipeStores (s : State) : State :=
  { s with
    ctxs := [], slots := [], adapters := [], tableSets := [], nextVersion := 0, loads := [], lookups := [], governed := [], outgoing := [],
    sinceLookup := 0, groups := [], images := [], pools := [], diversions := [], bindings := [], nodes := [],
    imports := [], exports := [], piecesUsed := 0, historyUsed := 0, grace := [], useCount := 0, blocks := [],
    tierUsed := [], hostQueues := [], atomicCache := [], mem := [], bank := [], poisoned := [], staging := [],
    logits := [], nbus := [], bank0 := [], bank1 := [], activeBank := 0, bankReady := true, checked := true,
    step := none, round := none, waits := 0, calm := 0, outbox := [], ringOut := [], lastReplay := [] }

/-- New storage keys of the provider and the tenants (R377): generations not used before. -/
def freshKeys (s : State) : State :=
  let n := s.security.nextKey
  { s with security := { s.security with providerKey := n, nextKey := n + 1 } }

/-- Every register, queue pair, tenant, port and counter at its reset value, every store wiped, new keys: what cold
and warm reset have in common (Table 16-5). -/
def resetBlocks (s : State) : State :=
  freshKeys (wipeStores
    { s with
      regs := [], latched := [], halves := [], seals := 0, refusedCount := 0, refusedAddr := 0, refusedKind := 0,
      loadReason := 0, loadCmdId := 0, loadOffset := 0, stepCounter := 0, boundary := 0, generation := 0,
      tenants := State.reset.tenants, qps := [], sluice := freshSluice, buckets := [], ckus := [], ports := [] })

/-- ENROLL and REVOKE are in flash (Table 15-4): a reset leaves none of them waiting. -/
def settledKeys (c : Security) : List KeyPair :=
  c.enrolling.foldl (fun l e => if e.1 then l ++ [e.2] else l.filter fun k => decide (k ≠ e.2)) c.enrolled

/-- LC_STATE (Table 17-6). -/
def stateCode : LifeCycle → Nat
  | .blank => 0 | .provisioned => 1 | .operational => 2 | .debug => 3 | .rma => 4 | .retired => 5

/-! ## Boot (R382, R383, R405) -/

/-- The checks of an image: security version and both signatures. -/
def imageOk (least : Nat) (i : FwImage) : Bool := decide (least ≤ i.svn) && i.rsaOk && i.slhOk

/-- Every image of a bundle passes. -/
def bundleOk (least : Nat) (b : FwBundle) : Bool := imageOk least b.security && imageOk least b.control && imageOk least b.training

def flashBank (c : Security) (b : Nat) : FwBundle := if b = 0 then c.bank0 else c.bank1

/-- The bank that boots: BOOT_BANK's, else the other; none: BOOT_FAIL. -/
def bankToBoot (c : Security) : Option Nat :=
  if bundleOk c.minSvn (flashBank c c.bootBank) then some c.bootBank
  else if bundleOk c.minSvn (flashBank c (1 - c.bootBank)) then some (1 - c.bootBank)
  else none

/-- Two repairs of one row or column. -/
def sameLine (a b : Repair) : Bool :=
  a.isRow == b.isRow && a.quad == b.quad && a.layer == b.layer && a.bank == b.bank && a.line == b.line

/-- The repairs of a kind in a bank that the health record holds. -/
def bankRepairs (l : List HealthEntry) (isRow : Bool) (q layer bank : Nat) : List Repair :=
  l.filterMap fun e => match e with
    | .repair r => if r.isRow = isRow ∧ r.quad = q ∧ r.layer = layer ∧ r.bank = bank then some r else none
    | _ => none

/-- A staged repair is made, or discarded where its line is repaired already or its bank has no spare of the kind
left (R414). -/
def applyRepair (r : Repair) (s : State) : State :=
  let l := bankRepairs s.health r.isRow r.quad r.layer r.bank
  if l.any (sameLine r) ∨ (if r.isRow then 256 else 32) ≤ l.length then
    { s with boot := { s.boot with discarded := s.boot.discarded ++ [r] } }
  else record (.repair r) s

/-- The staged repairs, as training begins. -/
def applyStaged (s : State) : State :=
  let l := s.boot.staged
  forEach l applyRepair { s with boot := { s.boot with staged := [] } }

/-- The boot ROM starts (moment R of R405): device time starts at 0; the images are verified; training begins, or the
module reports BOOT_FAIL. -/
def startBoot (s : State) : State :=
  let n := takeFree { s with clock := freshClock, stamp := 0 }
  let c := n.2.security
  let s := { n.2 with security := { c with nonce := Config.random256 n.1, bootState := [stateCode c.state, c.count, c.minSvn] } }
  match bankToBoot s.security with
  | none => { s with boot := { s.boot with phase := .bootFail } }
  | some b =>
    let v := (flashBank s.security b).control.version
    applyStaged
      { s with security := { s.security with booted := b }, boot := { s.boot with phase := .training, warm := false }, fwVersion := v, tplMin := (Config.templateMin v).toNat, tplMax := (Config.templateMax v).toNat }

/-! ## Training (R363, R405) -/

/-- One entry of the health record: a retired unit stays out of service, a repair holds, a frame stays retired. -/
def applyHealth (e : HealthEntry) (s : State) : State :=
  match e with
  | .unit d p =>
    if d.code = 1 then setNbu d.quad (d.inst / 16) (d.inst % 16) p 3 s
    else if d.code = 2 then setTile d.quad false d.inst 3 s
    else if d.code = 3 then setTile d.quad true d.inst 3 s
    else if d.code = 4 then { s with faults := { s.faults with bondSpares := (d.quad, d.inst) :: s.faults.bondSpares } }
    else if d.code = 5 then { s with faults := { s.faults with cmdSpares := (d.quad, d.inst) :: s.faults.cmdSpares } }
    else if d.code = 8 ∨ d.code = 9 then modChannel (d.code - 7) d.inst (fun c => { c with offline := true }) s
    else if d.code = 11 then shedPhase d.inst s
    else s
  | .repair r =>
    let k := (r.quad * 8 + r.layer) * 1024 + r.bank
    if r.isRow then { s with faults := { s.faults with rowsUsed := fmAdd s.faults.rowsUsed k 1 } }
    else { s with faults := { s.faults with columnsUsed := fmAdd s.faults.columnsUsed k 1 } }
  | .frame t f => { s with faults := { s.faults with retiredFrames := (t, f) :: s.faults.retiredFrames } }

/-- A bank group's spare serves the lowest-numbered retired home position. -/
def serveGroup (q l g : Nat) (s : State) : State :=
  match (List.range 16).find? fun p => nbuState s q l g p == 3 with
  | some p => if nbuState s q l g 16 = 1 then setNbu q l g 17 (p + 1) (setNbu q l g 16 2 s) else s
  | none => s

/-- Tile spares replace the retired tiles of a quadrant, ascending. -/
def serveTiles (q : Nat) (pa : Bool) (s : State) : State :=
  let first := firstSpare pa
  let lost := ((List.range first).filter fun i => tileState s q pa i == 3).length
  let free := (List.range (tilesBuilt pa)).filter fun i => decide (first ≤ i) && tileState s q pa i == 1
  forEach (free.take lost) (fun i => setTile q pa i 2) s

/-- The bank groups that the health record names. -/
def namedGroups (l : List HealthEntry) : List (Nat × Nat × Nat) :=
  dedup (l.filterMap fun e => match e with
    | .unit d _ => if d.code = 1 then some (d.quad, d.inst / 16, d.inst % 16) else none
    | _ => none)

/-- The map after a cold reset: a function of the grade, the health record and training. -/
def rebuildMap (s : State) : State :=
  let s := forEach s.health applyHealth { s with boot := { s.boot with hard := s.health.length } }
  let s := forEach (namedGroups s.health) (fun x => serveGroup x.1 x.2.1 x.2.2) s
  forEach (List.range 4) (fun q s => checkPrompt q (serveTiles q true (serveTiles q false s))) s

/-- The link comes up with a width and a rate; CXL.cache with it where the host enables it (R40, R406). -/
def trainLink (w r : Nat) (cache : Bool) (s : State) : State :=
  if s.boot.linkWidth ≠ 0 then s
  else { s with boot := { s.boot with linkWidth := w, linkRate := r, cxlCache := cache && decide (w ≠ 0) } }

/-- Every channel in service is trained. -/
def trainChannels (s : State) : State :=
  forEach (List.range 36) (fun k s =>
    let t := if k < 20 then 1 else 2
    let c := if k < 20 then k else k - 20
    if (s.channel t c).offline then s else trainChannel t c s) s

/-- Training ends and the wipe begins; after a warm reset, whose training is kept, only a link that was down comes up. -/
def completeTraining (w r : Nat) (cache : Bool) (s : State) : State :=
  let s := trainLink w r cache s
  if s.boot.phase = .training then
    settleAlert (checkSpares (trainChannels (rebuildMap { s with boot := { s.boot with phase := .wiping } })))
  else s

def execTrainingComplete (linkWidth linkRate : Nat) (cxlCache : Bool) (s : State) : Host.Outcome State Fault Refusal :=
  run (.trainingComplete linkWidth linkRate cxlCache) s (whenAnswering (completeTraining linkWidth linkRate cxlCache))

/-- The wipe is over (Table 15-9, order 4): WIPE_DONE and READY are set, fetching is permitted. -/
def finishWipe (s : State) : State :=
  if s.boot.phase = .wiping then takeSnapshot { s with boot := { s.boot with phase := .ready, wipeDone := true, warm := false } }
  else s

def execWipeDone (s : State) : Host.Outcome State Fault Refusal := run .wipeDone s (whenAnswering finishWipe)

def execCxlLinkRetrain (width rate : Nat) (cxlCache : Bool) (s : State) : Host.Outcome State Fault Refusal :=
  run (.cxlLinkRetrain width rate cxlCache) s (whenAnswering (trainLink width rate cxlCache))

/-! ## Cold reset (R401 to R403) -/

/-- The state a cold reset leaves before the boot ROM runs: fuses, flash and pins are kept, all else is as after
reset; the host's memory is the host's. -/
def coldState (s : State) : State :=
  let c := s.security
  let b := s.boot
  settleAlert (freshKeys
    { State.reset with
      pending := s.pending, freeIndex := s.freeIndex, host := s.host, out := s.out, health := s.health,
      power := { freshPower with warn := s.power.warn, interruptions := s.power.interruptions, energy := s.power.energy },
      boot := { freshBoot with latchOpen := b.latchOpen, latchStops := b.latchStops, latchExpired := b.latchExpired, pressesIgnored := b.pressesIgnored, attnPulses := b.attnPulses, i3c := b.i3c, indirect := b.indirect, staged := b.staged, discarded := b.discarded, hard := b.hard },
      security := { c with busy := false, reason := 0, enrolled := settledKeys c, enrolling := [], dumpKey := none, spdm := [], ide := [], snapshot := freshSnapshot } })

/-- A cold reset that is not absorbed; PERST# holds the boot ROM until it is deasserted. -/
def coldReset (cause : ColdCause) (s : State) : State :=
  if cause = .perst then coldState s else startBoot (coldState s)

/-- A cold reset is in progress, or the module is held (R402). -/
def coldRunning (s : State) : Bool :=
  match s.boot.phase with
  | .off | .held => true
  | .training | .wiping => !s.boot.warm
  | .bootFail | .ready => false

def requestCold (cause : ColdCause) (s : State) : State := if coldRunning s then s else coldReset cause s

def execColdReset (cause : ColdCause) (s : State) : Host.Outcome State Fault Refusal :=
  run (.coldReset cause) s (whenOn (requestCold cause))

/-- PERST# is deasserted with the rails in regulation: the boot ROM starts. -/
def deassertPerst (s : State) : State := if s.boot.phase = .held then startBoot s else s

def execPerstDeassert (s : State) : Host.Outcome State Fault Refusal := run .perstDeassert s (whenOn deassertPerst)

/-! ## Power (R391, R392, R405) -/

/-- Power-on: what only power-on clears is cleared; then as a cold reset. -/
def powerUp (asserted : Bool) (s : State) : State :=
  let s := coldState s
  let s := { s with power := freshPower, boot := { s.boot with latchOpen := false, latchStops := false, latchExpired := false, i3c := none, indirect := 0 } }
  let s := settleAlert s
  if asserted then s else startBoot s

def execPowerOn (perstAsserted : Bool) (s : State) : Host.Outcome State Fault Refusal :=
  run (.powerOn perstAsserted) s fun s => if s.power.on then s else powerUp perstAsserted s

/-- A power loss: every rail is off; what is not in fuses or flash is gone. -/
def losePower (s : State) : State :=
  let s := coldState s
  settleAlert { s with power := { freshPower with on := false }, boot := { s.boot with phase := .off, latchOpen := false, latchStops := false, latchExpired := false, i3c := none, indirect := 0 } }

def execPowerLoss (s : State) : Host.Outcome State Fault Refusal := run .powerLoss s (whenOn losePower)

/-- The input is outside 40.0 to 57.0 V (VIN counts 10 mV). -/
def outOfRange (vin : Nat) : Bool := decide (vin < 4000) || decide (5700 < vin)

def execPowerWarn (vin : Nat) (s : State) : Host.Outcome State Fault Refusal :=
  run (.powerWarn vin) s (whenOn fun s =>
    if outOfRange vin then settleAlert { s with power := { s.power with vin := vin, warn := true } } else s)

def execPowerWarnClear (vin : Nat) (s : State) : Host.Outcome State Fault Refusal :=
  run (.powerWarnClear vin) s (whenOn fun s =>
    if outOfRange vin then s else settleAlert { s with power := { s.power with vin := vin, warn := false } })

/-- An interruption that the bulk capacitance carries is counted. -/
def execInputInterruption (s : State) : Host.Outcome State Fault Refusal :=
  run .inputInterruption s (whenOn fun s =>
    { s with power := { s.power with interruptions := (s.power.interruptions + 1) % 2 ^ 32 } })

/-! ## Warm reset (R402, R403, R407) -/

/-- The fault machinery after a warm reset: the active-unit map, its generation and the dump reserve are kept. -/
def warmFaults (f : Faults) : Faults :=
  { freshFaults with
    tiles := f.tiles, nbus := f.nbus, bondSpares := f.bondSpares, cmdSpares := f.cmdSpares, rowsUsed := f.rowsUsed,
    columnsUsed := f.columnsUsed, mapGen := f.mapGen, sparesLow := f.sparesLow, daPrompt := f.daPrompt,
    retiredFrames := f.retiredFrames, dumpInReserve := f.dumpInReserve, dump := if f.dumpInReserve then f.dump else none,
    reserve := f.reserve, cores := f.cores.map fun c => if c = 2 then 2 else 0 }

/-- A channel after a warm reset: training kept, counters 0. -/
def warmChannel (c : Channel) : Channel :=
  { freshChannel with trained := c.trained, retraining := c.retraining, offline := c.offline, margin := c.margin }

/-- The clock after a warm reset (Tables 13-1, 13-3): it counts on, its latches, counts and exchange are cleared. -/
def warmClock (c : Clock) : Clock :=
  { c with latch0 := freshLatch, latch1 := freshLatch, pendingSet := none, exchange := none, refLoss := 0, timeFails := 0 }

/-- A warm reset: the images of the booted bank are verified again, the wipe begins as the self-tests start. -/
def warmReset (hot : Bool) (s : State) : State :=
  let c := s.security
  let old := c.providerKey
  let s := resetBlocks s
  let k := s.security
  settleAlert
    { s with
      clock := warmClock s.clock, faults := warmFaults s.faults,
      power := { s.power with bmcLimit := 2600, effective := 2400, level := 0, pace := 0, below := 0 },
      channels := fmMap s.channels fun _ x => warmChannel x,
      junction := { freshJunction with epoch := s.junction.epoch },
      security := { k with busy := false, reason := 0, enrolled := settledKeys c, enrolling := [], spdm := [], ide := if hot then [] else k.ide, snapshot := freshSnapshot, dumpKey := if s.faults.dumpInReserve then some (k.dumpKey.getD old) else none },
      boot := { s.boot with phase := .wiping, warm := true, wipeDone := false, removeReady := false, removing := false, evacuated := false, linkWidth := if hot then 0 else s.boot.linkWidth, linkRate := if hot then 0 else s.boot.linkRate, cxlCache := s.boot.cxlCache && !hot } }

/-- A warm reset while one or a cold reset runs is absorbed; in BOOT_FAIL no bank has booted. -/
def requestWarm (hot : Bool) (s : State) : State := if s.boot.phase = .ready then warmReset hot s else s

def execWarmReset (cause : WarmCause) (s : State) : Host.Outcome State Fault Refusal :=
  run (.warmReset cause) s (whenAnswering (requestWarm (decide (cause = .hotReset))))

/-! ## Function-level reset (R390, R404) -/

/-- A bit address inside the block of a tenant. -/
def keyOfTenant (t k : Nat) : Bool := decide (tenantBase t * 8 ≤ k) && decide (k < (tenantBase t + 0x10000) * 8)

/-- The tenant block at its reset values; parameters, budget and KA(t) are kept (Tables 15-8, 16-5). -/
def resetTenantBlock (t : Nat) (s : State) : State :=
  let clear (m : FMap Nat) : FMap Nat := m.filter fun r => !(keyOfTenant t r.1)
  modTenant t (fun x =>
    { freshTenant with params := x.params, budget := x.budget, periodStart := x.periodStart, refills := x.refills, adapterKey := x.adapterKey, stateKey := x.stateKey, resetPending := true, resetArmed := true })
    { s with regs := clear s.regs, latched := clear s.latched, halves := clear s.halves, qps := s.qps.filter fun x => decide (x.1 / 16 ≠ t), outbox := s.outbox.filter fun c => c.tenant != t, ringOut := s.ringOut.filter fun x => (s.ctx x.1).tenant != t, security := { s.security with spdm := fmErase s.security.spdm t } }

/-- A function-level reset of VF t; one in progress, or a reset of the module, absorbs it. -/
def resetFunction (t : Nat) (s : State) : State :=
  if t = 0 then requestWarm false s
  else if s.boot.phase ≠ .ready ∨ (s.tenant t).resetPending then s
  else resetTenantBlock t s

def execFunctionLevelReset (tenant : Nat) (s : State) : Host.Outcome State Fault Refusal :=
  run (.functionLevelReset tenant) s (whenAnswering (resetFunction tenant))

/-- The last clear has finished: after row 5 of the second boundary the reset completes. -/
def finishFlr (t : Nat) (s : State) : State :=
  let x := s.tenant t
  if x.resetPending ∧ !x.resetArmed ∧ x.clearAt ≤ s.boundary then modTenant t (fun x => { x with resetPending := false }) s else s

def execFlrClearDone (tenant : Nat) (s : State) : Host.Outcome State Fault Refusal :=
  run (.flrClearDone tenant) s (whenAnswering (finishFlr tenant))

/-! ## Evacuation (R342) -/

/-- A module that has left WORKER by evacuation wipes its tiers: keys as at a cold reset, device time and training
kept; it is then safe to pull. -/
def wipeEvacuated (s : State) : State :=
  if s.junction.evacState = 4 then
    let s := freshKeys (wipeStores s)
    { s with junction := { s.junction with evacState := 0, evacPeer := 0 }, boot := { s.boot with evacuated := true }, sluice := { s.sluice with commands := [], unsealing := [], transfers := [], decoded := [] } }
  else s

def execEvacuationWipe (s : State) : Host.Outcome State Fault Refusal :=
  run .evacuationWipe s (whenServing wipeEvacuated)

end Sys2Proof.Machine
end

