-- ==== Sys2Proof/Machine/Attest.lean ====
section
/-! DEFINITION. DOE, SPDM, measurements and IDE (R384 to R387). The framing and the order of SPDM requests follow SPDM 1.2
and 1.3, which the spec names (PRESUMED, log 28). -/

namespace Sys2Proof.Machine

/-! ## Responders -/

def State.spdmOf (s : State) (fn : Nat) : Spdm := fmGet s.security.spdm fn freshSpdm

def modSpdm (fn : Nat) (f : Spdm → Spdm) (s : State) : State :=
  { s with security := { s.security with spdm := fmModify s.security.spdm fn freshSpdm f } }

/-- The security core answers SPDM: its image runs and the identity keys can be derived (Table 15-2, R382). -/
def whenAttesting (f : State → State) (s : State) : State :=
  if s.answers ∧ s.boot.phase ≠ .bootFail ∧ s.security.state ≠ .retired then f s else s

/-- SPDM error codes. -/
abbrev spInvalid : Nat := 0x01
abbrev spSession : Nat := 0x02
abbrev spUnexpected : Nat := 0x04
abbrev spDecrypt : Nat := 0x06

/-- A request that needs the negotiation to have come so far. -/
def after (ready : Bool) (f : State → State) (s : State) : State := if ready then f s else reply (.spdmError spUnexpected) s

/-- Once algorithms are negotiated. -/
def negotiated (fn : Nat) (f : State → State) (s : State) : State := after (s.spdmOf fn).algorithms f s

/-! ## Keys and signatures -/

/-- What the alias keys are derived from: the life-cycle state at boot and measurements 1 to 3 (Table 15-1). -/
def aliasName (s : State) : List Nat :=
  let b := flashBank s.security s.security.booted
  [s.security.bootState.getD 0 0, Config.bootRom.toNat, b.security.digest.toNat, b.security.svn, b.control.digest.toNat,
    b.training.digest.toNat, s.fwVersion.toNat]

/-- A signature of `n` bytes under an alias key. -/
def signWith (s : State) (slh : Bool) (digest : BitVec 384) (n : Nat) : List Byte :=
  (List.range n).map (Config.signatureByte (aliasName s) slh digest)

/-- A signed response: kind 1 CHALLENGE_AUTH, 2 MEASUREMENTS, 3 KEY_EXCHANGE_RSP; its RSASSA-PSS 3072 signature, and the
message kept for GET_PQ_SIGNATURE (R385). -/
def signResponse (fn kind : Nat) (s : State) : State :=
  let n := takeFree s
  let d := Config.transcript n.1
  modSpdm fn (fun x => { x with lastSigned := some d }) (reply (.spdmSigned kind d (signWith s false d 384)) n.2)

/-! ## Negotiation and certificates -/

def execGetVersion (fn : Nat) (s : State) : Host.Outcome State Fault Refusal :=
  run (.getVersion fn) s (whenAttesting fun s =>
    reply (.spdmVersions [0x12, 0x13]) (modSpdm fn (fun x => { x with version := true, capabilities := false, algorithms := false }) s))

def execGetCapabilities (fn : Nat) (s : State) : Host.Outcome State Fault Refusal :=
  run (.getCapabilities fn) s (whenAttesting fun s =>
    after (s.spdmOf fn).version (fun s => reply (.spdmCapabilities false true true true true true true) (modSpdm fn (fun x => { x with capabilities := true }) s)) s)

/-- RSASSA-PSS 3072, SHA-384, secp384r1, AES-256-GCM. -/
def execNegotiateAlgorithms (fn : Nat) (s : State) : Host.Outcome State Fault Refusal :=
  run (.negotiateAlgorithms fn) s (whenAttesting fun s =>
    after (s.spdmOf fn).capabilities (fun s => reply .spdmAlgorithms (modSpdm fn (fun x => { x with algorithms := true }) s)) s)

def execGetDigests (fn : Nat) (s : State) : Host.Outcome State Fault Refusal :=
  run (.getDigests fn) s (whenAttesting (negotiated fn fun s =>
    reply (.spdmDigests [0] (sha384 (Config.rsaChain (aliasName s)))) s))

/-- Slot 0 only. -/
def certificate (slot offset length : Nat) (s : State) : State :=
  if slot = 0 then reply (.spdmCertificate offset (((Config.rsaChain (aliasName s)).drop offset).take length)) s
  else reply (.spdmError spInvalid) s

def execGetCertificate (fn certSlot offset length : Nat) (s : State) : Host.Outcome State Fault Refusal :=
  run (.getCertificate fn certSlot offset length) s (whenAttesting (negotiated fn (certificate certSlot offset length)))

def execChallenge (fn certSlot : Nat) (nonce : BitVec 256) (s : State) : Host.Outcome State Fault Refusal :=
  run (.challenge fn certSlot nonce) s (whenAttesting (negotiated fn fun s =>
    if certSlot = 0 then signResponse fn 1 s else reply (.spdmError spInvalid) s))

/-! ## Measurements (Table 15-6, R386) -/

/-- The content of a measurement for a function, as numbers: hashes, versions, codes. -/
def measurement (s : State) (fn k : Nat) : List Nat :=
  let b := flashBank s.security s.security.booted
  let x := s.security.snapshot
  match k with
  | 1 => [Config.bootRom.toNat]
  | 2 => [b.security.digest.toNat, b.security.svn]
  | 3 => [b.control.digest.toNat, b.training.digest.toNat, s.fwVersion.toNat]
  | 4 => s.security.bootState
  | 5 => [bit s.security.gradeS, x.mapGen, (Config.listDigest 1 (x.tiles ++ x.nbus)).toNat]
  | 6 => x.policy :: x.ideRequired :: (Config.listDigest 2 x.sealedRegs).toNat :: (x.enrolled.map fun p => [p.rsa.toNat, p.slh.toNat]).flatten
  | 7 => (x.slots.map fun p => [p.1, p.2.1, p.2.2]).flatten ++ (x.adapters.map fun a => a.2.2) ++ x.tables
  | 8 =>
    (match fmFind x.tenants fn with
      | some p => [bit p.enabled, p.qpQuota, p.highest, p.partition, p.ctxQuota, p.periodMs, p.perPeriod, p.burst]
      | none => []) ++ (x.adapters.filter fun a => a.2.1 == fn).map fun a => a.1
  | _ => []

/-- GET_MEASUREMENTS: index 0 asks how many there are, 0xFF for all of them. -/
def measurements (fn index : Nat) (signed : Bool) (s : State) : State :=
  let ks := if index = 0 then some [] else if index = 0xFF then some [1, 2, 3, 4, 5, 6, 7, 8] else if index ≤ 8 then some [index] else none
  match ks with
  | none => reply (.spdmError spInvalid) s
  | some l =>
    let s := reply (.spdmMeasurements (if index = 0 then 8 else index) (l.map fun k => (k, measurement s fn k))) s
    if signed then signResponse fn 2 s else s

def execGetMeasurements (fn index : Nat) (signed : Bool) (nonce : BitVec 256) (s : State) : Host.Outcome State Fault Refusal :=
  run (.getMeasurements fn index signed nonce) s (whenAttesting (negotiated fn (measurements fn index signed)))

/-! ## Sessions -/

/-- KEY_EXCHANGE begins a session; its number is the next one. -/
def beginSession (fn certSlot : Nat) (s : State) : State :=
  if certSlot = 0 then
    signResponse fn 3 (modSpdm fn (fun x => { x with handshaking := x.handshaking ++ [x.nextSession], nextSession := x.nextSession + 1 }) s)
  else reply (.spdmError spInvalid) s

def execKeyExchange (fn certSlot : Nat) (share : List Byte) (s : State) : Host.Outcome State Fault Refusal :=
  run (.keyExchange fn certSlot share) s (whenAttesting (negotiated fn (beginSession fn certSlot)))

/-- FINISH establishes the session; a wrong MAC ends it. -/
def finishSession (fn n : Nat) (ok : Bool) (s : State) : State :=
  let x := s.spdmOf fn
  let gone (x : Spdm) : Spdm := { x with handshaking := x.handshaking.filter (· != n) }
  if !(x.handshaking.contains n) then reply (.spdmError spSession) s
  else if ok then reply (.spdmFinish n) (modSpdm fn (fun x => { gone x with sessions := x.sessions ++ [n] }) s)
  else reply (.spdmError spDecrypt) (modSpdm fn gone s)

def execFinish (fn session : Nat) (macOk : Bool) (s : State) : Host.Outcome State Fault Refusal :=
  run (.finish fn session macOk) s (whenAttesting (finishSession fn session macOk))

/-- A request inside an established session. -/
def inSession (fn n : Nat) (f : State → State) (s : State) : State :=
  if (s.spdmOf fn).sessions.contains n then f s else reply (.spdmError spSession) s

def execHeartbeat (fn session : Nat) (s : State) : Host.Outcome State Fault Refusal :=
  run (.heartbeat fn session) s (whenAttesting (inSession fn session (reply (.spdmHeartbeat session))))

/-- KEY_UPDATE: 1 the requester's key, 2 both, 3 verifies the new key. -/
def updateKeys (fn n op : Nat) (s : State) : State :=
  if op = 0 ∨ 3 < op then reply (.spdmError spInvalid) s
  else reply (.spdmKeyUpdate n op) (modSpdm fn (fun x => { x with keyUpdates := if op = 3 then x.keyUpdates else x.keyUpdates + 1 }) s)

def execKeyUpdate (fn session operation : Nat) (s : State) : Host.Outcome State Fault Refusal :=
  run (.keyUpdate fn session operation) s (whenAttesting (inSession fn session (updateKeys fn session operation)))

/-- END_SESSION destroys the session's keys. -/
def execEndSession (fn session : Nat) (s : State) : Host.Outcome State Fault Refusal :=
  run (.endSession fn session) s (whenAttesting (inSession fn session fun s =>
    reply (.spdmEnd session) (modSpdm fn (fun x => { x with sessions := x.sessions.filter (· != session) }) s)))

/-! ## The Zuloth extension (R385) -/

/-- The 16,224-byte SLH-DSA signature over what the latest signed response covered. -/
def pqSignature (fn : Nat) (s : State) : State :=
  match (s.spdmOf fn).lastSigned with
  | some d => reply (.pqSignature d (signWith s true d 16224)) s
  | none => reply (.spdmError spUnexpected) s

def execGetPqSignature (fn : Nat) (s : State) : Host.Outcome State Fault Refusal :=
  run (.getPqSignature fn) s (whenAttesting (negotiated fn (pqSignature fn)))

/-- The SLH-DSA chain in portions of 64 KiB. -/
def execGetPqCertificate (fn offset : Nat) (s : State) : Host.Outcome State Fault Refusal :=
  run (.getPqCertificate fn offset) s (whenAttesting (negotiated fn fun s =>
    reply (.pqCertificate offset (((Config.slhChain (aliasName s)).drop offset).take 65536)) s))

/-! ## DOE (R384) -/

/-- The three protocols of a mailbox: discovery, CMA/SPDM, secured CMA/SPDM, under the PCI-SIG's vendor id; the index of
the next, 0 after the last. -/
def discover (index : Nat) (s : State) : State :=
  if index ≤ 2 then reply (.doeProtocols index 0x0001 index (if index = 2 then 0 else index + 1)) s
  else reply (.doeProtocols index 0xFFFF 0xFF 0) s

def execDoeDiscovery (fn index : Nat) (s : State) : Host.Outcome State Fault Refusal :=
  run (.doeDiscovery fn index) s (whenAnswering (discover index))

/-! ## IDE (R387) -/

/-- Streams 0 to 3 are the selective streams of CXL.io, stream 4 the CXL link (log 28). -/
def streamOk (n : Nat) : Bool := decide (n < 5)

def modStream (n : Nat) (f : IdeStream → IdeStream) (s : State) : State :=
  { s with security := { s.security with ide := fmModify s.security.ide n { programmed := false, secure := false, keyGen := 0 } f } }

/-- What an IDE_KM request asks: 0 programs keys, 1 starts the stream, 2 stops it, 3 refreshes its keys. -/
def manageKeys (n op : Nat) (s : State) : State :=
  let x := fmGet s.security.ide n { programmed := false, secure := false, keyGen := 0 }
  if op = 0 then reply (.ideAck n) (modStream n (fun x => { x with programmed := true, keyGen := x.keyGen + 1 }) s)
  else if !x.programmed ∨ 3 < op then s
  else if op = 1 then reply (.ideAck n) (modStream n (fun x => { x with secure := true }) s)
  else if op = 2 then reply (.ideAck n) (modStream n (fun x => { x with secure := false }) s)
  else reply (.ideAck n) (modStream n (fun x => { x with keyGen := x.keyGen + 1 }) s)

/-- IDE_KM and CXL_IDE_KM are taken in a secured SPDM session of the PF only. -/
def takeKm (n : Nat) (secured : Bool) (op : Nat) (s : State) : State :=
  if secured && !(s.spdmOf 0).sessions.isEmpty && streamOk n then manageKeys n op s else s

def execIdeKm (stream : Nat) (secured : Bool) (operation : Nat) (s : State) : Host.Outcome State Fault Refusal :=
  run (.ideKm stream secured operation) s (whenAttesting (takeKm stream secured operation))

/-- A stream leaves the Secure state. -/
def execIdeStreamInsecure (stream : Nat) (s : State) : Host.Outcome State Fault Refusal :=
  run (.ideStreamInsecure stream) s (whenAnswering fun s =>
    if (fmFind s.security.ide stream).isSome then modStream stream (fun x => { x with secure := false }) s else s)

end Sys2Proof.Machine
end

