-- ==== Sys2Proof/Machine/Commands.lean ====
section
/-! DEFINITION. Signed commands of the security mailbox (R380 to R383, Tables 15-3, 15-4): their checks, the life-cycle
transitions, key enrolment, firmware. -/

namespace Sys2Proof.Machine

/-! ## Reasons (R423) -/

abbrev mbOk : Nat := 0
abbrev mbSignature : Nat := 1
abbrev mbNonce : Nat := 2
abbrev mbState : Nat := 3
abbrev mbBusy : Nat := 4
abbrev mbFull : Nat := 5
abbrev mbLength : Nat := 6
abbrev mbPayloadHash : Nat := 7
abbrev mbIdentity : Nat := 8
abbrev mbBundle : Nat := 10

/-! ## Checks -/

/-- What every record must pass, with the reason of each check (R380, Table 15-3); `signed`: the signatures the command
needs are there and verify. -/
def recordFailures (c : SignedCommand) (signed : Bool) (s : State) : List Nat :=
  (if 1048576 < c.payloadLength ∨ c.payload.length ≠ c.payloadLength then [mbLength] else []) ++
    (if c.identity = Config.identityId then [] else [mbIdentity]) ++
    (if c.nonce = s.security.nonce then [] else [mbNonce]) ++
    (if c.payloadHash = sha384 c.payload then [] else [mbPayloadHash]) ++
    (if signed then [] else [mbSignature])

/-- A command from a state that Table 15-4 does not list for it; after the 63rd transition only RETIRE is taken. -/
def stateFailures (sources : List LifeCycle) (retire : Bool) (s : State) : List Nat :=
  if sources.contains s.security.state ∧ (retire ∨ s.security.count < 63) then [] else [mbState]

/-- Work that a change of state waits for (R381). -/
def busyFailures (s : State) : List Nat :=
  if (s.ctxs.any fun c => !decide (c.2.state = .free)) ∨ !s.loads.isEmpty then [mbBusy] else []

/-- Failures whose reason no code names: a reserved field that is not 0; in BOOT_FAIL, a command other than FW_UPDATE. -/
def unnamed (c : SignedCommand) (update : Bool) (s : State) : Bool :=
  !c.reservedZero || (decide (s.boot.phase = .bootFail) && !update)

/-- The command is over: MB_REASON, a new nonce, MB_BUSY clear (R380, R423). -/
def endCommand (reason : Nat) (s : State) : State :=
  let n := takeFree s
  reply (.mailbox reason)
    { n.2 with security := { n.2.security with nonce := Config.random256 n.1, reason := reason, busy := false } }

/-- The reason reported for failures: the one there is, or one of several (log 27). -/
def failCommand (l : List Nat) (noName : Bool) (s : State) : State :=
  let n := takeFree s
  if noName then endCommand (1 + Config.pickReason n.1 % 10) n.2
  else endCommand (l.getD (Config.pickReason n.1 % l.length) mbState) n.2

/-- A signed command: refused with no effect where a check fails, otherwise its effect. -/
def runCommand (c : SignedCommand) (fails : List Nat) (update : Bool) (f : State → State) (s : State) : State :=
  if unnamed c update s ∨ !fails.isEmpty then failCommand fails (unnamed c update s) s else f (endCommand mbOk s)

/-! ## Life-cycle transitions (R381) -/

/-- A transition: the fused count rises, the state changes, the keys change, every tier is wiped and a cold reset follows. -/
def enterState (target : LifeCycle) (keys : Security → Security) (s : State) : State :=
  let c := s.security
  requestCold .register { s with security := keys { c with state := target, count := c.count + 1 } }

/-- A life-cycle command from the states listed. -/
def transition (sources : List LifeCycle) (target : LifeCycle) (signed : Bool) (keys : Security → Security) (c : SignedCommand)
    (s : State) : State :=
  runCommand c (recordFailures c signed s ++ stateFailures sources (decide (target = .retired)) s ++ busyFailures s) false
    (enterState target keys) s

/-- No package key is left. -/
def dropKeys (c : Security) : Security := { c with enrolled := [], enrolling := [] }

/-- The pair of package keys in a payload. -/
def packagePair (payload : List Byte) : KeyPair := { rsa := Config.payloadKey payload 2, slh := Config.payloadKey payload 3 }

/-- PROVISION enrols the ownership keys and one package key pair. -/
def takeOwnership (payload : List Byte) (c : Security) : Security :=
  { c with owner := some { rsa := Config.payloadKey payload 0, slh := Config.payloadKey payload 1 }, enrolled := [packagePair payload], enrolling := [] }

def execProvision (c : SignedCommand) (s : State) : Host.Outcome State Fault Refusal :=
  run (.provision c) s (whenAnswering (transition [.blank] .provisioned c.signedByOwner (takeOwnership c.payload) c))

def execActivate (c : SignedCommand) (s : State) : Host.Outcome State Fault Refusal :=
  run (.activate c) s (whenAnswering (transition [.provisioned] .operational c.signedByOwner id c))

def execDeactivate (c : SignedCommand) (s : State) : Host.Outcome State Fault Refusal :=
  run (.deactivate c) s (whenAnswering (transition [.operational] .provisioned c.signedByOwner dropKeys c))

def execDebugEnter (c : SignedCommand) (s : State) : Host.Outcome State Fault Refusal :=
  run (.debugEnter c) s (whenAnswering (transition [.provisioned, .operational] .debug (c.signedByOwner && c.signedByZuloth) id c))

def execDebugExit (c : SignedCommand) (s : State) : Host.Outcome State Fault Refusal :=
  run (.debugExit c) s (whenAnswering (transition [.debug] .provisioned c.signedByOwner id c))

/-- RMA_ENTER erases the ownership and package keys. -/
def execRmaEnter (c : SignedCommand) (s : State) : Host.Outcome State Fault Refusal :=
  run (.rmaEnter c) s (whenAnswering (transition [.provisioned, .operational, .debug] .rma (c.signedByOwner && c.signedByZuloth)
    (fun k => { dropKeys k with owner := none }) c))

def execRmaExit (c : SignedCommand) (s : State) : Host.Outcome State Fault Refusal :=
  run (.rmaExit c) s (whenAnswering (transition [.rma] .blank c.signedByZuloth id c))

/-- The signer of RETIRE: the ownership keys, in BLANK or RMA Zuloth. -/
def retireSigned (c : SignedCommand) (s : State) : Bool :=
  if s.security.state = .blank ∨ s.security.state = .rma then c.signedByZuloth else c.signedByOwner

/-- RETIRE makes the device secret unreadable and destroys the ownership keys. -/
def retire (c : SignedCommand) (s : State) : State :=
  transition [.blank, .provisioned, .operational, .debug, .rma] .retired (retireSigned c s) (fun k => { k with secret := false, owner := none }) c s

def execRetire (c : SignedCommand) (s : State) : Host.Outcome State Fault Refusal := run (.retire c) s (whenAnswering (retire c))

/-! ## Keys and firmware -/

/-- Key pairs enrolled or about to be. -/
def pairsHeld (c : Security) : Nat := c.enrolled.length + (c.enrolling.filter Prod.fst).length

/-- ENROLL: the pair comes into force at the next boundary; a ninth is refused. -/
def enroll (c : SignedCommand) (s : State) : State :=
  runCommand c (recordFailures c c.signedByOwner s ++ stateFailures [.provisioned, .operational] false s ++ (if 8 ≤ pairsHeld s.security then [mbFull] else [])) false
    (fun s => { s with security := { s.security with enrolling := s.security.enrolling ++ [(true, packagePair c.payload)] } }) s

def execEnroll (c : SignedCommand) (s : State) : Host.Outcome State Fault Refusal := run (.enroll c) s (whenAnswering (enroll c))

/-- REVOKE: the pair leaves at the next boundary; resident packages stay. -/
def revoke (c : SignedCommand) (s : State) : State :=
  runCommand c (recordFailures c c.signedByOwner s ++ stateFailures [.provisioned, .operational] false s) false
    (fun s => { s with security := { s.security with enrolling := s.security.enrolling ++ [(false, packagePair c.payload)] } }) s

def execRevoke (c : SignedCommand) (s : State) : Host.Outcome State Fault Refusal := run (.revoke c) s (whenAnswering (revoke c))

/-- A bundle written into a bank. -/
def writeBank (b : Nat) (x : FwBundle) (s : State) : State :=
  { s with security := if b = 0 then { s.security with bank0 := x } else { s.security with bank1 := x } }

/-- The bank that did not boot; in BOOT_FAIL the one BOOT_BANK does not name (log 27). -/
def otherBank (s : State) : Nat := if s.boot.phase = .bootFail then 1 - s.security.bootBank else 1 - s.security.booted

/-- FW_UPDATE (R383): the bundle is written, verified there, and BOOT_BANK names it only if every image passes. -/
def updateFirmware (c : SignedCommand) (x : FwBundle) (s : State) : State :=
  let fails := recordFailures c c.signedByOwner s ++ stateFailures [.blank, .provisioned, .operational, .debug, .rma] false s
  let b := otherBank s
  if unnamed c true s ∨ !fails.isEmpty then failCommand fails (unnamed c true s) s
  else
    let s := writeBank b x s
    if bundleOk s.security.minSvn x then endCommand mbOk { s with security := { s.security with bootBank := b } }
    else endCommand mbBundle s

/-- FW_UPDATE; in BOOT_FAIL the boot that BOOT_BANK now names follows at once (R383, R401). -/
def takeUpdate (c : SignedCommand) (x : FwBundle) (s : State) : State :=
  let r := updateFirmware c x s
  if s.boot.phase = .bootFail ∧ r.security.reason = mbOk then coldReset .bootFail r else r

def execFwUpdate (c : SignedCommand) (bundle : FwBundle) (s : State) : Host.Outcome State Fault Refusal :=
  run (.fwUpdate c bundle) s (whenAnswering (takeUpdate c bundle))

/-- The security version of the running firmware: the least of its three images (log 27). -/
def runningSvn (c : Security) : Nat :=
  let b := flashBank c c.booted
  min b.security.svn (min b.control.svn b.training.svn)

/-- COMMIT_SVN raises the fused minimum. -/
def commitVersion (c : SignedCommand) (s : State) : State :=
  runCommand c (recordFailures c c.signedByOwner s ++ stateFailures [.provisioned, .operational] false s) false
    (fun s => { s with security := { s.security with minSvn := max s.security.minSvn (runningSvn s.security) } }) s

def execCommitSvn (c : SignedCommand) (s : State) : Host.Outcome State Fault Refusal :=
  run (.commitSvn c) s (whenAnswering (commitVersion c))

end Sys2Proof.Machine
end

