-- ==== Sys2Proof/Machine/Registers.lean ====
section
/-! DEFINITION. Register writes (R415 to R417, R428 to R441, R457, R458): the refusal test of every field, what a
field that passes does, writes of one word, of a 64-bit field and of its halves; the registers that have a command of
their own. -/

namespace Sys2Proof.Machine

/-! ## Writes with an effect of their own -/

/-- REMOVE_REQ written 1 (R411): accepted while every context is FREE. -/
def requestRemoval (s : State) : State :=
  if s.ctxs.any fun c => !decide (c.2.state = .free) then refuseWrite .pf 0x28 4 s
  else { s with boot := { s.boot with removing := true } }

def execRemoveReq (s : State) : Host.Outcome State Fault Refusal := run .removeReq s (whenAnswering requestRemoval)

/-- SEAL_SET (R416): a 1 seals, a 0 leaves. -/
def setSeals (bits : BitVec 6) (s : State) : State := { s with seals := s.seals ||| bits }

def execSealSet (bits : BitVec 6) (s : State) : Host.Outcome State Fault Refusal := run (.sealSet bits) s (whenAnswering (setSeals bits))

/-- A latch captures device time (R347). -/
def captureInto (s : State) (x : Latch) : Latch :=
  { ns := nsOf s.now % 2 ^ 64, frac := s.now % 65536, count := (x.count + 1) % 2 ^ 32, locked := s.clock.timeLocked }

/-- The PF's pair of the time block. -/
def captureTime (bits : BitVec 2) (s : State) : State :=
  let x := s.clock
  { s with clock := { x with latch0 := if bits.getLsbD 0 then captureInto s x.latch0 else x.latch0, latch1 := if bits.getLsbD 1 then captureInto s x.latch1 else x.latch1 } }

/-- The pair of a tenant block. -/
def captureTenant (t : Nat) (bits : BitVec 2) (s : State) : State :=
  let n := captureInto s
  modTenant t (fun x => { x with latch0 := if bits.getLsbD 0 then n x.latch0 else x.latch0, latch1 := if bits.getLsbD 1 then n x.latch1 else x.latch1 }) s

/-- A word of a vector's table entry written (R437). -/
def setMsixWord (k v : Nat) (e : MsixVector) : MsixVector :=
  let a := e.address.toNat
  if k = 0 then { e with address := BitVec.ofNat 64 (a / 2 ^ 32 * 2 ^ 32 + v) }
  else if k = 1 then { e with address := BitVec.ofNat 64 (a % 2 ^ 32 + v * 2 ^ 32) }
  else if k = 2 then { e with data := BitVec.ofNat 32 v }
  else { e with masked := bitOf v 0 }

/-- Four bytes of RA_DATA. -/
def setRaData (o v : Nat) (s : State) : State :=
  let d := s.junction.raData
  let all := (List.range 4096).map fun i => if o ≤ i ∧ i < o + 4 then BitVec.ofNat 8 (v / 2 ^ (8 * (i - o))) else d.getD i 0
  { s with junction := { s.junction with raData := all } }

/-- A unit whose configuration is written restarts at the next boundary (R426). -/
def markUnit (u : Nat) (s : State) : State := { s with ckus := fmModify s.ckus u freshCku fun x => { x with written := true } }

/-- The CMD field of the sluice block (R424). -/
def sluiceCmd (v block : Nat) (s : State) : State :=
  if v = 1 then queueSluice .seal block s
  else if v = 2 then queueSluice .unseal block s
  else if v = 3 then queueSluice .release block s
  else s

/-! ## Refusals -/

/-- The fields of a tenant block that the provider writes (Table 18-1). -/
def providerField (o : Nat) : Bool := decide (o = 0x10) || decide (o = 0x18) || (decide (0x2000 ≤ o) && decide (o < 0x2200))

/-- Table 18-1: 9 and 10 for a path that may not write, 0 otherwise. -/
def pathKind (path : RegPath) (t o : Nat) : Nat :=
  match path with
  | .pf => if t ≠ 0 ∧ !(providerField o) then 10 else 0
  | .vf _ => if providerField o then 9 else 0

/-- PASID and the windows stay while a queue pair is in use (R431). -/
def windowsLocked (s : State) (t : Nat) : Bool := (List.range 16).any fun q => qpInUse (s.qp t q)

/-- The refusals of a field of a tenant block, after its path (R429 to R435). -/
def tenantKind (s : State) (t o lsb v : Nat) (k : RegKind) : Nat :=
  let q := (o - 0x100) / 0x100
  let r := o % 0x100
  let inQp := decide (0x100 ≤ o) && decide (o < 0x1100)
  if (s.tenant t).resetPending && !(inQp && decide (r = 0x28) && decide (v = 1)) then 11
  else if (match k with
    | .rwl _ => (s.tenant t).sealed
    | _ => false) then 1
  else if decide (k = .rwl 6) && windowsLocked s t then 8
  else if inQp && (decide (r < 0x20) || (decide (r = 0x20) && decide (lsb = 0))) && !decide ((s.qp t q).state = .disabled) then 8
  else if inQp && decide (r = 0x28) && decide (v = 1) && decide ((s.qp t q).state = .stopping) then 8
  else if inQp && decide (r = 0x20) && decide (lsb = 16) && (decide (v = 0) || decide (1000 < v)) then 7
  else if decide (0x3100 ≤ o) && decide (o < 0x3200) && decide (lsb = 0) && (decide (v = 0) || decide (256 < v)) then 7
  else if decide (0x2000 ≤ o) && decide (o < 0x2200) && decide (o % 0x40 < 0x10) &&
      (decide (v % 4096 ≠ 0) || decide (2 ^ 64 < v + s.reg (tenantBase t + (if o % 0x40 = 0 then o + 8 else o - 8)) 0 0)) then 7
  else 0

/-- A HOST_LIMIT that moves a block that is not UNMAPPED to the other region (R425). -/
def movesBlock (s : State) (limit : Nat) : Bool :=
  s.blocks.any fun b => !decide (b.2.state = .unmapped) && (decide (b.1 < limit) != decide (b.1 < hostLimit s))

/-- The refusals of the junction block after its seal (R439, R440); `w` is the word written. -/
def junctionKind (s : State) (o lsb v w : Nat) : Nat :=
  if o = 0 ∨ o = 4 then (if s.ports.any fun p => !decide (p.2.state = .down) then 8 else 0)
  else if o = 0x20 then (if s.junction.role = .manager then 8 else 0)
  else if o = 0x24 then (if v = 0 then 7 else 0)
  else if o = 0x28 then
    (if v = 1 ∧ s.junction.role = .standalone ∧ s.seals.getLsbD 5 ∧ !s.anyLive then 0
     else if v = 2 ∧ s.junction.role = .manager ∧ s.junction.members.isEmpty ∧ !(groupLive s) then 0
     else 8)
  else if 0x3000 ≤ o ∧ o < 0x3040 then (if (s.slot ((o - 0x3000) / 4)).state = .empty then 0 else 8)
  else if 0x4000 ≤ o ∧ o < 0x6000 then
    (if s.junction.raBusy then 8
     else if o = 0x4008 ∧ lsb = 16 ∧ (v < 64 ∨ 4096 < v ∨ (v % 64 ≠ 0 ∧ w % 4 ≠ 3)) then 7
     else 0)
  else 0

/-- The kind with which a field of PF BAR0 that a write changes is refused, 0 where it passes: the path, the reset in
progress, the seal, the state of what it belongs to, the value (R416, R425, R426, R430, R439). -/
def fieldKind (path : RegPath) (a lsb v w : Nat) (k : RegKind) (s : State) : Nat :=
  if inTenant a then
    let p := pathKind path (tenantOf a) (a % 0x10000)
    if p ≠ 0 then p else tenantKind s (tenantOf a) (a % 0x10000) lsb v k
  else if sealedNow s a k then 1
  else if a = 0x28 ∧ lsb = 2 then (if v = 1 ∧ (s.ctxs.any fun c => !decide (c.2.state = .free)) then 4 else 0)
  else if a = 0x40 then (if v < 256 ∨ 4096 < v ∨ v % 256 ≠ 0 then 7 else 0)
  else if a = 0x54 ∧ lsb = 0 then (if v = 3 then 7 else 0)
  else if a = timeBase + 0x28 then (if !(ownTime s) then 8 else if s.anyLive then 3 else 0)
  else if 0x300000 ≤ a ∧ a < 0x308000 ∧ a % 0x1000 = 4 then
    (if v = 1 ∧ (s.port (a / 0x1000 % 8)).state = .down then 8 else 0)
  else if junctionBase ≤ a ∧ a < junctionBase + 0x10000 then junctionKind s (a - junctionBase) lsb v w
  else if a = sluiceBase then (if v = 0 ∨ 2097151 < v then 7 else if movesBlock s v then 6 else 0)
  else if a = sluiceBase + 8 then (if 98304 < v then 7 else 0)
  else if 0x501000 ≤ a ∧ a < 0x505000 then
    (if (a - 0x501000) / 0x100 % 16 < 4 then 5
     else if a % 0x100 = 0 ∧ ((lsb = 0 ∧ v = 3) ∨ (lsb = 8 ∧ (v < 8 ∨ 64 < v))) then 7
     else 0)
  else if 0x600000 ≤ a ∧ a < 0x602000 ∧ a % 0x20 = 4 then (if v < 4096 then 7 else 0)
  else 0

/-! ## Effects -/

/-- A field of a tenant block that passes. -/
def applyTenant (path : RegPath) (a lsb v : Nat) (s : State) : State :=
  let t := tenantOf a
  let o := a % 0x10000
  if o = 0x18 then (if v = 1 then modTenant t (fun x => { x with sealed := true }) s else s)
  else if o = 0x80 then captureTenant t (BitVec.ofNat 2 v) s
  else if 0x100 ≤ o ∧ o < 0x1100 ∧ o % 0x100 = 0x28 then
    (if v = 1 then enableQp path t ((o - 0x100) / 0x100) s else disableQp path t ((o - 0x100) / 0x100) s)
  else if 0x3100 ≤ o ∧ o < 0x3200 then
    let n := (o - 0x3100) / 4
    let s := setReg a lsb v s
    if moderationMet s t n then fireVector t n s else s
  else if inMsix a then sendOwed t (modVector t (o / 16 % 64) (setMsixWord (o % 16 / 4) v) s)
  else setReg a lsb v s

/-- A field of the junction block that passes. -/
def applyJunction (a lsb v : Nat) (s : State) : State :=
  let o := a - junctionBase
  if o = 0x28 then (if v = 1 then becomeManager s else leaveManager s)
  else if o = 0x400C then (if v = 1 then goRa s else s)
  else if inRaData a then setRaData (o - 0x5000) v s
  else setReg a lsb v s

/-- The WO fields of the global word at 0x28, each by its bit. -/
def applyGlobal (lsb v : Nat) (s : State) : State :=
  if v ≠ 1 then s
  else if lsb = 0 then requestCold .register s
  else if lsb = 1 then requestWarm false s
  else if lsb = 2 then requestRemoval s
  else releaseDump s

/-- A field of PF BAR0 that passes its tests takes effect; `block` is CMD_BLOCK as the write leaves it. -/
def applyField (path : RegPath) (a lsb v block : Nat) (s : State) : State :=
  if inTenant a then applyTenant path a lsb v s
  else if a = 0x28 then applyGlobal lsb v s
  else if a = 0x30 then setSeals (BitVec.ofNat 6 v) s
  else if a = timeBase + 4 ∧ lsb = 1 then setReg a lsb v { s with clock := { s.clock with refLocked := false } }
  else if a = timeBase + 0x28 then setTime v s
  else if a = timeBase + 0x40 then captureTime (BitVec.ofNat 2 v) s
  else if a = powerBase + 4 then setReg a lsb (max 1000 (min 2600 v)) s
  else if a = 0x3000C then (if v = 1 then { s with security := { s.security with busy := true } } else s)
  else if 0x300000 ≤ a ∧ a < 0x308000 then
    let p := a / 0x1000 % 8
    if a % 0x1000 = 4 then (if v = 1 then retrainPort p s else s)
    else if v = 1 then
      let n := takeFree s
      enablePort p (Config.cableOk n.1) n.2
    else disablePort p s
  else if junctionBase ≤ a ∧ a < junctionBase + 0x10000 then applyJunction a lsb v s
  else if a = sluiceBase + 0x10 then sluiceCmd v block s
  else if 0x501000 ≤ a ∧ a < 0x505000 then markUnit ((a - 0x501000) / 0x100) (setReg a lsb v s)
  else setReg a lsb v s

/-! ## A write (R415, R458) -/

/-- One field a write covers, with the value written to it: address, field, value, the word. -/
structure Covered where
  addr : Nat
  field : RegField
  value : Nat
  word : Nat
  deriving DecidableEq, Repr

/-- The fields of a 32-bit word that a value covers. -/
def coverWord (a w : Nat) : List Covered :=
  (fieldsAt a).map fun f => { addr := a, field := f, value := bitsOf w f.lsb f.width, word := w }

/-- A whole 64-bit field with a value. -/
def coverWide (a v : Nat) : List Covered :=
  match wideAt a with
  | some x => [{ addr := a, field := { lsb := 0, width := 64, reset := x.1, kind := x.2 }, value := v, word := v }]
  | none => []

/-- The fields and values a well-sized write covers; an upper half completes its field with the lower half held, or
with the present one (log 26). -/
def coverWrite (s : State) (a size v : Nat) : List Covered :=
  if size = 8 then
    (if (wideAt a).isSome then coverWide a v else coverWord a (v % 2 ^ 32) ++ coverWord (a + 4) (v / 2 ^ 32))
  else if a % 8 = 4 ∧ (wideAt (a - 4)).isSome then
    let now := s.reg (a - 4) 0 (((wideAt (a - 4)).map Prod.fst).getD 0)
    coverWide (a - 4) (fmGet s.halves (fieldKey (a - 4) 0) (now % 2 ^ 32) % 2 ^ 32 + v % 2 ^ 32 * 2 ^ 32)
  else coverWord a (v % 2 ^ 32)

/-- The mailbox fields that take nothing while a command is checked or run (R423). -/
def mailboxClosed (s : State) (a : Nat) : Bool :=
  s.security.busy && decide (0x30000 ≤ a) && decide (a < 0x40000) && !decide (a = 0x30040)

/-- A field counts as written: a WO field always, any other where its value changes. -/
def counts (s : State) (c : Covered) : Bool :=
  !(mailboxClosed s c.addr) && (decide (c.field.kind = .wo) || decide (fieldNow s c.addr c.field ≠ c.value))

/-- The kind recorded for a write: that of the refused field at the lowest bit. -/
def lowestRefusal (l : List (Covered × Nat)) : Option Nat :=
  (leastBy (fun x y => decide (x.1.addr * 8 + x.1.field.lsb < y.1.addr * 8 + y.1.field.lsb)) (l.filter fun x => decide (x.2 ≠ 0))).map Prod.snd

/-- CMD_BLOCK after a write: its value where the write covers it, else the one last written. -/
def cmdBlock (s : State) (l : List Covered) : Nat :=
  ((l.find? fun c => decide (c.addr = sluiceBase + 0x14)).map Covered.value).getD (s.reg (sluiceBase + 0x14) 0 0)

/-- A write of 4 or 8 aligned bytes, field by field: every field tested on the state the write finds; the refusal
recorded at the path's offset; what passes takes effect. -/
def writeFields (path : RegPath) (off a size v : Nat) (s : State) : State :=
  let l := (coverWrite s a size v).filter (counts s)
  let tested := l.map fun c => (c, fieldKind path c.addr c.field.lsb c.value c.word c.field.kind s)
  let block := cmdBlock s l
  let s := { s with halves := fmErase s.halves (fieldKey (a - a % 8) 0) }
  let s := match lowestRefusal tested with
    | some k => refuseWrite path off k s
    | none => s
  forEach (tested.filter fun x => decide (x.2 = 0)) (fun x => applyField path x.1.addr x.1.field.lsb x.1.value block) s

/-- The lower half of a 64-bit field is held until the upper half is written (R415). -/
def holdsHalf (a size : Nat) : Bool := decide (size = 4) && a % 8 == 0 && (wideAt a).isSome

/-- A path that may write a field by Table 18-1. -/
def pathAllows (path : RegPath) (a : Nat) : Bool := !(inTenant a) || decide (pathKind path (tenantOf a) (a % 0x10000) = 0)

/-- A register write on a path at an offset of BAR0. -/
def writeRegister (path : RegPath) (off size v : Nat) (s : State) : State :=
  let a := match path with
    | .pf => off
    | .vf t => tenantBase t + off
  if (size ≠ 4 ∧ size ≠ 8) ∨ off % size ≠ 0 then refuseWrite path off 2 s
  else if holdsHalf a size then
    (if pathAllows path a && !(mailboxClosed s a) then { s with halves := fmSet s.halves (fieldKey a 0) (v % 2 ^ 32) } else s)
  else writeFields path off a size v s

/-- The global block and the security mailbox, which BOOT_FAIL and RETIRED leave exposed (R379, R382). -/
def alwaysExposed (path : RegPath) (off : Nat) : Bool :=
  match path with
  | .pf => decide (off < 0x10000) || (decide (0x30000 ≤ off) && decide (off < 0x40000))
  | .vf _ => false

def hostWriteRegister (path : RegPath) (off size v : Nat) (s : State) : State :=
  if s.exposed || alwaysExposed path off then writeRegister path off size v s else s

def execRegisterWrite (path : RegPath) (offset size : Nat) (value : Word64) (s : State) : Host.Outcome State Fault Refusal :=
  run (.registerWrite path offset size value) s (whenAnswering (hostWriteRegister path offset size value.toNat))

/-! ## Registers with a command of their own -/

/-- A word of a tenant block written on a path that reaches it. -/
def writeTenantWord (path : RegPath) (t o v : Nat) (s : State) : State :=
  if pathReaches path t then writeRegister path (pathOffset path t o) 4 v s else s

/-- MOD_COUNT and MOD_TIME of a vector (R435). -/
def execModerationWrite (path : RegPath) (tenant vector count time : Nat) (s : State) : Host.Outcome State Fault Refusal :=
  run (.moderationWrite path tenant vector count time) s
    (whenExposed (writeTenantWord path tenant (0x3100 + 4 * vector) (count % 2 ^ 9 + time % 2 ^ 10 * 2 ^ 16)))

/-- TENANT_SEAL written 1 (R429). -/
def execTenantSeal (path : RegPath) (tenant : Nat) (s : State) : Host.Outcome State Fault Refusal :=
  run (.tenantSeal path tenant) s (whenExposed (writeTenantWord path tenant 0x18 1))

/-- CAPTURE of the time block or of a tenant block (R347). -/
def capture (path : RegPath) (time : Bool) (t : Nat) (bits : BitVec 2) (s : State) : State :=
  if time then (if path = .pf then writeRegister .pf (timeBase + 0x40) 4 bits.toNat s else s)
  else writeTenantWord path t 0x80 bits.toNat s

def execLatchCapture (path : RegPath) (time : Bool) (tenant : Nat) (latches : BitVec 2) (s : State) : Host.Outcome State Fault Refusal :=
  run (.latchCapture path time tenant latches) s (whenExposed (capture path time tenant latches))

/-- A vector's oldest event has waited its time threshold (R50). -/
def execVectorTimeThreshold (tenant vector : Nat) (s : State) : Host.Outcome State Fault Refusal :=
  run (.vectorTimeThreshold tenant vector) s (whenServing fun s =>
    if moderationMet s tenant vector then fireVector tenant vector s else s)

/-- A change of the capability or of a table entry by the function itself (R437, R457): a message owed is sent once it can
be; an entry of a tenant being reset is refused. -/
def changeMsix (t : Nat) (c : MsixChange) (s : State) : State :=
  match c with
  | .capability enable mask => sendOwed t (modTenant t (fun x => { x with msixEnable := enable, functionMask := mask }) s)
  | .entry v address data masked =>
    let path : RegPath := if t = 0 then .pf else .vf t
    if (s.tenant t).resetPending then refuseWrite path (pathOffset path t (0x8000 + 16 * v)) 11 s
    else sendOwed t (modVector t v (fun e => { e with address := address, data := data, masked := masked }) s)

def execMsixUnmask (tenant : Nat) (change : MsixChange) (s : State) : Host.Outcome State Fault Refusal :=
  run (.msixUnmask tenant change) s (whenExposed (changeMsix tenant change))

end Sys2Proof.Machine
end

