-- ==== Sys2Proof/Machine/Readout.lean ====
section
/-! DEFINITION. Register reads (chapters 17 and 18): the word that an offset of BAR0 reads as. A read changes
nothing (R10). -/

namespace Sys2Proof.Machine

/-- The lower or the upper half of a 64-bit value: the half of the word at an address. -/
def halfOf (v a : Nat) : Nat := if a % 8 = 0 then v % 2 ^ 32 else v / 2 ^ 32 % 2 ^ 32

/-- A little-endian word of four bytes given by a function of their place. -/
def wordOf (f : Nat → Nat) : Nat := f 0 % 256 + f 1 % 256 * 2 ^ 8 + f 2 % 256 * 2 ^ 16 + f 3 % 256 * 2 ^ 24

/-- Word `k` of a list of bytes. -/
def wordAt (l : List Byte) (k : Nat) : Nat := wordOf fun i => (l.getD (4 * k + i) 0).toNat

/-! ## Fault logs (R420) -/

/-- The entry at an index of a ring of 256: the latest whose count falls there. -/
def ringAt (count : Nat) (l : List FaultEntry) (i : Nat) : List Byte :=
  let k := (count + 255 - i) % 256
  if k < count then ((l[k]?).map entryBytes).getD [] else []

/-! ## Global block (Tables 17-2, 17-3) -/

/-- BOOT_STAGE. -/
def bootStage (s : State) : Nat :=
  match s.boot.phase with
  | .training => 3
  | .wiping => 4
  | .ready => 5
  | .off | .held | .bootFail => 0

/-- The status word at 0x0010. -/
def statusWord (s : State) : Nat :=
  bit (decide (s.boot.phase = .ready)) + 2 * bit s.boot.wipeDone + 4 * bit (decide (s.boot.phase = .bootFail)) + 8 * bit s.faults.fatal +
    16 * bit s.faults.dumpDone + 32 * bit s.faults.dumpInReserve + 64 * bit s.faults.sparesLow + 128 * bit s.boot.latchOpen +
    256 * bit s.boot.removeReady + 4096 * bootStage s

/-- The cause word at 0x0014. -/
def causeWord (s : State) : Nat := s.faults.cause % 2 ^ 16 + s.faults.fatalDomain % 2 ^ 8 * 2 ^ 16

/-- SPARE_LEFT and SPARE_USED of the selected instance. -/
def spareSelected (s : State) : Option (Nat × Nat) := sparesOf s (s.reg 0x70 0 0) (s.reg 0x70 8 0) (s.reg 0x70 16 0) (s.reg 0x74 0 0)

/-- Fewest spares left in any instance of a class. -/
def sumLeft (s : State) (cls : Nat) : Nat :=
  ((leastBy (fun a b => decide (a < b)) ((spareInstances cls).map fun x => ((sparesOf s cls x.1 x.2.1 x.2.2).getD (0, 0)).1))).getD 0

/-- A byte of the dump window (R421). -/
def dumpByte (s : State) (o : Nat) : Nat :=
  let d := (s.faults.dump.map Dump.complete).getD true
  if s.faults.dumpInReserve && d then ((s.faults.reserve.getD (s.reg 0x110 0 0 * 4096 + o) 0)).toNat else 0

/-- A slot's identity fields, shown while it is READY or DEGRADED (R422). -/
def slotWord (s : State) (k o : Nat) : Nat :=
  let x := s.slot k
  let p := if x.state = .ready ∨ x.state = .degraded then x.package else none
  if o = 0 then slotCode x.state
  else if 0x10 ≤ o ∧ o < 0x20 then (p.map fun p => p.modelId.toNat / 2 ^ (8 * (o - 0x10)) % 2 ^ 32).getD 0
  else if 0x20 ≤ o ∧ o < 0x50 then (p.map fun p => p.hash.toNat / 2 ^ (8 * (o - 0x20)) % 2 ^ 32).getD 0
  else if 0x80 ≤ o then (p.map fun p => ((p.templates[(o - 0x80) / 4]?).map Template.nominal).getD 0).getD 0
  else 0

/-- The RO part of a word of the global block. -/
def globalWord (s : State) (o : Nat) : Nat :=
  if 0xF000 ≤ o then wordOf fun i => dumpByte s (o - 0xF000 + i)
  else if 0x8000 ≤ o ∧ o < 0xA000 then wordAt (ringAt s.faults.logCount s.faults.log ((o - 0x8000) / 0x20)) (o % 0x20 / 4)
  else if 0x1000 ≤ o ∧ o < 0x2000 then slotWord s ((o - 0x1000) / 0x100) (o % 0x100)
  else if 0x80 ≤ o ∧ o < 0xA8 then sumLeft s ((o - 0x80) / 4) + lowInstances s ((o - 0x80) / 4) * 2 ^ 16
  else
    match o with
    | 0x00 => 9 + bit s.security.gradeS * 2 ^ 8 + s.tplMin * 2 ^ 16 + s.tplMax * 2 ^ 24
    | 0x08 | 0x0C => halfOf s.fwVersion.toNat o
    | 0x10 => statusWord s
    | 0x14 => causeWord s
    | 0x18 | 0x1C => halfOf s.stepCounter o
    | 0x20 => s.faults.mapGen
    | 0x24 => s.boot.linkWidth + s.boot.linkRate * 2 ^ 4
    | 0x34 => s.seals.toNat
    | 0x38 => s.refusedCount
    | 0x3C => s.refusedAddr % 2 ^ 26 + s.refusedKind * 2 ^ 28
    | 0x60 => s.loadReason
    | 0x64 => s.loadCmdId
    | 0x68 | 0x6C => halfOf s.loadOffset o
    | 0x78 => if s.boot.phase = .training then 0 else ((spareSelected s).map fun x => x.1 + x.2 * 2 ^ 16).getD 0
    | 0x7C => bit (spareSelected s).isSome
    | 0x120 => s.faults.logCount % 2 ^ 32
    | _ => 0

/-! ## Time, power and security blocks (Tables 13-1, 17-4 to 17-6) -/

/-- A word of a latch pair. -/
def latchWord (x y : Latch) (o : Nat) : Nat :=
  let counts (l : Latch) : Nat := l.frac + l.count * 2 ^ 16 + bit l.locked * 2 ^ 48
  match o with
  | 0x08 | 0x0C => halfOf x.ns o
  | 0x10 | 0x14 => halfOf (counts x) o
  | 0x18 | 0x1C => halfOf y.ns o
  | 0x20 | 0x24 => halfOf (counts y) o
  | _ => 0

def timeWord (s : State) (o : Nat) : Nat :=
  let c := s.clock
  if 0x40 ≤ o ∧ o < 0x68 then latchWord c.latch0 c.latch1 (o - 0x40)
  else
    match o with
    | 0x00 => bit c.refLocked + 2 * bit c.timeLocked + 4 * bit c.refPresent
    | 0x08 | 0x0C => halfOf c.increment o
    | 0x10 => unsignedOf c.steer 32
    | 0x14 => c.refLoss
    | 0x18 | 0x1C => halfOf (unsignedOf c.theta 64) o
    | 0x20 => c.timeFails
    | _ => 0

def powerWord (s : State) (o : Nat) : Nat :=
  let p := s.power
  if 0x100 ≤ o ∧ o < 0x168 then
    let k := (o - 0x100) / 4
    fmGet p.phaseCurrent k 0 % 2 ^ 16 * bit (!(p.shed.contains k)) + fmGet p.phaseTemp k 0 % 2 ^ 16 * 2 ^ 16
  else if 0x200 ≤ o ∧ o < 0x218 then
    let r := (o - 0x200) / 2
    fmGet p.rail r 0 % 2 ^ 16 + fmGet p.rail (r + 1) 0 % 2 ^ 16 * 2 ^ 16
  else
    match o with
    | 0x00 => bit p.warn + phasesOf s * 2 ^ 8
    | 0x08 => p.bmcLimit
    | 0x0C => p.effective
    | 0x10 => p.level + p.pace * 2 ^ 16
    | 0x14 => p.interruptions
    | 0x18 => p.vin % 2 ^ 16
    | 0x1C => p.iin % 2 ^ 32
    | 0x20 => p.pin % 2 ^ 32
    | 0x24 => p.pavg % 2 ^ 32
    | 0x28 | 0x2C => halfOf p.energy o
    | 0x30 => p.coolantIn % 2 ^ 16 + p.coolantOut % 2 ^ 16 * 2 ^ 16
    | _ => 0

def mailboxWord (s : State) (o : Nat) : Nat :=
  let c := s.security
  if 0x10 ≤ o ∧ o < 0x30 then c.nonce.toNat / 2 ^ (8 * (o - 0x10)) % 2 ^ 32
  else if 0x80 ≤ o ∧ o < 0x100 then
    match c.enrolled[(o - 0x80) / 16]? with
    | some k => halfOf (if o % 16 < 8 then k.rsa.toNat else k.slh.toNat) o
    | none => 0
  else
    match o with
    | 0x00 => stateCode c.state + c.count * 2 ^ 8 + c.minSvn * 2 ^ 16
    | 0x04 => c.bootBank + 2 * c.booted
    | 0x08 => bit c.busy + c.reason * 2 ^ 8
    | _ => 0

/-! ## Quadrants, layers and channels (Tables 17-7 to 17-9) -/

/-- Bit `j` of a quadrant's bond spares. -/
def bondBit (s : State) (q j : Nat) : Nat := bit (s.faults.bondSpares.contains (q, j))

/-- Signed 16-bit readings, two in a word. -/
def pairOf (a b : Int) : Nat := unsignedOf a 16 + unsignedOf b 16 * 2 ^ 16

def quadWord (s : State) (q o : Nat) : Nat :=
  let f := s.faults
  if 0x100 ≤ o ∧ o < 0x164 then wordOf fun i => tileState s q false (o - 0x100 + i)
  else if 0x200 ≤ o ∧ o < 0x2A8 then wordOf fun i => tileState s q true (o - 0x200 + i)
  else if 0x300 ≤ o ∧ o < 0x320 then
    let k := q * 16 + (o - 0x300) / 2
    pairOf (fmGet s.power.dieTemp k 0) (fmGet s.power.dieTemp (k + 1) 0)
  else if 0x400 ≤ o ∧ o < 0x450 then sumOf ((List.range 32).map fun i => bondBit s q ((o - 0x400) * 8 + i) * 2 ^ i)
  else if 0x10000 ≤ o ∧ o < 0x12000 then wordAt (ringAt (fmGet f.quadCount q 0) (fmGet f.quadLog q []) ((o - 0x10000) / 0x20)) (o % 0x20 / 4)
  else
    match o with
    | 0x00 =>
      bit (f.daPrompt.getD q false) + 2 * bit (f.domains.any fun d => d.id.code == 7 && d.id.quad == q && d.state == 1) + daActive s q * 2 ^ 8 +
        paActive s q * 2 ^ 16
    | 0x08 => fmGet f.nonfiniteKv q 0 % 2 ^ 32
    | 0x0C => fmGet f.nonfiniteLogit q 0 % 2 ^ 32
    | 0x10 => fmGet f.substitutions q 0 % 2 ^ 32
    | 0x18 | 0x1C => halfOf (fmGet f.heldSlots q 0) o
    | 0x20 => fmGet f.timingFaults q 0 % 2 ^ 32
    | 0x28 => (fmGet s.atomicCache q []).length
    | 0x30 => fmGet f.quadCount q 0 % 2 ^ 32
    | _ => 0

/-- Command-path spares in service of a layer in a direction: groups 0 to 15 toward the layer, 16 to 31 toward the die. -/
def cmdSpares (s : State) (q l : Nat) (up : Bool) : Nat :=
  (s.faults.cmdSpares.filter fun x => x.1 == q && x.2 / 32 == l && decide (16 ≤ x.2 % 32) == up).length

/-- A step in flight and what it says of itself. -/
def inFlight (s : State) (f : Step → Bool) : Bool := (s.step.map fun x => x.started && f x).getD false

def layerWord (s : State) (q l o : Nat) : Nat :=
  let k := q * 8 + l
  let t := fmGet s.power.layerTemp k 0
  if 0x40 ≤ o ∧ o < 0x50 then
    wordOf fun i => if s.security.gradeS then fmGet s.security.fusedPos (k * 16 + (o - 0x40 + i)) 15 else 0xFF
  else if 0x100 ≤ o ∧ o < 0x210 then wordOf fun i => nbuState s q l ((o - 0x100 + i) / 17) ((o - 0x100 + i) % 17)
  else
    match o with
    | 0x00 => bit (s.boot.phase != .ready && s.boot.phase != .wiping) + 4 * bit (inFlight s Step.hot) + 8 * bit (inFlight s Step.derated)
    | 0x08 | 0x0C => pairOf t t
    | 0x10 => unsignedOf t 16
    | 0x14 => fmGet s.faults.commandErrors k 0 % 2 ^ 32
    | 0x18 => fmGet s.faults.eccCorrected k 0 % 2 ^ 32
    | 0x1C => fmGet s.faults.eccUe k 0 % 2 ^ 32
    | 0x20 => fmGet s.faults.windowPeak k 0 % 2 ^ 8
    | 0x24 => cmdSpares s q l false + cmdSpares s q l true * 2 ^ 8
    | _ => 0

/-- Free frames of a channel. -/
def channelFree (s : State) (tier c : Nat) : Nat :=
  if (s.channel tier c).offline then 0
  else
    let mine (f : Nat) : Bool := f / channelFrames tier == c
    let aside := if tier = 1 then ((List.range 33792).filter fun i => mine (621568 + i)).length else if c = 0 ∨ c = 8 then 128 else 0
    channelFrames tier - aside - (dedup ((lowerUsed tier s ++ retiredOf tier s).filter mine)).length

def channelWord (s : State) (n tier c o : Nat) : Nat :=
  let x := s.channel tier c
  match o with
  | 0x00 => bit x.trained + 2 * bit x.retraining + 4 * bit x.offline + nearQuadrant tier c * 2 ^ 8 + bit (decide (tier = 2) && (c == 0 || c == 8)) * 2 ^ 16
  | 0x04 => x.margin
  | 0x08 => channelFree s tier c
  | 0x0C => ((retiredOf tier s).filter fun f => f / channelFrames tier == c).length
  | 0x10 | 0x14 => halfOf x.corrected o
  | 0x18 => x.uncorrectable % 2 ^ 32
  | 0x1C => x.retrains % 2 ^ 32
  | 0x20 => Config.measured n (700 + channelKey tier c) % 2 ^ 32
  | 0x24 => x.scrubPasses % 2 ^ 32
  | 0x28 => unsignedOf (fmGet s.power.pkgTemp (channelKey tier c) 0) 16
  | _ => 0

/-! ## Sluice, check units, weirs (Tables 17-10 to 17-12) -/

/-- Table sweeps in progress (R270). -/
def sweepCount (s : State) : Nat := (s.sluice.transfers.filter fun t => match t with | .sweep _ _ => true | _ => false).length

def sluiceWord (s : State) (o : Nat) : Nat :=
  let x := s.sluice
  match o with
  | 0x18 => x.issued % 2 ^ 16 + x.done % 2 ^ 16 * 2 ^ 16
  | 0x1C => x.result + x.last * 2 ^ 8
  | 0x20 => sumOf ((List.range 4).map (t0FreeCount s))
  | 0x24 => freeCount s 1
  | 0x28 => freeCount s 2
  | 0x2C => (retiredOf 0 s).length
  | 0x30 => (retiredOf 1 s).length
  | 0x34 => (retiredOf 2 s).length
  | 0x40 | 0x44 => halfOf x.promotions o
  | 0x48 | 0x4C => halfOf x.demotions o
  | 0x50 => x.refetches % 2 ^ 32
  | 0x54 => x.refetchFails % 2 ^ 32
  | 0x58 => x.lostBlocks % 2 ^ 32
  | 0x60 => x.codecOverrun % 2 ^ 32
  | 0x64 => x.codecShort % 2 ^ 32
  | 0x68 => x.codecTable % 2 ^ 32
  | 0x6C => x.imageCrc % 2 ^ 32
  | 0x70 => x.rawBlocks % 2 ^ 32
  | 0x80 => sweepCount s
  | _ => 0

def ckuWord (s : State) (u o : Nat) : Nat :=
  let x := s.cku u
  match o with
  | 0x18 | 0x1C => halfOf x.result o
  | 0x20 | 0x24 => halfOf x.latched o
  | _ => 0

def weirWord (s : State) (w o : Nat) : Nat :=
  if 0x80 ≤ o ∧ o < 0xA0 then
    sumOf ((List.range 32).map fun i =>
      let t := (o - 0x80) * 8 + i
      bit ((s.tenant t).params.any fun p => p.partition == w) * 2 ^ i)
  else if o < 0x60 then
    let b := s.bucket w (o / 0x20)
    match o % 0x20 with
    | 0x08 | 0x0C => halfOf (unsignedOf b.level 64) o
    | 0x10 | 0x14 => halfOf b.passed o
    | _ => 0
  else 0

/-! ## Ports and junction (Tables 18-8, 18-9) -/

/-- PORT_STATE. -/
def portCode : PortState → Nat
  | .down => 0 | .training => 1 | .up => 2 | .failed => 3

def portWord (s : State) (p o : Nat) : Nat :=
  let x := s.port p
  if 0x100 ≤ o ∧ o < 0x128 then halfOf (fmGet x.bitErrors ((o - 0x100) / 8) 0) o
  else if 0x200 ≤ o ∧ o < 0x280 then
    let vc := (o - 0x200) / 0x10
    (if o % 0x10 = 0 then fmGet x.credits vc 0 else if o % 0x10 < 8 then 0 else halfOf (fmGet x.sent vc 0) o)
  else if 0x300 ≤ o ∧ o < 0x308 then wordOf fun i => fmGet x.eye (o - 0x300 + i) 0
  else
    match o with
    | 0x08 => portCode x.state + x.failReason * 2 ^ 8 + x.autoTrainings * 2 ^ 16
    | 0x0C => x.rxReplaced + x.txReplaced * 2 ^ 8 + sumOf (x.laneWear.map fun j => 2 ^ j) * 2 ^ 16
    | 0x10 => x.peerId + x.peerRole * 2 ^ 16
    | 0x14 => x.peerEpoch
    | 0x140 | 0x144 => halfOf x.fecCorrected o
    | 0x148 | 0x14C => halfOf x.fecUncorrectable o
    | 0x150 => x.replays % 2 ^ 32
    | 0x154 => x.crcErrors % 2 ^ 32
    | 0x158 => x.badMessages % 2 ^ 32
    | _ => 0

def junctionWord (s : State) (o : Nat) : Nat :=
  let j := s.junction
  if 0x1000 ≤ o ∧ o < 0x1200 then
    let p := (o - 0x1000) / 8
    let own : Option Member := if decide (j.role = .manager) && p == j.position then some { id := s.moduleId, role := .manager, epoch := j.epoch, joined := true, aborts := 0 } else none
    match (if j.role = .manager then (own.orElse fun _ => memberAt s p) else none) with
    | some m => if o % 8 = 0 then m.id + roleCode m.role * 2 ^ 10 + 2 ^ 15 else m.epoch
    | none => 0
  else
    match o with
    | 0x10 => roleCode j.role + j.position * 2 ^ 16 + j.level * 2 ^ 24
    | 0x14 => j.epoch
    | 0x18 => if j.role = .manager then s.moduleId else j.managerId
    | 0x1C => j.domainMgr
    | 0x2C => j.evacState + j.evacPeer * 2 ^ 16
    | 0x100 | 0x104 => halfOf j.staleRefused o
    | 0x108 | 0x10C => halfOf j.staleDiscarded o
    | 0x110 | 0x114 => halfOf j.routeDiscarded o
    | 0x118 => j.aborts % 2 ^ 32
    | 0x11C => j.resolves % 2 ^ 32
    | 0x4010 => bit j.raBusy + j.raStatus * 2 ^ 8 + bit j.raTimeout * 2 ^ 16
    | _ => 0

/-! ## Tenant blocks (Tables 18-2 to 18-7) -/

/-- Counters and budget of a tenant (Table 18-7). -/
def tenantCounter (s : State) (t o : Nat) : Nat :=
  let x := s.tenant t
  let c := x.counters
  if 0x4100 ≤ o ∧ o < 0x4180 then fmGet c.status ((o - 0x4100) / 8) 0
  else
    match o / 8 * 8 with
    | 0x4000 => c.descFetched
    | 0x4008 => c.tokensDelivered
    | 0x4010 => c.tokensLate
    | 0x4018 => c.ringWaits
    | 0x4020 => c.sidingBoundaries
    | 0x4028 => c.parkedBoundaries
    | 0x4030 => c.prefixTokens
    | 0x4200 => if x.limited then unsignedOf x.budget 64 else 0x7FFFFFFFFFFFFFFF
    | 0x4208 => nextRefill x
    | _ => 0

def qpWord (s : State) (t q o : Nat) : Nat :=
  let x := s.qp t q
  match o with
  | 0x2C => qpCode x.state + x.reason * 2 ^ 8 + bit x.polled * 2 ^ 16
  | 0x30 => x.fetched % 2 ^ 32
  | 0x34 => x.written % 2 ^ 32
  | 0x38 => owed s t q
  | 0x3C => x.tail
  | 0x40 => x.head
  | 0x44 => (s.ctxsWhere fun c => c.tenant == t && c.qp == q && c.replay.isNone && !decide (c.state = .free)).length
  | _ => 0

def tenantWord (s : State) (t o : Nat) : Nat :=
  let x := s.tenant t
  let p := x.params
  if 0x100 ≤ o ∧ o < 0x1100 then qpWord s t ((o - 0x100) / 0x100) (o % 0x100)
  else if 0x80 ≤ o ∧ o < 0xA8 then latchWord x.latch0 x.latch1 (o - 0x80)
  else if 0x3400 ≤ o ∧ o < 0x3500 then (s.vector t ((o - 0x3400) / 4)).pending % 2 ^ 9
  else if 0x4000 ≤ o ∧ o < 0x4300 then halfOf (tenantCounter s t o) o
  else if 0x9000 ≤ o ∧ o < 0x9008 then sumOf ((List.range 32).map fun i => bit (s.vector t ((o - 0x9000) * 8 + i)).pba * 2 ^ i)
  else
    match o with
    | 0x00 => t + 2 * 2 ^ 8 + 16 * 2 ^ 16 + 64 * 2 ^ 24
    | 0x04 => (p.map fun p => p.qpQuota + p.highest * 2 ^ 8 + p.partition * 2 ^ 16 + bit p.enabled * 2 ^ 31).getD 0
    | 0x08 => (p.map TenantParams.ctxQuota).getD 0
    | 0x0C => s.ctxCount t
    | 0x1C => bit x.sealed
    | 0x20 => bit x.resetPending + 2 * bit s.boot.cxlCache + 4 * bit s.ideHeld
    | 0x28 => x.refusedCount
    | 0x2C => x.refusedOffset + x.refusedKind * 2 ^ 16
    | _ => 0

/-! ## The word at an offset of PF BAR0 -/

/-- The RW and RWL fields of a word as they read; a WO field reads 0 (Table 00-4). -/
def fieldBits (s : State) (a : Nat) : Nat :=
  match wideAt (a - a % 8) with
  | some x => halfOf (s.reg (a - a % 8) 0 x.1) a
  | none => sumOf ((fieldsAt a).map fun f => if f.kind = .wo then 0 else fieldNow s a f * 2 ^ f.lsb)

/-- The RO part of a word; `n` numbers the free value that SCRUB_FRAME reads as (log 25). -/
def roWord (n : Nat) (s : State) (a : Nat) : Nat :=
  if a < 0x10000 then globalWord s a
  else if a < 0x20000 then timeWord s (a - 0x10000)
  else if a < 0x30000 then powerWord s (a - 0x20000)
  else if a < 0x40000 then mailboxWord s (a - 0x30000)
  else if 0x100000 ≤ a ∧ a < 0x200000 then
    let q := (a - 0x100000) / 0x40000
    let o := a % 0x40000
    if 0x20000 ≤ o then layerWord s q ((o - 0x20000) / 0x4000) (o % 0x4000) else quadWord s q o
  else if 0x300000 ≤ a ∧ a < 0x308000 then portWord s (a / 0x1000 % 8) (a % 0x1000)
  else if junctionBase ≤ a ∧ a < junctionBase + 0x10000 then junctionWord s (a - junctionBase)
  else if 0x400000 ≤ a ∧ a < 0x414000 then channelWord s n 1 ((a - 0x400000) / 0x1000) (a % 0x1000)
  else if 0x420000 ≤ a ∧ a < 0x430000 then channelWord s n 2 ((a - 0x420000) / 0x1000) (a % 0x1000)
  else if sluiceBase ≤ a ∧ a < sluiceBase + 0x1000 then sluiceWord s (a - sluiceBase)
  else if 0x501000 ≤ a ∧ a < 0x505000 then ckuWord s ((a - 0x501000) / 0x100) (a % 0x100)
  else if 0x600000 ≤ a ∧ a < 0x602000 then weirWord s ((a - 0x600000) / 0x100) (a % 0x100)
  else if inTenant a then tenantWord s (tenantOf a) (a % 0x10000)
  else 0

/-- The 32-bit word that an aligned offset of PF BAR0 reads as; an offset no table assigns reads 0 (R415). -/
def readWord (n : Nat) (s : State) (a : Nat) : Nat := (fieldBits s a + roWord n s a) % 2 ^ 32

end Sys2Proof.Machine
end

