-- ==== Sys2Proof/Machine/Service.lean ====
section
/-! DEFINITION. The module at the rack (R408 to R414, R446): the attention button, the latch, the indicators, the
sideband and the JTAG service port. -/

namespace Sys2Proof.Machine

/-! ## The attention button (R338, R341, R408) -/

/-- A press on a WORKER asks for its evacuation, or cancels the one under way. -/
def pressWorker (s : State) : State :=
  let j := s.junction
  if j.evacState = 0 then
    evacMessage j.managerId 1 s.moduleId 0 j.managerEpoch { s with junction := { j with evacState := 1 } }
  else evacMessage j.managerId 0 s.moduleId 0 j.managerEpoch (endEvac s)

/-- A press on a SPARE makes it leave its group at its next boundary; it keeps its epoch. -/
def pressSpare (s : State) : State :=
  let j := s.junction
  { s with junction := { j with changes := j.changes ++ [{ target := s.moduleId, atStep := 0, grant := { role := 0, position := 0, manager := 0, domainManager := j.domainMgr, level := 0, newEpoch := j.epoch, leaving := none } }] } }

/-- A press, by the module's role. -/
def press (s : State) : State :=
  match s.junction.role with
  | .worker => pressWorker s
  | .spare => pressSpare s
  | .manager | .standalone => { s with boot := { s.boot with attnPulses := s.boot.attnPulses + 1 } }

/-- A closure of 0.1 s to 3.0 s is a press; a longer one, and a press in BOOT_FAIL or FATAL, is counted only. -/
def closeButton (ms : Nat) (s : State) : State :=
  if ms < 100 then s
  else if 3000 < ms ∨ s.boot.phase = .bootFail ∨ s.faults.fatal then
    { s with boot := { s.boot with pressesIgnored := s.boot.pressesIgnored + 1 } }
  else press s

def execAttentionPress (heldMs : Nat) (s : State) : Host.Outcome State Fault Refusal :=
  run (.attentionPress heldMs) s (whenOn (closeButton heldMs))

/-! ## The latch (R412) -/

/-- The latch opens on a module that has not set REMOVE_READY. -/
def openLatch (s : State) : State :=
  if s.boot.removeReady ∨ s.boot.latchOpen then s
  else settleAlert { s with boot := { s.boot with latchOpen := true, latchExpired := false } }

def execLatchOpen (s : State) : Host.Outcome State Fault Refusal := run .latchOpen s (whenOn openLatch)

/-- The latch closes before the link is lost: fetching and steps resume at the next boundary. -/
def closeLatch (s : State) : State :=
  if s.boot.latchOpen then settleAlert { s with boot := { s.boot with latchOpen := false, latchExpired := false } } else s

def execLatchClose (s : State) : Host.Outcome State Fault Refusal := run .latchClose s (whenOn closeLatch)

/-- Still open after 60 s with the link up: a later link loss is FATAL. -/
def execLatchTimeout (s : State) : Host.Outcome State Fault Refusal :=
  run .latchTimeout s (whenOn fun s =>
    if s.boot.latchOpen ∧ s.boot.linkWidth ≠ 0 then { s with boot := { s.boot with latchExpired := true } } else s)

/-! ## Indicators (R409, R410) -/

/-- What an indicator shows. -/
inductive Pattern where
  | off | slow | fast | on
  deriving DecidableEq, Repr

/-- The module is safe to pull (R410). -/
def safeToPull (s : State) : Bool :=
  (s.boot.evacuated && !s.anyLive) || s.boot.removeReady || (s.faults.fatal && s.faults.dumpDone && !s.faults.dumpInReserve) ||
    decide (s.boot.phase = .bootFail)

def statusLed (s : State) : Pattern :=
  if !s.power.on then .off
  else if s.faults.fatal && !s.faults.dumpDone then .fast
  else
    match s.boot.phase with
    | .training | .wiping | .held => .slow
    | .ready => .on
    | .off | .bootFail => .off

/-- ATTN_IND and LOCATE (Table 17-2). -/
def attnInd (s : State) : Nat := s.reg 0x54 0 0
def locateBit (s : State) : Nat := s.reg 0x54 8 0

def attentionLed (s : State) : Pattern :=
  if !s.power.on then .off
  else if s.faults.fatal || decide (s.boot.phase = .bootFail) || decide (s.security.state = .retired) then .on
  else if (decide (s.junction.role = .worker) && s.junction.evacState != 0) || s.junction.evacState == 4 || attnInd s == 2 then .slow
  else if attnInd s = 1 then .on
  else .off

def locateLed (s : State) : Pattern :=
  if !s.power.on then .off else if safeToPull s then .on else if locateBit s = 1 then .slow else .off

/-! ## The sideband (R446) -/

def answerWord (w : Nat) (s : State) : State := reply (.sideband (BitVec.ofNat 32 w)) s

/-- Commands 0x00 to 0x3F read a word of the power block; other command bytes of no register get a NACK. -/
def readPower (command : Nat) (s : State) : State :=
  if command < 0x40 then answerWord (readWord 0 s (powerBase + 4 * command)) s else reply .nack s

def execSidebandPowerRead (command : Nat) (s : State) : Host.Outcome State Fault Refusal :=
  run (.sidebandPowerRead command) s (whenOn (readPower command))

/-- Command 0x40: BMC_LIMIT read, or written and clamped (R396). -/
def bmcLimit (value : Option Word32) (s : State) : State :=
  match value with
  | none => answerWord s.power.bmcLimit s
  | some w => { s with power := { s.power with bmcLimit := max 1000 (min 2600 w.toNat) } }

def execSidebandBmcLimit (value : Option Word32) (s : State) : Host.Outcome State Fault Refusal :=
  run (.sidebandBmcLimit value) s (whenOn (bmcLimit value))

/-- Command 0x41: ATTN_IND and LOCATE; an ATTN_IND outside its range changes nothing. -/
def indicators (value : Option Word32) (s : State) : State :=
  match value with
  | none => answerWord (attnInd s + locateBit s * 2 ^ 8) s
  | some w =>
    let s := setReg 0x54 8 (bitsOf w.toNat 8 1) s
    if w.toNat % 4 = 3 then s else setReg 0x54 0 (w.toNat % 4) s

def execSidebandIndicators (value : Option Word32) (s : State) : Host.Outcome State Fault Refusal :=
  run (.sidebandIndicators value) s (whenOn (indicators value))

/-- Command 0x42, values 1 and 2. -/
def execSidebandColdReset (s : State) : Host.Outcome State Fault Refusal :=
  run .sidebandColdReset s (whenOn (requestCold .sideband))

def execSidebandWarmReset (s : State) : Host.Outcome State Fault Refusal :=
  run .sidebandWarmReset s (whenOn (requestWarm false))

/-- Commands 0x43 and 0x44: the status and the cause word of the global block. -/
def execSidebandStatusRead (s : State) : Host.Outcome State Fault Refusal :=
  run .sidebandStatusRead s (whenOn fun s => answerWord (readWord 0 s 0x10) s)

def execSidebandCauseRead (s : State) : Host.Outcome State Fault Refusal :=
  run .sidebandCauseRead s (whenOn fun s => answerWord (readWord 0 s 0x14) s)

/-- Command 0x48: the indirect address reads back as written. -/
def indirectAddress (value : Option Word32) (s : State) : State :=
  match value with
  | none => answerWord s.boot.indirect.toNat s
  | some w => { s with boot := { s.boot with indirect := w } }

def execSidebandIndirectAddress (value : Option Word32) (s : State) : Host.Outcome State Fault Refusal :=
  run (.sidebandIndirectAddress value) s (whenOn (indirectAddress value))

/-- The offset in PF BAR0 that an indirect address names: space, instance, offset in the block. -/
def indirectTarget (w : Nat) : Option Nat :=
  let o := bitsOf w 0 16
  let i := bitsOf w 16 8
  let sp := bitsOf w 24 4
  if o % 4 ≠ 0 then none
  else if sp = 0 then some (powerBase + o)
  else if sp = 1 ∧ i < 4 then some (0x100000 + i * 0x40000 + o)
  else if sp = 2 ∧ i < 32 ∧ o < 0x4000 then some (0x100000 + i / 8 * 0x40000 + 0x20000 + i % 8 * 0x4000 + o)
  else if sp = 3 ∧ i < 20 ∧ o < 0x1000 then some (0x400000 + i * 0x1000 + o)
  else if sp = 4 ∧ i < 16 ∧ o < 0x1000 then some (0x420000 + i * 0x1000 + o)
  else if sp = 5 then some o
  else if sp = 6 then some (timeBase + o)
  else none

/-- Command 0x49: the word at the indirect address, 0 where it names no register. -/
def readIndirect (s : State) : State :=
  let n := takeFree s
  match indirectTarget s.boot.indirect.toNat with
  | some a => answerWord (readWord n.1 s a) n.2
  | none => answerWord 0 n.2

def execSidebandIndirectRead (s : State) : Host.Outcome State Fault Refusal :=
  run .sidebandIndirectRead s (whenOn readIndirect)

/-- A dynamic address brings the sideband into I3C mode until power is lost. -/
def execI3cDynamicAddress (address : Nat) (s : State) : Host.Outcome State Fault Refusal :=
  run (.i3cDynamicAddress address) s (whenOn fun s => { s with boot := { s.boot with i3c := some address } })

/-! ## The JTAG service port (R414, Table 15-5) -/

/-- The repair instruments are reachable in every life-cycle state but RETIRED. -/
def whenRepairable (f : State → State) (s : State) : State := if s.security.state = .retired then s else f s

/-- Repairs of a quadrant that are hard: the record's entries that training has read. -/
def hardRepairs (s : State) (q : Nat) : List HealthEntry :=
  (s.health.take s.boot.hard).filter fun e => match e with
    | .repair r => r.quad == q
    | _ => false

/-- FUSE_READ of a die: fused repairs, fused-off positions, grade. -/
def readFuses (q : Nat) (s : State) : State :=
  reply (.fuses s.security.gradeS (s.security.fusedPos.filter fun x => x.1 / 128 == q) (hardRepairs s q)) s

def execFuseRead (q : Nat) (s : State) : Host.Outcome State Fault Refusal := run (.fuseRead q) s (whenOn (whenRepairable (readFuses q)))

/-- SPARE_MAP of a bank: rows and column selects used and free, and the staged repairs discarded there. -/
def readSpares (q l b : Nat) (s : State) : State :=
  let k := (q * 8 + l) * 1024 + b
  let r := fmGet s.faults.rowsUsed k 0
  let c := fmGet s.faults.columnsUsed k 0
  reply (.spares r (256 - r) c (32 - c) (s.boot.discarded.filter fun x => x.quad == q && x.layer == l && x.bank == b)) s

def execSpareMap (q layer bank : Nat) (s : State) : Host.Outcome State Fault Refusal :=
  run (.spareMap q layer bank) s (whenOn (whenRepairable (readSpares q layer bank)))

/-- HEALTH_READ: the whole record. -/
def execHealthRead (q : Nat) (s : State) : Host.Outcome State Fault Refusal :=
  run (.healthRead q) s (whenOn (whenRepairable fun s => reply (.health s.health) s))

/-- REPAIR_STAGE: the repair waits in flash for the next cold reset whose training has not begun. -/
def execRepairStage (r : Repair) (s : State) : Host.Outcome State Fault Refusal :=
  run (.repairStage r) s (whenOn (whenRepairable fun s => { s with boot := { s.boot with staged := s.boot.staged ++ [r] } }))

end Sys2Proof.Machine
end

