-- ==== Sys2Proof/Machine/Transfers.lean ====
section
/-! DEFINITION. The ends of the work that the sluice and the PXD do beside steps (R191, R199, R209, R210, R212,
R253, R283). -/

namespace Sys2Proof.Machine

/-! ## Blocks (R253, R283, R284) -/

/-- A block that is MAPPED again keeps no model waiting. -/
def settleWaiting (n : Nat) (s : State) : State :=
  if (s.block n).state = .mapped then
    { s with slots := fmMap s.slots fun _ x => { x with waitingBlocks := x.waitingBlocks.filter (· != n) } }
  else s

/-- A refetch ends: its verified copy is recorded, or it failed. -/
def refetchDone (n : Nat) (ok : Bool) (s : State) : State :=
  if (s.block n).state = .refetching then settleWaiting n (if ok then refetchOk n (snoopBlock none n s) else refetchFailed n s) else s

def execRefetchDone (block : Nat) (ok : Bool) (s : State) : Host.Outcome State Fault Refusal :=
  run (.refetchDone block ok) s (whenServing (refetchDone block ok))

/-- The frame a move fills. -/
def targetFrame (b : Block) : Option Nat := b.target.map codeFrame

/-- A promotion ends: the T0 frame is recorded and the image stays, or a data error sends the block to
REFETCHING. -/
def promotionDone (n : Nat) (err : Option DataErr) (s : State) : State :=
  if (s.block n).state ≠ .promoting then s
  else
    match err with
    | some e => packageError n e s
    | none =>
      let s := dropTransfers (ofBlock n) { s with sluice := { s.sluice with promotions := (s.sluice.promotions + 1) % 2 ^ 64 } }
      modBlock n (fun b => { b with state := .mapped, t0 := targetFrame b, target := none, lastUse := s.boundary }) (snoopBlock none n s)

def execPromotionDone (block : Nat) (err : Option DataErr) (s : State) : Host.Outcome State Fault Refusal :=
  run (.promotionDone block err) s (whenServing (promotionDone block err))

/-- A demotion ends: the image frame is recorded and the T0 copy stays, or a data error sends the block to
REFETCHING. -/
def demotionDone (n : Nat) (err : Option DataErr) (s : State) : State :=
  if (s.block n).state ≠ .demoting then s
  else
    match err with
    | some e => packageError n e s
    | none =>
      let s := dropTransfers (ofBlock n) { s with sluice := { s.sluice with demotions := (s.sluice.demotions + 1) % 2 ^ 64 } }
      writeImage n (modBlock n (fun b =>
        { b with state := .mapped, image := targetFrame b, imageT2 := decide (b.target.map codeTier = some 2), target := none }) (snoopBlock none n s))

def execDemotionDone (block : Nat) (err : Option DataErr) (s : State) : Host.Outcome State Fault Refusal :=
  run (.demotionDone block err) s (whenServing (demotionDone block err))

/-! ## Groups (R199, R212) -/

/-- Bytes of a group. -/
def groupBytes (s : State) (g : Nat) : Nat :=
  match fmFind s.pools (s.group g).slot with
  | some p => p.layers * p.heads * slotBytes p
  | none => 0

/-- A transfer of a group under the migration bucket of its owner's partition ends (Table 10-5, R275): not
before its pieces have passed. -/
def migrate (t : Transfer) (g : Nat) (f : State → State) (s : State) : State :=
  let r := govern (.move t) (s.tenant (s.group g).owner).partition migration [groupBytes s g] s
  if r.1 then f r.2 else r.2

/-- The rows of a group that pass the sluice: those of its frame set, or those of its image. -/
def streamRows (s : State) (g : Nat) (fromImage : Bool) : List Nat :=
  let x := s.group g
  match fmFind s.pools x.slot, fmFind s.images x.image with
  | some p, some i => (groupRows s x.slot p x.frameSet i).map fun a => if fromImage then a.2 else a.1
  | _, _ => []

/-- The stream of a group past snoop point 1, with its owner's partition as the filter value (R272, R273). -/
def snoopGroup (g : Nat) (fromImage : Bool) (s : State) : State :=
  snoopRows (some (s.tenant (s.group g).owner).partition) (streamRows s g fromImage) s

/-- The sluice has moved a spilled group. -/
def spillDone (g : Nat) (s : State) : State :=
  if (s.group g).residence = .spilling ∧ !(s.group g).finished then
    migrate (.spill g) g (fun s => finishSpill g (snoopGroup g false s)) s
  else s

def execSpillDone (lgn : Nat) (s : State) : Host.Outcome State Fault Refusal :=
  run (.spillDone lgn) s (whenServing (spillDone lgn))

/-- A prefetch ends; one whose image is damaged is abandoned (Table 14-6). -/
def prefetchDone (g : Nat) (ok : Bool) (s : State) : State :=
  if (s.group g).residence ≠ .prefetching ∨ (s.group g).finished then s
  else if ok then migrate (.prefetch g) g (fun s => finishPrefetch g (snoopGroup g true s)) s
  else imageError g s

def execPrefetchDone (lgn : Nat) (ok : Bool) (s : State) : Host.Outcome State Fault Refusal :=
  run (.prefetchDone lgn ok) s (whenServing (prefetchDone lgn ok))

/-- The sluice has copied a partial tail page. -/
def tailCopyDone (i : Nat) (s : State) : State :=
  match (s.ctx i).copy with
  | none => s
  | some t =>
    if t.finished then s
    else
      migrate (.tailCopy i) t.old (fun s => finishCopy i (snoopGroup t.old (!decide ((s.group t.old).residence = .t0)) s)) s

def execTailCopyDone (ctx : Nat) (s : State) : Host.Outcome State Fault Refusal :=
  run (.tailCopyDone ctx) s (whenServing (tailCopyDone ctx))

/-! ## Diversion (R191, R366) -/

/-- The sluice has copied what a lost quad held. -/
def diversionDone (q l quad : Nat) (s : State) : State :=
  let x := l * 256 + quad
  forEach (blocksOn s (q, x)) moveBlock (copyQuad q x s)

def execDiversionCopyDone (q layer quad : Nat) (s : State) : Host.Outcome State Fault Refusal :=
  run (.diversionCopyDone q layer quad) s (whenServing (diversionDone q layer quad))

/-! ## The PXD (R209, R210) -/

/-- A sealed page's hash is done: row 4 of the next boundary may insert its node. -/
def hashDone (i page : Nat) (s : State) : State :=
  let c := s.ctx i
  let sealed := match pageAt c page with
    | some g => (s.group g).sealed
    | none => false
  if !sealed ∨ c.state = .free ∨ c.hashing.contains page ∨ c.hashed.contains page ∨ !(pxdInserts s c.slot) then s
  else modCtx i (fun c => { c with hashing := c.hashing ++ [page] }) s

def execPrefixHashDone (ctx page : Nat) (s : State) : Host.Outcome State Fault Refusal :=
  run (.prefixHashDone ctx page) s (whenServing (hashDone ctx page))

/-- The full pages a lookup reads: the last prompt position is never matched. -/
def lookupPages (c : Ctx) : Nat := (rPromptLen c.req.block - 1) / 256

/-- The lookup of a new prompt's pages is done: the leading pages that are nodes are taken at the next boundary.
A prompt that cannot be read ends its sequence with ACCESS, as in R42. -/
def lookupDone (i : Nat) (s : State) : State :=
  let c := s.ctx i
  if !c.lookupPending then s
  else
    let n := lookupPages c
    let s := modCtx i (fun c => { c with lookupPending := false }) s
    match readHost s c.tenant (rPrompt c.req.block) (1024 * n) with
    | none => drainSeq i (drainFor stAccess (blockDetail 0x008) erAccess) s
    | some bs =>
      let tokens := (List.range (256 * n)).map fun k => leAt bs (4 * k) 4
      let pages := (List.range n).map fun k => (tokens.drop (256 * k)).take 256
      let hits := matchedNodes s c.tenant c.slot (chainValues c.model c.adapter c.tenant pages)
      let s := forEach hits (fun h s =>
        let s := nextUse s
        { s with nodes := s.nodes.map fun m => if m = h then { m with used := s.useCount } else m }) s
      modCtx i (fun c => { c with matched := hits.map PrefixNode.lgn }) s

def execPrefixLookupDone (ctx : Nat) (s : State) : Host.Outcome State Fault Refusal :=
  run (.prefixLookupDone ctx) s (whenServing (lookupDone ctx))

end Sys2Proof.Machine
end

