-- ==== Sys2Proof/Machine/Dispatch.lean ====
section
/-! DEFINITION. The meaning of every command: one arm per row of the opcode table. -/

namespace Sys2Proof.Machine

/-- The effect of a command on everything but the queue of waiting commands. -/
def exec (i : Instr) (s : State) : Host.Outcome State Fault Refusal :=
  match i with
  | .doorbellInvalidate tenant qp host => Sys2Proof.Machine.execDoorbellInvalidate tenant qp host s
  | .doorbellPoll tenant qp host => Sys2Proof.Machine.execDoorbellPoll tenant qp host s
  | .atsInvalidation pasid base size host => Sys2Proof.Machine.execAtsInvalidation pasid base size host s
  | .openSeq d => Sys2Proof.Machine.execOpenSeq d s
  | .append d => Sys2Proof.Machine.execAppend d s
  | .pause d => Sys2Proof.Machine.execPause d s
  | .resume d => Sys2Proof.Machine.execResume d s
  | .cancel d => Sys2Proof.Machine.execCancel d s
  | .close d => Sys2Proof.Machine.execClose d s
  | .exportPrefix d => Sys2Proof.Machine.execExportPrefix d s
  | .importPrefix d => Sys2Proof.Machine.execImportPrefix d s
  | .dropPrefix d => Sys2Proof.Machine.execDropPrefix d s
  | .embedLookup d => Sys2Proof.Machine.execEmbedLookup d s
  | .query d => Sys2Proof.Machine.execQuery d s
  | .fence d => Sys2Proof.Machine.execFence d s
  | .loadModel d => Sys2Proof.Machine.execLoadModel d s
  | .unloadModel d => Sys2Proof.Machine.execUnloadModel d s
  | .loadAdapter d => Sys2Proof.Machine.execLoadAdapter d s
  | .unloadAdapter d => Sys2Proof.Machine.execUnloadAdapter d s
  | .loadTable d => Sys2Proof.Machine.execLoadTable d s
  | .replay d => Sys2Proof.Machine.execReplay d s
  | .setTenant d => Sys2Proof.Machine.execSetTenant d s
  | .loadFinish host => Sys2Proof.Machine.execLoadFinish host s
  | .sweepDone slot tensor => Sys2Proof.Machine.execSweepDone slot tensor s
  | .stepBoundary input => Sys2Proof.Machine.execStepBoundary input s
  | .waitPeriod => Sys2Proof.Machine.execWaitPeriod s
  | .stepStart work => Sys2Proof.Machine.execStepStart work s
  | .routingPoint layer routes => Sys2Proof.Machine.execRoutingPoint layer routes s
  | .holdPoint blocks => Sys2Proof.Machine.execHoldPoint blocks s
  | .holdTimeout block => Sys2Proof.Machine.execHoldTimeout block s
  | .hostWindow q layer => Sys2Proof.Machine.execHostWindow q layer s
  | .timingFault domain unit slot => Sys2Proof.Machine.execTimingFault domain unit slot s
  | .controlFault domain unit slot commandError => Sys2Proof.Machine.execControlFault domain unit slot commandError s
  | .dataError target err consumed => Sys2Proof.Machine.execDataError target err consumed s
  | .refetchDone block ok => Sys2Proof.Machine.execRefetchDone block ok s
  | .promotionDone block err => Sys2Proof.Machine.execPromotionDone block err s
  | .demotionDone block err => Sys2Proof.Machine.execDemotionDone block err s
  | .spillDone lgn => Sys2Proof.Machine.execSpillDone lgn s
  | .prefetchDone lgn ok => Sys2Proof.Machine.execPrefetchDone lgn ok s
  | .tailCopyDone ctx => Sys2Proof.Machine.execTailCopyDone ctx s
  | .diversionCopyDone q layer quad => Sys2Proof.Machine.execDiversionCopyDone q layer quad s
  | .prefixHashDone ctx page => Sys2Proof.Machine.execPrefixHashDone ctx page s
  | .prefixLookupDone ctx => Sys2Proof.Machine.execPrefixLookupDone ctx s
  | .scrubPass findings => Sys2Proof.Machine.execScrubPass findings s
  | .cxlMemRead address => Sys2Proof.Machine.execCxlMemRead address s
  | .cxlMemWrite address data => Sys2Proof.Machine.execCxlMemWrite address data s
  | .sluiceSeal block => Sys2Proof.Machine.execSluiceSeal block s
  | .sluiceUnseal block => Sys2Proof.Machine.execSluiceUnseal block s
  | .sluiceRelease block => Sys2Proof.Machine.execSluiceRelease block s
  | .qpEnable path tenant qp => Sys2Proof.Machine.execQpEnable path tenant qp s
  | .qpDisable path tenant qp => Sys2Proof.Machine.execQpDisable path tenant qp s
  | .moderationWrite path tenant vector count time => Sys2Proof.Machine.execModerationWrite path tenant vector count time s
  | .vectorTimeThreshold tenant vector => Sys2Proof.Machine.execVectorTimeThreshold tenant vector s
  | .msixUnmask tenant change => Sys2Proof.Machine.execMsixUnmask tenant change s
  | .latchCapture path time tenant latches => Sys2Proof.Machine.execLatchCapture path time tenant latches s
  | .tenantSeal path tenant => Sys2Proof.Machine.execTenantSeal path tenant s
  | .sealSet bits => Sys2Proof.Machine.execSealSet bits s
  | .registerWrite path offset size value => Sys2Proof.Machine.execRegisterWrite path offset size value s
  | .coldReset cause => Sys2Proof.Machine.execColdReset cause s
  | .warmReset cause => Sys2Proof.Machine.execWarmReset cause s
  | .functionLevelReset tenant => Sys2Proof.Machine.execFunctionLevelReset tenant s
  | .flrClearDone tenant => Sys2Proof.Machine.execFlrClearDone tenant s
  | .removeReq => Sys2Proof.Machine.execRemoveReq s
  | .dumpRelease => Sys2Proof.Machine.execDumpRelease s
  | .powerOn perstAsserted => Sys2Proof.Machine.execPowerOn perstAsserted s
  | .trainingComplete linkWidth linkRate cxlCache => Sys2Proof.Machine.execTrainingComplete linkWidth linkRate cxlCache s
  | .wipeDone => Sys2Proof.Machine.execWipeDone s
  | .cxlLinkRetrain width rate cxlCache => Sys2Proof.Machine.execCxlLinkRetrain width rate cxlCache s
  | .powerWarn vin => Sys2Proof.Machine.execPowerWarn vin s
  | .powerWarnClear vin => Sys2Proof.Machine.execPowerWarnClear vin s
  | .inputInterruption => Sys2Proof.Machine.execInputInterruption s
  | .powerLoss => Sys2Proof.Machine.execPowerLoss s
  | .phaseFault phase => Sys2Proof.Machine.execPhaseFault phase s
  | .railFault => Sys2Proof.Machine.execRailFault s
  | .cxlLinkLoss => Sys2Proof.Machine.execCxlLinkLoss s
  | .layerOvertemp q layer quarterDegrees => Sys2Proof.Machine.execLayerOvertemp q layer quarterDegrees s
  | .wearThreshold domain unit => Sys2Proof.Machine.execWearThreshold domain unit s
  | .escalation domain unit => Sys2Proof.Machine.execEscalation domain unit s
  | .coreWatchdog core => Sys2Proof.Machine.execCoreWatchdog core s
  | .coreRestartDone core passed => Sys2Proof.Machine.execCoreRestartDone core passed s
  | .channelTrainingLoss tier channel => Sys2Proof.Machine.execChannelTrainingLoss tier channel s
  | .channelRetrained tier channel => Sys2Proof.Machine.execChannelRetrained tier channel s
  | .fatalFault cause domain hasQuad => Sys2Proof.Machine.execFatalFault cause domain hasQuad s
  | .dumpDone hostWriteFailed => Sys2Proof.Machine.execDumpDone hostWriteFailed s
  | .attentionPress heldMs => Sys2Proof.Machine.execAttentionPress heldMs s
  | .latchOpen => Sys2Proof.Machine.execLatchOpen s
  | .latchClose => Sys2Proof.Machine.execLatchClose s
  | .latchTimeout => Sys2Proof.Machine.execLatchTimeout s
  | .refInLock steer => Sys2Proof.Machine.execRefInLock steer s
  | .refInLoss => Sys2Proof.Machine.execRefInLoss s
  | .ppsOut => Sys2Proof.Machine.execPpsOut s
  | .timeRequest => Sys2Proof.Machine.execTimeRequest s
  | .timeReply head body => Sys2Proof.Machine.execTimeReply head body s
  | .timeSet value => Sys2Proof.Machine.execTimeSet value s
  | .portEnable port cableOk => Sys2Proof.Machine.execPortEnable port cableOk s
  | .portDisable port => Sys2Proof.Machine.execPortDisable port s
  | .retrain port => Sys2Proof.Machine.execRetrain port s
  | .trainingDone port rx tx hello => Sys2Proof.Machine.execTrainingDone port rx tx hello s
  | .laneLockLoss port replays => Sys2Proof.Machine.execLaneLockLoss port replays s
  | .laneErrorPeriod port errors => Sys2Proof.Machine.execLaneErrorPeriod port errors s
  | .flitReceive port flit => Sys2Proof.Machine.execFlitReceive port flit s
  | .ackTimer port => Sys2Proof.Machine.execAckTimer port s
  | .roleSet head grant => Sys2Proof.Machine.execRoleSet head grant s
  | .roleAck head position accepted => Sys2Proof.Machine.execRoleAck head position accepted s
  | .resolve head byPosition which => Sys2Proof.Machine.execResolve head byPosition which s
  | .resolveReply head moduleId epoch found => Sys2Proof.Machine.execResolveReply head moduleId epoch found s
  | .stepPlan head plan => Sys2Proof.Machine.execStepPlan head plan s
  | .evacuate head phase worker spare => Sys2Proof.Machine.execEvacuate head phase worker spare s
  | .ready head body => Sys2Proof.Machine.execReady head body s
  | .readyTimeout missing => Sys2Proof.Machine.execReadyTimeout missing s
  | .joinTimeout position => Sys2Proof.Machine.execJoinTimeout position s
  | .start head startTime => Sys2Proof.Machine.execStart head startTime s
  | .abort head => Sys2Proof.Machine.execAbort head s
  | .act head buffer data => Sys2Proof.Machine.execAct head buffer data s
  | .read head => Sys2Proof.Machine.execRead head s
  | .readData head status data => Sys2Proof.Machine.execReadData head status data s
  | .write head data => Sys2Proof.Machine.execWrite head data s
  | .writeAck head status => Sys2Proof.Machine.execWriteAck head status s
  | .atomic head elemType data => Sys2Proof.Machine.execAtomic head elemType data s
  | .pageData head lgn fill content => Sys2Proof.Machine.execPageData head lgn fill content s
  | .pageAck head lgns => Sys2Proof.Machine.execPageAck head lgns s
  | .bulkData head block offset content => Sys2Proof.Machine.execBulkData head block offset content s
  | .requestTimeout destination tag => Sys2Proof.Machine.execRequestTimeout destination tag s
  | .raGo => Sys2Proof.Machine.execRaGo s
  | .becomeDomainManager => Sys2Proof.Machine.execBecomeDomainManager s
  | .returnToStandalone => Sys2Proof.Machine.execReturnToStandalone s
  | .evacuationWipe => Sys2Proof.Machine.execEvacuationWipe s
  | .ideStreamInsecure stream => Sys2Proof.Machine.execIdeStreamInsecure stream s
  | .provision c => Sys2Proof.Machine.execProvision c s
  | .activate c => Sys2Proof.Machine.execActivate c s
  | .deactivate c => Sys2Proof.Machine.execDeactivate c s
  | .debugEnter c => Sys2Proof.Machine.execDebugEnter c s
  | .debugExit c => Sys2Proof.Machine.execDebugExit c s
  | .rmaEnter c => Sys2Proof.Machine.execRmaEnter c s
  | .rmaExit c => Sys2Proof.Machine.execRmaExit c s
  | .retire c => Sys2Proof.Machine.execRetire c s
  | .enroll c => Sys2Proof.Machine.execEnroll c s
  | .revoke c => Sys2Proof.Machine.execRevoke c s
  | .fwUpdate c bundle => Sys2Proof.Machine.execFwUpdate c bundle s
  | .commitSvn c => Sys2Proof.Machine.execCommitSvn c s
  | .getVersion fn => Sys2Proof.Machine.execGetVersion fn s
  | .getCapabilities fn => Sys2Proof.Machine.execGetCapabilities fn s
  | .negotiateAlgorithms fn => Sys2Proof.Machine.execNegotiateAlgorithms fn s
  | .getDigests fn => Sys2Proof.Machine.execGetDigests fn s
  | .getCertificate fn certSlot offset length => Sys2Proof.Machine.execGetCertificate fn certSlot offset length s
  | .challenge fn certSlot nonce => Sys2Proof.Machine.execChallenge fn certSlot nonce s
  | .getMeasurements fn index signed nonce => Sys2Proof.Machine.execGetMeasurements fn index signed nonce s
  | .keyExchange fn certSlot share => Sys2Proof.Machine.execKeyExchange fn certSlot share s
  | .finish fn session macOk => Sys2Proof.Machine.execFinish fn session macOk s
  | .heartbeat fn session => Sys2Proof.Machine.execHeartbeat fn session s
  | .keyUpdate fn session operation => Sys2Proof.Machine.execKeyUpdate fn session operation s
  | .endSession fn session => Sys2Proof.Machine.execEndSession fn session s
  | .getPqSignature fn => Sys2Proof.Machine.execGetPqSignature fn s
  | .getPqCertificate fn offset => Sys2Proof.Machine.execGetPqCertificate fn offset s
  | .sidebandPowerRead command => Sys2Proof.Machine.execSidebandPowerRead command s
  | .sidebandBmcLimit value => Sys2Proof.Machine.execSidebandBmcLimit value s
  | .sidebandIndicators value => Sys2Proof.Machine.execSidebandIndicators value s
  | .sidebandColdReset => Sys2Proof.Machine.execSidebandColdReset s
  | .sidebandWarmReset => Sys2Proof.Machine.execSidebandWarmReset s
  | .sidebandStatusRead => Sys2Proof.Machine.execSidebandStatusRead s
  | .sidebandCauseRead => Sys2Proof.Machine.execSidebandCauseRead s
  | .sidebandIndirectAddress value => Sys2Proof.Machine.execSidebandIndirectAddress value s
  | .sidebandIndirectRead => Sys2Proof.Machine.execSidebandIndirectRead s
  | .i3cDynamicAddress address => Sys2Proof.Machine.execI3cDynamicAddress address s
  | .fuseRead q => Sys2Proof.Machine.execFuseRead q s
  | .spareMap q layer bank => Sys2Proof.Machine.execSpareMap q layer bank s
  | .healthRead q => Sys2Proof.Machine.execHealthRead q s
  | .repairStage r => Sys2Proof.Machine.execRepairStage r s
  | .timeRequestReceived head sequence t1 requestCorrection => Sys2Proof.Machine.execTimeRequestReceived head sequence t1 requestCorrection s
  | .refInPresent => Sys2Proof.Machine.execRefInPresent s
  | .perstDeassert => Sys2Proof.Machine.execPerstDeassert s
  | .weirRefill => Sys2Proof.Machine.execWeirRefill s
  | .ideKm stream secured operation => Sys2Proof.Machine.execIdeKm stream secured operation s
  | .doeDiscovery fn index => Sys2Proof.Machine.execDoeDiscovery fn index s

end Sys2Proof.Machine
end

