-- ==== Sys2Proof/Safety.lean ====
section
/-! DEFINITION. What counts as a safe run of the block, in the terms the claims use: memories in canonical form, a
clock inside its counter, and what a command completing means. -/

namespace Sys2Proof.Machine

/-- The device-physical contents, the device-held contents and the host's memory are in canonical form. -/
def MemoryForm (s : State) : Prop :=
  Memory.wf s.mem = true ∧ Memory.wf s.bank = true ∧ Memory.wf s.host.mem = true

/-- The time counter is a number of 112 bits in 2^-48 ns and the phase one of the six aclk between two reference edges
(R343, R344). -/
def ClockForm (s : State) : Prop := s.clock.count < 2 ^ 112 ∧ s.clock.phase < 6

/-- What every state reached by a step has. -/
def Formed (s : State) : Prop := MemoryForm s ∧ ClockForm s

/-- A command completes in a state: a next state, no fault and no refusal. -/
def Completes (c : Instr) (s : State) : Prop := ∃ t, exec c s = .next t

/-- The commands that may reset the module, or bring it up or down (chapter 16): resets from a register, a pin or the
sideband, boot and power events, and the signed commands, whose transitions and updates act by a cold reset (R378, R383). -/
def mayReset : Instr → Bool
  | .coldReset _ | .warmReset _ | .functionLevelReset _ | .powerOn _ | .powerLoss | .perstDeassert
  | .trainingComplete _ _ _ | .wipeDone | .registerWrite _ _ _ _
  | .sidebandColdReset | .sidebandWarmReset | .provision _ | .activate _ | .deactivate _
  | .debugEnter _ | .debugExit _ | .rmaEnter _ | .rmaExit _ | .retire _ | .fwUpdate _ _ => true
  | _ => false

/-- The commands that change a fuse or a seal without a reset: COMMIT_SVN and the write of SEAL_SET. -/
def mayFuse : Instr → Bool
  | .commitSvn _ | .sealSet _ => true
  | _ => false

/-- The commands of hosts, engines and groups that a module takes only while it serves: powered, booted, no FATAL fault
(R373, R405). -/
def needsService : Instr → Bool
  | .openSeq _ | .append _ | .pause _ | .resume _ | .cancel _ | .close _ | .exportPrefix _ | .importPrefix _ |
    .dropPrefix _ | .embedLookup _ | .query _ | .fence _ | .loadModel _ | .unloadModel _ | .loadAdapter _ |
    .unloadAdapter _ | .loadTable _ | .replay _ | .setTenant _ | .loadFinish _ | .sweepDone _ _ | .stepBoundary _ |
    .waitPeriod | .stepStart _ | .routingPoint _ _ | .holdPoint _ | .holdTimeout _ | .hostWindow _ _ |
    .timingFault _ _ _ | .controlFault _ _ _ _ | .dataError _ _ _ | .refetchDone _ _ | .promotionDone _ _ |
    .demotionDone _ _ | .spillDone _ | .prefetchDone _ _ | .tailCopyDone _ | .diversionCopyDone _ _ _ |
    .prefixHashDone _ _ | .prefixLookupDone _ | .scrubPass _ | .vectorTimeThreshold _ _ | .phaseFault _ |
    .layerOvertemp _ _ _ | .wearThreshold _ _ | .escalation _ _ | .coreWatchdog _ | .coreRestartDone _ _ |
    .channelTrainingLoss _ _ | .channelRetrained _ _ | .stepPlan _ _ | .evacuate _ _ _ _ | .ready _ _ |
    .readyTimeout _ | .joinTimeout _ | .start _ _ | .abort _ | .act _ _ _ | .pageData _ _ _ _ | .pageAck _ _ |
    .bulkData _ _ _ _ | .evacuationWipe => true
  | _ => false

/-- The writes of registers outside the global block and the security mailbox (R379, R382). -/
def needsExposure : Instr → Bool
  | .sluiceSeal _ | .sluiceUnseal _ | .sluiceRelease _ | .qpEnable _ _ _ | .qpDisable _ _ _ |
    .moderationWrite _ _ _ _ _ | .msixUnmask _ _ | .latchCapture _ _ _ _ | .tenantSeal _ _ | .timeSet _ |
    .portEnable _ _ | .portDisable _ | .retrain _ | .raGo | .becomeDomainManager | .returnToStandalone => true
  | _ => false

/-- The requests of attestation and of IDE keys, which need the keys that the boot derives (R382, R384). -/
def needsSecrets : Instr → Bool
  | .getVersion _ | .getCapabilities _ | .negotiateAlgorithms _ | .getDigests _ | .getCertificate _ _ _ _ |
    .challenge _ _ _ | .getMeasurements _ _ _ _ | .keyExchange _ _ _ | .finish _ _ _ | .heartbeat _ _ |
    .keyUpdate _ _ _ | .endSession _ _ | .getPqSignature _ | .getPqCertificate _ _ | .ideKm _ _ _ => true
  | _ => false

/-- The commands of descriptors taking effect, for one fetched descriptor. -/
def descriptorCommands (d : Fetched) : List Instr :=
  [.openSeq d, .append d, .pause d, .resume d, .cancel d, .close d, .exportPrefix d,
    .importPrefix d, .dropPrefix d, .embedLookup d, .query d, .fence d, .loadModel d, .unloadModel d,
    .loadAdapter d, .unloadAdapter d, .loadTable d, .replay d, .setTenant d]

/-- The commands that read a doorbell line: they carry host software's changes to its own memory, which need no power. -/
def bringsHostChanges : Instr → Bool
  | .doorbellInvalidate _ _ _ | .doorbellPoll _ _ _ | .atsInvalidation _ _ _ _ => true
  | _ => false

/-- A CXL.mem access is one line of the 4 TiB range (R244); every other command is a whole event. -/
def carried : Instr → Bool
  | .cxlMemRead a => lineOk a
  | .cxlMemWrite a data => lineOk a && data.length == 64
  | _ => true

/-- The CXL.mem commands, whose form `carried` says. -/
def isCxlMem : Instr → Bool
  | .cxlMemRead _ | .cxlMemWrite _ _ => true
  | _ => false

/-- A life-cycle command of Table 15-4: the record, the states it leads from, the state it leads into. -/
def lifeStep : Instr → Option (SignedCommand × List LifeCycle × LifeCycle)
  | .provision c => some (c, [.blank], .provisioned)
  | .activate c => some (c, [.provisioned], .operational)
  | .deactivate c => some (c, [.operational], .provisioned)
  | .debugEnter c => some (c, [.provisioned, .operational], .debug)
  | .debugExit c => some (c, [.debug], .provisioned)
  | .rmaEnter c => some (c, [.provisioned, .operational, .debug], .rma)
  | .rmaExit c => some (c, [.rma], .blank)
  | .retire c => some (c, [.blank, .provisioned, .operational, .debug, .rma], .retired)
  | _ => none

/-- The path on which a tenant writes its own fields: the PF for tenant 0, its VF otherwise (Table 18-1). -/
def ownPath (t : Nat) : RegPath := if t = 0 then .pf else .vf t

/-- The vectors of a tenant whose message is owed and can be sent (R457), by rising number. -/
def owedVectors (s : State) (t : Nat) : List Nat :=
  (List.range 64).filter fun v => (s.vector t v).pba && sendable (s.tenant t) v

/-- The message a vector sends. -/
def messageOf (s : State) (t v : Nat) : MsixMessage :=
  { tenant := t, vector := v, address := (s.vector t v).address, data := (s.vector t v).data }

/-- What a read of a doorbell line that holds `bs` does (R31, R39, R41): the tail and the head it shows are taken; a tail
behind what has been fetched, or further ahead than the SQ is long, and a head past what has been written put the queue
pair into ERROR and fetch nothing; otherwise descriptors are taken in SQ order behind those waiting. No other queue pair
and nothing else but counts and interrupts changes. -/
def LineRead (t q : Nat) (bs : List Byte) (s x : State) : Prop :=
  let old := s.qp t q
  let new := x.qp t q
  let ahead := countDiff (leAt bs 0 4) old.fetched
  let long := ahead < 0 ∨ (s.sqSize t q : Int) < ahead
  let past := countDiff old.written (leAt bs 4 4) < 0
  new.tail = leAt bs 0 4 ∧ new.head = leAt bs 4 4 ∧ new.held = !old.polled ∧ new.written = old.written ∧
    new.running = old.running ∧
    (long → new.state = .error ∧ new.reason = rsSqOverflow ∧ new.queue = old.queue ∧ new.fetched = old.fetched) ∧
    (¬long → past → new.state = .error ∧ new.reason = rsCqHead ∧ new.queue = old.queue ∧ new.fetched = old.fetched) ∧
    (¬long → ¬past → ∃ l, new.queue = old.queue ++ l ∧ new.fetched = old.fetched + l.length ∧
      ∀ i d, l[i]? = some d → d.tenant = t ∧ d.qp = q ∧ d.index = old.fetched + i) ∧
    (∀ u r, r < 16 → (u, r) ≠ (t, q) → x.qp u r = s.qp u r) ∧
    x = { s with qps := x.qps, tenants := x.tenants, out := x.out }

/-- What the firing of a vector does (R435, R457): PENDING falls to 0, and its message goes out if the function and the entry
let it, otherwise its PBA bit is set and nothing is sent. -/
def Fired (t v : Nat) (s x : State) : Prop :=
  (x.vector t v).pending = 0 ∧
    (sendable (s.tenant t) v = true → (x.vector t v).pba = false ∧ x.out = { s.out with msix := messageOf s t v :: s.out.msix }) ∧
    (sendable (s.tenant t) v = false → (x.vector t v).pba = true ∧ x.out = s.out)

/-- What sending a message does (R321): it goes out on the port its route gives and changes only that port, or, where no
route leads to the module it names, it is discarded and its flits are counted. -/
def Sent (m : SentMsg) (s x : State) : Prop :=
  (m.destination = s.moduleId ∨ (routePort s s.moduleId m.destination).isSome = true →
    x = { s with ports := x.ports, out := { s.out with nuxus := m :: s.out.nuxus } }) ∧
  (m.destination ≠ s.moduleId → routePort s s.moduleId m.destination = none →
    x = { s with junction := { s.junction with routeDiscarded := s.junction.routeDiscarded + flitsOf (messageBytes m) } })

/-- The response to a message: to its sender, under its tag (Table 12-4). -/
def responseTo (h : MsgHead) (kind status : Nat) (values : List Nat) (data : List Byte) : SentMsg :=
  { kind := kind, destination := h.source, tag := h.tag, epoch := 0, status := status, address := 0, values := values, data := data }

/-- A message of this module's own, on behalf of no tenant; the address is the step counter it names. -/
def messageTo (dest kind epoch step : Nat) (values : List Nat) : SentMsg :=
  { kind := kind, destination := dest, tag := 0, epoch := epoch, status := 0, address := step, values := values, data := [] }

/-- A request at another epoch is answered ROLE_STALE, counted, and has no other effect (R335). -/
def StaleAnswered (h : MsgHead) (s x : State) : Prop :=
  Sent (responseTo h 0x40 stRoleStale [] []) { s with junction := { s.junction with staleRefused := (s.junction.staleRefused + 1) % 2 ^ 64 } } x

/-- The state in which a STEP_PLAN, START, ABORT or ACT of another epoch was discarded and counted (R335). -/
def staleCounted (s : State) : State := { s with junction := { s.junction with staleDiscarded := (s.junction.staleDiscarded + 1) % 2 ^ 64 } }

/-! ## Faults -/

/-- What the handling of a fault may change (chapter 14): the fault state with its logs and maps, the health record, the
channels, the phases shed, interrupts and outputs, and the step in flight, which it voids or ends. All else stands. -/
def FaultOnly (s x : State) : Prop :=
  x = { s with
    faults := x.faults, health := x.health, channels := x.channels, power := x.power, tenants := x.tenants, out := x.out,
    step := x.step, round := x.round }

/-- An event of a vector (R50, R435): it is counted in PENDING, or it meets a threshold and the vector fires at once. No other
vector and no other function changes. -/
def Raised (t v : Nat) (s x : State) : Prop :=
  (((x.vector t v).pending = (s.vector t v).pending + 1 ∧ x.out = s.out) ∨ Fired t v s x) ∧
    (∀ w, w ≠ v → x.vector t w = s.vector t w) ∧ (∀ u, u ≠ t → x.tenant u = s.tenant u)

/-- What a FATAL fault does (R373): the step in flight is gone, FATAL and its cause are set, the sideband alert is asserted,
the PF's health vector is raised, and the dump begins with the header's fields as they stand (Table 14-8). -/
def Stopped (cause : Nat) (d : DomainId) (quadrant : Nat) (s x : State) : Prop :=
  x.faults.fatal = true ∧ x.faults.cause = cause ∧ x.faults.fatalDomain = d.code ∧ x.faults.dumpDone = false ∧ x.step = none ∧ x.round = none ∧ x.out.alert = true ∧
    x.faults.dump = some
      { toReserve := false, complete := false, hostFailed := false, cause := cause, domain := d.code, quadrant := quadrant, inst := d.inst,
        time := nsOf s.now, step := s.stepCounter, position := positionOf s } ∧
    Raised 0 s.healthVector { s with out := { s.out with alert := true } } x ∧ FaultOnly s x

/-- A port becomes this; no other port changes, and nothing else but its ENABLE. -/
def PortBecomes (p : Nat) (y : Port) (s x : State) : Prop :=
  x.port p = y ∧ (∀ q, q ≠ p → x.port q = s.port q) ∧ (∀ o l d, fieldKey o l ≠ fieldKey (portBase p) 0 → x.reg o l d = s.reg o l d) ∧
    x = { s with ports := x.ports, regs := x.regs }

/-- A port that has begun to train (R307, R309, R325): no failure, no worn lane, nothing in flight. -/
def trainingPort (automatic : Nat) (y : Port) : Port :=
  { y with
    state := .training, failReason := 0, laneWear := [], wearRun := [], credits := [], unacked := [], waiting := [], sinceAck := 0, replayRun := 0,
    nextSeq := 0, lastSeq := 4095, pending := 0, autoTrainings := automatic }

/-- The lane map that one direction's lane test leaves (R307): lanes 0 to 3, or lane 4 in place of the one that failed; none
where two of lanes 0 to 3 failed or one of them together with lane 4. -/
def LaneMap (failing : List Nat) (r : Option Nat) : Prop :=
  match (List.range 4).filter (fun j => failing.contains j) with
  | [] => r = some 7
  | [j] => r = if 4 ∈ failing then none else some j
  | _ => r = none

/-! ## Signed commands -/

/-- A record that passes its checks (R380, Table 15-3): a payload of the length it names, at most 1 MiB, this device's
identity, the nonce in force, the payload's hash, reserved fields of 0. -/
def RecordGood (k : SignedCommand) (s : State) : Prop :=
  k.payloadLength ≤ 1048576 ∧ k.payload.length = k.payloadLength ∧ k.identity = Config.identityId ∧
    k.nonce = s.security.nonce ∧ k.payloadHash = sha384 k.payload ∧ k.reservedZero = true

/-- The signatures a life-cycle command needs (Table 15-4). -/
def SignedFor (c : Instr) (s : State) : Prop :=
  match c with
  | .provision k | .activate k | .deactivate k | .debugExit k => k.signedByOwner = true
  | .debugEnter k | .rmaEnter k => k.signedByOwner = true ∧ k.signedByZuloth = true
  | .rmaExit k => k.signedByZuloth = true
  | .retire k =>
    if s.security.state = .blank ∨ s.security.state = .rma then k.signedByZuloth = true else k.signedByOwner = true
  | _ => False

/-- No work keeps a change of state waiting: every context FREE, no load in progress (R381). -/
def AtRest (s : State) : Prop := (∀ x ∈ s.ctxs, x.2.state = .free) ∧ s.loads = []

/-- The end of a signed command and nothing else: the reason is reported, NONCE replaced, MB_BUSY cleared (R380, R423). -/
def MailboxEnded (reason : Nat) (s x : State) : Prop :=
  (∃ n, x.security.nonce = Config.random256 n) ∧ x = { s with
    freeIndex := x.freeIndex, out := { s.out with replies := .mailbox reason :: s.out.replies },
    security := { s.security with nonce := x.security.nonce, reason := reason, busy := false } }

/-! ## SPDM and IDE -/

/-- The security core answers SPDM (R382, R384): the module answers, is not in BOOT_FAIL and not RETIRED. -/
abbrev attests (s : State) : Prop := s.answers = true ∧ s.boot.phase ≠ .bootFail ∧ s.security.state ≠ .retired

/-- A reply is sent and nothing else happens. -/
def onlyReplies (r : Reply) (s : State) : State := { s with out := { s.out with replies := r :: s.out.replies } }

/-- The responder of a function replies and becomes what `f` makes of it; no other responder and nothing else changes. -/
def Responds (fn : Nat) (r : Reply) (f : Spdm → Spdm) (s x : State) : Prop :=
  x.spdmOf fn = f (s.spdmOf fn) ∧ (∀ g, g ≠ fn → x.spdmOf g = s.spdmOf g) ∧
    x = onlyReplies r { s with security := { s.security with spdm := x.security.spdm } }

/-- A signed response (R385): its signature of RSASSA-PSS 3072 is 384 bytes long, and what it covers is kept until the next
signed response. -/
def RespondsSigned (fn kind : Nat) (f : Spdm → Spdm) (s x : State) : Prop :=
  ∃ d g n, g.length = 384 ∧ Responds fn (.spdmSigned kind d g) (fun y => { f y with lastSigned := some d }) { s with freeIndex := n } x

/-- The IDE stream of a number becomes this; no other stream and nothing else changes. -/
def StreamBecomes (n : Nat) (y : IdeStream) (s x : State) : Prop :=
  fmFind x.security.ide n = some y ∧ (∀ m, m ≠ n → fmFind x.security.ide m = fmFind s.security.ide m) ∧
    x = { s with out := x.out, security := { s.security with ide := x.security.ide } }

/-! ## Descriptors -/

/-- A descriptor in effect: the module serves, the command names only what the LT9 has and carries the descriptor's own
opcode, and checks 1 to 7 passed at fetch. -/
def InEffect (c : Instr) (d : Fetched) (s : State) : Prop := c.wf = true ∧ s.serving = true ∧ d.early = none

/-- The module is no WORKER and no SPARE, whose sequences the manager serves (R325). -/
abbrev servesSequences (s : State) : Prop := s.junction.role ≠ .worker ∧ s.junction.role ≠ .spare

/-- An OPEN that passes checks 8 and 9 and the checks of its bitmap and vocabulary (R35, R42, R51, R52, R89, R205, R228): its
request copy is `r`, it takes context `i` for the package `p`, opens from the prefix `b` if it names one and keeps the
allowed-token bitmap `m` if it names one. -/
def OpenPasses (d : Fetched) (r : RequestCopy) (s : State) (i : Nat) (p : Package) (b : Option PrefixBinding) (m : Option (List Byte)) : Prop :=
  InEffect (.openSeq d) d s ∧ d.req = some r ∧ servesSequences s ∧
    ((rPrefixValid r.block = false ∧ b = none) ∨ (rPrefixValid r.block = true ∧ bindingFor s d.tenant (BitVec.ofNat 64 (rPrefix r.block)) = b ∧
      ∃ y, b = some y ∧ y.slot = rSlot r.block ∧ y.adapter = rAdapter r.block)) ∧
    adapterOk s d.tenant (rSlot r.block) (rAdapter r.block) = true ∧
    (b.map PrefixBinding.length).getD 0 + rPromptLen r.block + rMaxNew r.block ≤ 1048576 ∧ takeCtx s = some i ∧
    s.ctxCount d.tenant < (s.tenant d.tenant).ctxQuota ∧ rClass r.block ≤ (s.tenant d.tenant).highest ∧
    (s.slot (rSlot r.block)).state = .ready ∧ (s.slot (rSlot r.block)).package = some p ∧
    ((rBitmap r.block = false ∧ m = none) ∨ (rBitmap r.block = true ∧ m.isSome = true ∧
      readHost s d.tenant (rAllowedAddr r.block) (ceilDiv p.vocabulary 512 * 64) = m)) ∧
    vocabularyFault r p.vocabulary = none

/-- The live sequences of a model slot whose home is a quadrant. -/
def livesIn (s : State) (k q : Nat) : Nat := (s.ctxs.filter fun x => x.2.state.live && x.2.slot == k && x.2.home == q).length

/-- The handle in a completion: the descriptor's own where its opcode carries one, else 0 (Table 02-5). -/
def ownHandle (d : Fetched) : Nat := if carriesHandle d.desc then dHandle d.desc else 0

/-- The completion of a descriptor (Table 02-5). -/
def completionOf (d : Fetched) (status detail handle : Nat) (result : BitVec 128) : Completion :=
  { tenant := d.tenant, qp := d.qp, index := d.index, cmdId := dCmdId d.desc, status := status, detail := detail, handle := handle,
    final := false, late := false, noIrq := dNoIrq d.desc, result := result }

/-- The state in which a descriptor has left its queue with this completion and had no other effect. -/
def answered (d : Fetched) (status detail handle : Nat) (result : BitVec 128) (s : State) : State :=
  { consume d s with outbox := s.outbox ++ [completionOf d status detail handle result] }

/-- The state in which a descriptor has left its queue and waits to complete. -/
def inProgress (d : Fetched) (s : State) : State := startRunning d (consume d s)

end Sys2Proof.Machine
end

