-- ==== Sys2Proof/Certificates/Slice0/Obligations.lean ====
section
/-! DEFINITION. The statements about the block that the provers settle: the whole block first, then every family of
commands, each with the rules of the spec it formalises. -/

open Sys2Proof Sys2Proof.Machine

/-! ## The block as a whole -/

/-- R25, chapter 95: the block takes the oldest waiting command and runs it on the state with the queue's rest. -/
def Obligations.StepRunsTheFrontCommand : Prop :=
  ∀ (c : Instr) (r : List Instr) (s : State), s.pending = c :: r → step s = exec c { s with pending := r }

/-- With nothing waiting one slot of 64 aclk passes in a module whose registers answer, six aclk to a reference edge (R7,
R344); in one whose registers do not answer nothing happens. That a slot passes is the model's choice (log 4). -/
def Obligations.EmptyQueuePassesOneSlot : Prop :=
  ∀ s : State, s.pending = [] →
    (s.answers = true → step s = .next { s with clock := { s.clock with count := (s.clock.count + (s.clock.phase + 64) / 6 * s.clock.increment) % 2 ^ 112, phase := (s.clock.phase + 64) % 6 } }) ∧
    (s.answers = false → step s = .next s)

/-- What the spec says of the state after reset (R38, R51, Tables 13-3, 16-5, 17-2 to 18-9): no command waits, no seal is
set, no queue pair is enabled, every context is FREE, every slot EMPTY, every block UNMAPPED, every port DOWN, tenant 0 has
its parameters and no other tenant has any, the module is STANDALONE at epoch 0, device time and STEP_COUNTER are 0. -/
def Obligations.ResetLeavesTheResetValues : Prop :=
  State.reset.pending = [] ∧ State.reset.seals = 0 ∧ State.reset.stepCounter = 0 ∧ State.reset.boundary = 0 ∧
    (∀ t q, (State.reset.qp t q).state = .disabled) ∧
    (∀ i, (State.reset.ctx i).state = .free) ∧
    (∀ k, (State.reset.slot k).state = .empty) ∧
    (∀ n, (State.reset.block n).state = .unmapped) ∧
    (∀ p, (State.reset.port p).state = .down) ∧
    (∀ t, (State.reset.tenant t).sealed = false ∧ ((State.reset.tenant t).params.isSome ↔ t = 0)) ∧
    (State.reset.tenant 0).enabled = true ∧ (State.reset.tenant 0).qpQuota = 16 ∧ (State.reset.tenant 0).highest = 3 ∧
    (State.reset.tenant 0).ctxQuota = 65536 ∧ (State.reset.tenant 0).limited = false ∧
    State.reset.junction.role = .standalone ∧ State.reset.junction.epoch = 0 ∧
    State.reset.clock.count = 0 ∧ State.reset.clock.increment = 0x000A000000000000 ∧ State.reset.clock.steer = 0 ∧
    State.reset.faults.fatal = false ∧ State.reset.faults.dumpDone = false ∧ State.reset.power.bmcLimit = 2600 ∧
    (∀ a, memByte State.reset.mem a = 0)

/-- The state after reset is well formed: its memories are in canonical form, its clock inside the counter. -/
def Obligations.ResetIsFormed : Prop := Formed State.reset

/-- Every step, of a command or of an empty queue, keeps the canonical form of the device-physical contents, of the
device-held contents and of the host's memory, and the time counter inside its 112 bits with a phase below 6 (R343, R344):
from every state, not only from those a run reaches. -/
def Obligations.EveryStepKeepsTheForm : Prop :=
  ∀ s t : State, Formed s → step s = .next t → Formed t

/-- No command touches the queue of waiting commands. -/
def Obligations.CommandsLeaveTheQueueAlone : Prop :=
  ∀ (c : Instr) (s t : State), exec c s = .next t → t.pending = s.pending

/-- A command completes in every state where it names only what the LT9 has and, for a CXL.mem access, is a line of the
range; where it does not, the model stops by name. Nothing else ever stops a command, and nothing is refused. -/
def Obligations.WellFormedCommandsComplete : Prop :=
  ∀ (c : Instr) (s : State),
    (c.wf = true → carried c = true → Completes c s) ∧
    (isCxlMem c = false → c.wf = false → exec c s = .fault .noSuchUnit) ∧
    (carried c = false → exec c s = .fault .outsideRange)

/-- Table 17-2, R416: a write of SEAL_SET adds to the seals; no other command sets a seal but a register write, and no
command that cannot reset the module clears one. -/
def Obligations.OnlyAResetClearsASeal : Prop :=
  ∀ (c : Instr) (s t : State), mayReset c = false → exec c s = .next t →
    t.seals = s.seals ∨ ∃ bits, c = .sealSet bits ∧ t.seals = s.seals ||| bits

/-- R381, Table 15-4: the life-cycle state and LC_COUNT change only by one of the eight signed commands, from a state the
table lists for it into the state the table gives it, counted once, with the record's nonce in force and its identity this
device's, with every context FREE and no load waiting, and after the 63rd transition by RETIRE alone. -/
def Obligations.LifeCycleChangesOnlyBySignedCommands : Prop :=
  ∀ (c : Instr) (s t : State), exec c s = .next t →
    (t.security.state = s.security.state ∧ t.security.count = s.security.count) ∨
    ∃ k l b, lifeStep c = some (k, l, b) ∧ s.security.state ∈ l ∧ t.security.state = b ∧
      t.security.count = s.security.count + 1 ∧ k.nonce = s.security.nonce ∧ k.identity = Config.identityId ∧
      (s.ctxs.all fun x => decide (x.2.state = .free)) = true ∧ s.loads = [] ∧ (s.security.count < 63 ∨ b = .retired)

/-- What is fused is not undone by any command, a reset or a power loss among them: the transition count and the minimum
security version never fall, the grade and the fused-off positions never change (Table 15-4, R382, R2). -/
def Obligations.FusesNeverFall : Prop :=
  ∀ (c : Instr) (s t : State), exec c s = .next t →
    s.security.count ≤ t.security.count ∧ s.security.minSvn ≤ t.security.minSvn ∧
      t.security.gradeS = s.security.gradeS ∧ t.security.fusedPos = s.security.fusedPos

/-- R373: FATAL stands until a reset. -/
def Obligations.OnlyAResetClearsFatal : Prop :=
  ∀ (c : Instr) (s t : State), mayReset c = false → exec c s = .next t → s.faults.fatal = true → t.faults.fatal = true

/-- R391, R405: with every rail off nothing happens in the module but power-on; the commands that stand for a host write
or an invalidation change host memory and its IOMMU, and drop the doorbell lines they name, and nothing else. -/
def Obligations.NothingHappensWithoutPower : Prop :=
  ∀ (c : Instr) (s t : State), s.power.on = false → exec c s = .next t →
    (∃ b, c = .powerOn b) ∨ t = s ∨
    (bringsHostChanges c = true ∧ ∃ h q, t = { s with host := h, qps := q })

/-- R373, R379, R382, R405: a module that is off, held, booting, wiping, in BOOT_FAIL or FATAL takes no descriptor, runs no
step and no transfer and answers no message of its group; in BOOT_FAIL and RETIRED only the global block and the security
mailbox are exposed, and nothing is attested. -/
def Obligations.NothingIsServedUnlessReady : Prop :=
  ∀ (c : Instr) (s t : State), exec c s = .next t →
    (needsService c = true → s.serving = false → t = s) ∧
    (needsExposure c = true → s.exposed = false → t = s) ∧
    (needsSecrets c = true → s.boot.phase = .bootFail ∨ s.security.state = .retired → t = s) ∧
    (∀ path o n v, c = .registerWrite path o n v → s.exposed = false → alwaysExposed path o = false → t = s)


/-! ## Queues and descriptors -/

/-- R31, R39, R40, R41: an invalidation of a line in cached mode and an expired polling interval in polled mode read the
line of an ACTIVE queue pair that the tenant can reach; the other of the two only brings the host's changes. -/
def Obligations.DoorbellReadTakesTailAndHead : Prop :=
  ∀ (t q : Nat) (u : HostUpdate) (s : State) (bs : List Byte), t < 256 → q < 16 → (s.qp t q).state = .active →
    lineReadable s t = true → readHost (hostChange u s) t (s.dbAddr t q) 64 = some bs →
    ((s.qp t q).polled = false → (∃ x, exec (.doorbellInvalidate t q u) s = .next x ∧ LineRead t q bs (hostChange u s) x) ∧
      exec (.doorbellPoll t q u) s = .next (hostChange u s)) ∧
    ((s.qp t q).polled = true → (∃ x, exec (.doorbellPoll t q u) s = .next x ∧ LineRead t q bs (hostChange u s) x) ∧
      exec (.doorbellInvalidate t q u) s = .next (hostChange u s))

/-- R39, R49: an ATS invalidation that covers the line of one queue pair makes the LT9 translate it again and read it
again; one whose new translation fails puts the queue pair into ERROR with DB_FAULT; one that covers no line changes the
host's side only. -/
def Obligations.InvalidatedLineIsReadAgain : Prop :=
  ∀ (p b n t q : Nat) (u : HostUpdate) (s : State), p < 2 ^ 20 → t < 256 → q < 16 →
    (coveredQps (hostChange u s) p b n = [] → exec (.atsInvalidation p b n u) s = .next (hostChange u s)) ∧
    (coveredQps (hostChange u s) p b n = [(t, q)] → (s.qp t q).state = .active → (s.qp t q).polled = false → lineReadable s t = true →
      (translates (hostChange u s) t (s.dbAddr t q) 64 false = false → ∃ x, exec (.atsInvalidation p b n u) s = .next x ∧
        (x.qp t q).state = .error ∧ (x.qp t q).reason = rsDbFault ∧ (x.qp t q).held = false ∧ (x.qp t q).queue = (s.qp t q).queue ∧
        (∀ v r, r < 16 → (v, r) ≠ (t, q) → x.qp v r = s.qp v r) ∧
        x = { hostChange u s with qps := x.qps, tenants := x.tenants, out := x.out }) ∧
      (∀ bs, readHost (hostChange u s) t (s.dbAddr t q) 64 = some bs → ∃ x, exec (.atsInvalidation p b n u) s = .next x ∧
        LineRead t q bs (hostChange u s) x ∧ (x.qp t q).line = (translate (hostChange u s).host.ranges p (s.dbAddr t q)).getD 0))

/-- R29, R379, R432, Table 18-4: ENABLE written 1 on a DISABLED queue pair that passes every check makes it ACTIVE with
counts of 0, in polled mode at once without a read of its line; otherwise it stays DISABLED and STATE shows the reason: NOT_READY
before READY and under FATAL, LIFECYCLE for a tenant above 0 outside OPERATIONAL, RESETTING, QUOTA. -/
def Obligations.EnableMakesAQueuePairActive : Prop :=
  ∀ (t q : Nat) (s : State), t < 256 → q < 16 → s.exposed = true → (s.qp t q).state = .disabled →
    (enableReason s t q = 0 → s.dbMode t q = 1 ∨ s.boot.cxlCache = false →
      exec (.qpEnable (ownPath t) t q) s = .next (modQp t q (fun _ => { freshQp with state := .active, polled := true, line := (translate s.host.ranges (s.pasid t) (s.dbAddr t q)).getD 0 }) s)) ∧
    (enableReason s t q = 0 → s.dbMode t q ≠ 1 → s.boot.cxlCache = true → lineReadable s t = true →
      ∀ bs, readHost s t (s.dbAddr t q) 64 = some bs → ∃ x, exec (.qpEnable (ownPath t) t q) s = .next x ∧ (x.qp t q).polled = false ∧
        LineRead t q bs (modQp t q (fun _ => { freshQp with state := .active }) s) x) ∧
    (enableReason s t q ≠ 0 → exec (.qpEnable (ownPath t) t q) s = .next (modQp t q (fun x => { x with reason := enableReason s t q }) s)) ∧
    (s.serving = false → enableReason s t q = rsNotReady) ∧
    (s.serving = true → t ≠ 0 → s.security.state ≠ .operational → enableReason s t q = rsLifecycle) ∧
    (s.serving = true → t = 0 ∨ s.security.state = .operational →
      ((s.tenant t).resetPending = true → enableReason s t q = rsResetting) ∧
      ((s.tenant t).resetPending = false → (s.tenant t).qpQuota ≤ qpsInUse s t → enableReason s t q = rsQuota))

/-- R32, R432, R404: ENABLE written 0 on an ACTIVE queue pair or one in ERROR makes STATE read STOPPING and changes nothing
else; on a DISABLED or STOPPING one it changes nothing; while the tenant is being reset it is refused with kind 11. -/
def Obligations.DisableBeginsToStop : Prop :=
  ∀ (t q : Nat) (s : State), t < 256 → q < 16 → s.exposed = true →
    ((s.tenant t).resetPending = false →
      ((s.qp t q).state = .active ∨ (s.qp t q).state = .error →
        exec (.qpDisable (ownPath t) t q) s = .next (modQp t q (fun x => { x with state := .stopping }) s)) ∧
      ((s.qp t q).state = .disabled ∨ (s.qp t q).state = .stopping → exec (.qpDisable (ownPath t) t q) s = .next s)) ∧
    ((s.tenant t).resetPending = true →
      exec (.qpDisable (ownPath t) t q) s = .next (refuseWrite (ownPath t) (pathOffset (ownPath t) t (0x128 + 0x100 * q)) 11 s))


/-! ## Registers and interrupts -/

/-- R435: a write of MOD_COUNT and MOD_TIME that changes one of them takes effect at once: a vector whose pending events meet
the new count, or whose oldest has waited the new time, fires; one without pending events does not. A MOD_COUNT of 0 or
above 256 is refused with kind 7. -/
def Obligations.ModerationWriteTakesEffectAtOnce : Prop :=
  ∀ (t v n k : Nat) (s : State), t < 256 → v < 64 → n < 512 → k < 1024 → s.exposed = true → (s.tenant t).resetPending = false →
    (1 ≤ n → n ≤ 256 → n ≠ s.modCount t v ∨ k ≠ s.modTime t v → ∃ x, exec (.moderationWrite (ownPath t) t v n k) s = .next x ∧
      x.modCount t v = n ∧ x.modTime t v = k ∧
      ((s.vector t v).pending ≠ 0 → n ≤ (s.vector t v).pending ∨ (s.vector t v).oldest + ofNs (1000 * k) ≤ s.now → Fired t v s x) ∧
      ((s.vector t v).pending = 0 → x.vector t v = s.vector t v ∧ x.out = s.out) ∧
      (∀ w, w ≠ v → x.vector t w = s.vector t w) ∧ (∀ u, u ≠ t → x.tenant u = s.tenant u) ∧
      x = { s with regs := x.regs, halves := x.halves, tenants := x.tenants, out := x.out }) ∧
    (n ≠ s.modCount t v → n = 0 ∨ 256 < n → k = s.modTime t v →
      ∃ x, exec (.moderationWrite (ownPath t) t v n k) s = .next x ∧ x.modCount t v = s.modCount t v ∧
        x = refuseWrite (ownPath t) (pathOffset (ownPath t) t (0x3100 + 4 * v)) 7 { s with halves := x.halves })

/-- R50, R435: a vector whose oldest pending event has waited MOD_TIME fires; one without a pending event does not. -/
def Obligations.VectorFiresAtItsTimeThreshold : Prop :=
  ∀ (t v : Nat) (s : State), t < 256 → v < 64 → s.serving = true →
    ((s.vector t v).pending ≠ 0 → (s.vector t v).oldest + ofNs (1000 * s.modTime t v) ≤ s.now →
      ∃ x, exec (.vectorTimeThreshold t v) s = .next x ∧ Fired t v s x ∧ (∀ w, w ≠ v → x.vector t w = s.vector t w) ∧
        (∀ u, u ≠ t → x.tenant u = s.tenant u) ∧ x = { s with tenants := x.tenants, out := x.out }) ∧
    ((s.vector t v).pending = 0 → exec (.vectorTimeThreshold t v) s = .next s)

/-- R435, R457: once a change of the capability or of a table entry makes them sendable, every vector whose PBA bit is set
sends its one owed message, in the order of their numbers, and clears the bit; PENDING keeps what it holds, and the other
bits stand. -/
def Obligations.UnmaskedVectorsSendEachOwedMessageOnce : Prop :=
  ∀ (t : Nat) (c : MsixChange) (s : State), t < 256 → c.wf = true → s.exposed = true → (s.tenant t).resetPending = false →
    let changed := match c with
      | .capability enable mask => modTenant t (fun x => { x with msixEnable := enable, functionMask := mask }) s
      | .entry v address data masked => modVector t v (fun e => { e with address := address, data := data, masked := masked }) s
    ∃ x, exec (.msixUnmask t c) s = .next x ∧
      x.out = { s.out with msix := ((owedVectors changed t).map (messageOf changed t)).reverse ++ s.out.msix } ∧
      (∀ v, (x.vector t v).pending = (s.vector t v).pending ∧
        (x.vector t v).pba = ((s.vector t v).pba && !(owedVectors changed t).contains v)) ∧
      (∀ u, u ≠ t → x.tenant u = s.tenant u) ∧ x = { s with tenants := x.tenants, out := x.out }

/-- R347: CAPTURE copies device time, whole nanoseconds and fraction with TIME_LOCKED, into each latch whose bit is written 1
and counts the capture; the other latch keeps its value. -/
def Obligations.CaptureCopiesDeviceTime : Prop :=
  ∀ (t : Nat) (bits : BitVec 2) (s : State), t < 256 → s.exposed = true →
    let taken (b : Bool) (x : Latch) : Latch :=
      if b then { ns := nsOf s.now % 2 ^ 64, frac := s.now % 65536, count := (x.count + 1) % 2 ^ 32, locked := s.clock.timeLocked } else x
    (∃ x, exec (.latchCapture .pf true t bits) s = .next x ∧ x.clock.latch0 = taken (bits.getLsbD 0) s.clock.latch0 ∧
      x.clock.latch1 = taken (bits.getLsbD 1) s.clock.latch1 ∧
      x = { s with halves := x.halves, clock := { s.clock with latch0 := x.clock.latch0, latch1 := x.clock.latch1 } }) ∧
    ((s.tenant t).resetPending = false → ∃ x, exec (.latchCapture (ownPath t) false t bits) s = .next x ∧
      x.tenant t = { s.tenant t with latch0 := taken (bits.getLsbD 0) (s.tenant t).latch0, latch1 := taken (bits.getLsbD 1) (s.tenant t).latch1 } ∧
      (∀ u, u ≠ t → x.tenant u = s.tenant u) ∧ x = { s with halves := x.halves, tenants := x.tenants })

/-- R416, R429, Table 18-1: SEAL_SET seals each block whose bit is 1 and leaves the others; TENANT_SEAL written by the
provider seals the tenant's block and no other; through the tenant's own function it is refused with kind 9. -/
def Obligations.SealsAreSet : Prop :=
  ∀ (t : Nat) (bits : BitVec 6) (s : State), t < 256 →
    (s.answers = true → exec (.sealSet bits) s = .next { s with seals := s.seals ||| bits }) ∧
    (s.exposed = true → (s.tenant t).resetPending = false →
      (∃ x, exec (.tenantSeal .pf t) s = .next x ∧ x.tenant t = { s.tenant t with sealed := true } ∧
        (∀ u, u ≠ t → x.tenant u = s.tenant u) ∧ x = { s with halves := x.halves, tenants := x.tenants }) ∧
      (t ≠ 0 → ∃ x, exec (.tenantSeal (.vf t) t) s = .next x ∧ x = refuseWrite (.vf t) 0x18 9 { s with halves := x.halves }))

/-- R415, R416: a write of one of the plain fields of the global block takes its value and leaves every other field; a write of
another size or alignment is refused with kind 2 and writes nothing; an RWL field of a sealed block is refused with kind 1. -/
def Obligations.RegisterWriteSetsTheField : Prop :=
  ∀ (o n : Nat) (v : Word64) (s : State), s.exposed = true →
    (∀ w d, (o, w, d) ∈ [(0x48, 16, 64), (0x50, 6, 0), (0x74, 16, 0), (0x110, 16, 0)] →
      ∃ x, exec (.registerWrite .pf o 4 v) s = .next x ∧ x.reg o 0 d = v.toNat % 2 ^ w ∧
        (∀ a l e, fieldKey a l ≠ fieldKey o 0 → x.reg a l e = s.reg a l e) ∧ x = { s with regs := x.regs, halves := x.halves }) ∧
    (0 < n → o + n ≤ 0x2000000 → (n ≠ 4 ∧ n ≠ 8) ∨ o % n ≠ 0 →
      exec (.registerWrite .pf o n v) s = .next (refuseWrite .pf o 2 s)) ∧
    (∀ i, (o, i) ∈ [(0x4C, 0), (0x310020, 5)] → s.seals.getLsbD i = true →
      v.toNat % 2 ^ 32 % (if i = 0 then 2 else 2 ^ 32) ≠ s.reg o 0 0 →
      ∃ x, exec (.registerWrite .pf o 4 v) s = .next x ∧ x.reg o 0 0 = s.reg o 0 0 ∧ x = refuseWrite .pf o 1 { s with halves := x.halves })


/-! ## Descriptors -/

/-- R35, Table 02-4: a descriptor that failed one of checks 1 to 7 at fetch completes with that status and detail, whatever its
opcode, and has no other effect. -/
def Obligations.DescriptorThatFailedAtFetchOnlyCompletes : Prop :=
  ∀ (c : Instr) (d : Fetched) (s : State) (st det : Nat), c ∈ descriptorCommands d → c.wf = true → s.serving = true →
    d.early = some (st, det) → exec c s = .next (answered d st det (ownHandle d) 0 s)

/-- R34, R325: a descriptor on a sequence whose handle names none of its tenant's completes with UNKNOWN_HANDLE, on a WORKER
or SPARE with ROLE_STALE, and has no other effect. -/
def Obligations.HandlesAreCheckedBeforeAnyEffect : Prop :=
  ∀ (c : Instr) (d : Fetched) (s : State), c ∈ [.append d, .pause d, .resume d, .cancel d, .close d, .exportPrefix d] → InEffect c d s →
    (namedCtx s d.tenant (dHandle d.desc) = none → exec c s = .next (answered d stUnknownHandle 0 (ownHandle d) 0 s)) ∧
    (∀ i, namedCtx s d.tenant (dHandle d.desc) = some i → s.junction.role = .worker ∨ s.junction.role = .spare →
      exec c s = .next (answered d stRoleStale 0 (ownHandle d) 0 s))

/-- R51 to R53, R205, R228, Table 02-8: an OPEN that passes its checks puts a FREE context into ADMITTED at the length of its
prefix with its prompt pending, in the home quadrant with the fewest live sequences of the model, and completes OK with the
handle, the seed and the home quadrant; every other context stays as it is. -/
def Obligations.OpenAdmitsASequence : Prop :=
  ∀ (d : Fetched) (r : RequestCopy) (s : State) (i : Nat) (p : Package) (b : Option PrefixBinding) (m : Option (List Byte)), OpenPasses d r s i p b m →
    ∃ x, exec (.openSeq d) s = .next x ∧
      (x.ctx i).state = .admitted ∧ (x.ctx i).tenant = d.tenant ∧ (x.ctx i).qp = d.qp ∧ (x.ctx i).slot = rSlot r.block ∧
      (x.ctx i).incarnation = (s.ctx i).incarnation ∧ (x.ctx i).req = r ∧ (x.ctx i).allowed = m ∧
      (x.ctx i).adapter = rAdapter r.block ∧ (x.ctx i).cls = rClass r.block ∧ (x.ctx i).home = homeFor s (rSlot r.block) ∧
      (x.ctx i).committed = (b.map PrefixBinding.length).getD 0 ∧ (x.ctx i).goal = (x.ctx i).committed + rPromptLen r.block ∧
      (x.ctx i).pages = ((b.map PrefixBinding.lgns).getD []).map some ∧ (x.ctx i).generated = 0 ∧ (x.ctx i).appended = [] ∧
      (rSeedGiven r.block = true → (x.ctx i).seed = BitVec.ofNat 64 (rSeed r.block)) ∧
      (∀ j, j ≠ i → x.ctx j = s.ctx j) ∧
      x.outbox = s.outbox ++ [completionOf d stOk 0 (handleOf i (s.ctx i)) (BitVec.ofNat 128 ((x.ctx i).seed.toNat + (x.ctx i).home * 2 ^ 64))]

/-- R58, Table 03-2: an APPEND adds its tokens after all a sequence has, and a sequence in DECODE goes to PROMPT; in DRAINING,
DONE and FAULTED it completes ILLEGAL_STATE, in PARKED BUDGET, past 1,048,576 tokens BAD_DESCRIPTOR, and where the tokens
cannot be read ACCESS, each without effect on the sequence. -/
def Obligations.AppendAddsAfterAllTokens : Prop :=
  ∀ (d : Fetched) (s : State) (i : Nat), InEffect (.append d) d s → namedCtx s d.tenant (dHandle d.desc) = some i → servesSequences s →
    let c := s.ctx i
    let n := dField d.desc 0x18 4
    (c.state ∈ [.draining, .done, .faulted] → exec (.append d) s = .next (answered d stIllegalState 0 (ownHandle d) 0 s)) ∧
    (c.state = .parked → exec (.append d) s = .next (answered d stBudget 0 (ownHandle d) 0 s)) ∧
    (c.state ∈ [.admitted, .prompt, .decode, .siding, .dormant] →
      (1048576 < totalTokens c + n → exec (.append d) s = .next (answered d stBadDescriptor 0x18 (ownHandle d) 0 s)) ∧
      (totalTokens c + n ≤ 1048576 → readHost s d.tenant (dField d.desc 0x10 8) (4 * n) = none →
        exec (.append d) s = .next (answered d stAccess 0x10 (ownHandle d) 0 s)) ∧
      (totalTokens c + n ≤ 1048576 → ∀ bs, readHost s d.tenant (dField d.desc 0x10 8) (4 * n) = some bs →
        ∃ x, exec (.append d) s = .next x ∧ totalTokens (x.ctx i) = totalTokens c + n ∧ decodeLike (x.ctx i) = false ∧
          (x.ctx i).state = (if c.state = .decode then .prompt else c.state) ∧ (x.ctx i).committed = c.committed ∧ (x.ctx i).hist = c.hist ∧
          (∃ l, (x.ctx i).appended = l ++ leWords 4 n bs) ∧ (∀ j, j ≠ i → x.ctx j = s.ctx j) ∧
          x = { answered d stOk 0 (ownHandle d) 0 s with ctxs := x.ctxs }))

/-- R71, R72, Table 03-2: PAUSE makes a sequence DORMANT until its expiry, with the state it had recorded; RESUME returns it to
that state, or to PARKED while its tenant's budget is gone; in the other states they complete with ILLEGAL_STATE or BUDGET. -/
def Obligations.PauseMakesDormantAndResumeReturns : Prop :=
  ∀ (d : Fetched) (s : State) (i : Nat), s.serving = true → d.early = none → namedCtx s d.tenant (dHandle d.desc) = some i → servesSequences s →
    let c := s.ctx i
    let ends := s.stamp + ofNs (dField d.desc 0x10 4 * 1000000)
    (Instr.wf (.pause d) = true →
      (c.state ∈ [.prompt, .decode, .siding, .parked] → exec (.pause d) s = .next (modCtx i (fun c =>
        { c with state := .dormant, prior := if c.state = .prompt ∨ c.state = .decode then c.state else c.prior, expiry := ends, sidingMark := false })
        (answered d stOk 0 (ownHandle d) 0 s))) ∧
      (c.state = .dormant → exec (.pause d) s = .next (modCtx i (fun c => { c with expiry := ends }) (answered d stOk 0 (ownHandle d) 0 s))) ∧
      (c.state ∈ [.admitted, .draining, .done, .faulted] → exec (.pause d) s = .next (answered d stIllegalState 0 (ownHandle d) 0 s))) ∧
    (Instr.wf (.resume d) = true →
      (c.state = .dormant → budgetGone s c.tenant = true →
        exec (.resume d) s = .next (modCtx i (fun c => { c with state := .parked, expiry := 0 }) (answered d stOk 0 (ownHandle d) 0 s))) ∧
      (c.state = .dormant → budgetGone s c.tenant = false → ∃ x, exec (.resume d) s = .next x ∧ (x.ctx i).state = c.prior ∧
        (x.ctx i).expiry = 0 ∧ (x.ctx i).committed = c.committed ∧ (x.ctx i).goal = c.goal ∧ (x.ctx i).pages = c.pages ∧
        (∀ j, j ≠ i → x.ctx j = s.ctx j) ∧ x = { answered d stOk 0 (ownHandle d) 0 s with ctxs := x.ctxs }) ∧
      (c.state = .parked → exec (.resume d) s = .next (answered d stBudget 0 (ownHandle d) 0 s)) ∧
      (c.state ∈ [.admitted, .prompt, .decode, .siding, .draining, .done, .faulted] →
        exec (.resume d) s = .next (answered d stIllegalState 0 (ownHandle d) 0 s)))

/-- R59, R60, Table 03-3: CANCEL and CLOSE put a live sequence into DRAINING with the end they ask for; CLOSE on one in
DRAINING makes it end in FREE, on one in DONE or FAULTED frees its context at once with a raised incarnation; CANCEL on one
that is not live completes ILLEGAL_STATE. -/
def Obligations.CancelAndCloseEndASequence : Prop :=
  ∀ (d : Fetched) (s : State) (i : Nat), s.serving = true → d.early = none → namedCtx s d.tenant (dHandle d.desc) = some i → servesSequences s →
    let c := s.ctx i
    (Instr.wf (.cancel d) = true →
      (c.state.live = true → exec (.cancel d) s = .next (modCtx i (fun c => { c with state := .draining, drain := some { status := stCancelled, detail := 0, reason := erCancelled, toFree := false, silent := false } })
        (answered d stCancelled 0 (ownHandle d) 0 s))) ∧
      (c.state.live = false → exec (.cancel d) s = .next (answered d stIllegalState 0 (ownHandle d) 0 s))) ∧
    (Instr.wf (.close d) = true →
      (c.state.live = true → exec (.close d) s = .next (modCtx i (fun c => { c with state := .draining, drain := some { status := stCancelled, detail := 0, reason := erCancelled, toFree := true, silent := false } })
        (answered d stOk 0 (ownHandle d) 0 s))) ∧
      (c.state = .draining → exec (.close d) s = .next (modCtx i (fun c => { c with drain := c.drain.map fun x => { x with toFree := true } })
        (answered d stOk 0 (ownHandle d) 0 s))) ∧
      (c.state = .done ∨ c.state = .faulted → ∃ x, exec (.close d) s = .next x ∧ (x.ctx i).state = .free ∧
        (x.ctx i).incarnation = (c.incarnation + 1) % 65536 ∧ (x.ctx i).pages = [] ∧ (x.ctx i).hist = [] ∧
        (∀ j, j ≠ i → x.ctx j = s.ctx j) ∧ ∃ l, x.outbox = s.outbox ++ l ++ [completionOf d stOk 0 (ownHandle d) 0]))

/-- R48, R57, Table 02-8: QUERY completes OK with what it asks for, a sequence's state and lengths, a tenant's tokens left and
next refill time, a slot's state and package hash, and changes nothing; a FENCE waits among the descriptors in effect. -/
def Obligations.QueryReportsAndFenceWaits : Prop :=
  ∀ (d : Fetched) (s : State), s.serving = true → d.early = none →
    (Instr.wf (.query d) = true → servesSequences s →
      (∀ i, dField d.desc 0x10 1 = 0 → namedCtx s d.tenant (dHandle d.desc) = some i → exec (.query d) s = .next (answered d stOk 0 (dHandle d.desc)
        (BitVec.ofNat 128 ((s.ctx i).state.code + (s.ctx i).committed * 2 ^ 32 + (s.ctx i).delivered % 2 ^ 32 * 2 ^ 64)) s)) ∧
      (dField d.desc 0x10 1 = 1 → exec (.query d) s = .next (answered d stOk 0 0
        (BitVec.ofNat 128 (tokensLeft (s.tenant d.tenant) + nextRefill (s.tenant d.tenant) % 2 ^ 64 * 2 ^ 64)) s))) ∧
    (Instr.wf (.query d) = true → dField d.desc 0x10 1 = 2 → ∀ p, (s.slot (dField d.desc 0x11 1)).package = some p →
      (s.slot (dField d.desc 0x11 1)).state = .ready →
      exec (.query d) s = .next (answered d stOk 0 0 (BitVec.ofNat 128 (2 + p.hash.toNat % 2 ^ 64 * 2 ^ 64)) s)) ∧
    (Instr.wf (.fence d) = true → exec (.fence d) s = .next (inProgress d s))

/-- R204 to R207: EXPORT_PREFIX binds a handle to a sequence's leading groups and adds a reference to each, or waits where a
page is not there yet; IMPORT_PREFIX of a handle whose groups are all in T0 completes at once with its length,
otherwise it waits; DROP_PREFIX unbinds the handle; each of the two for a value that is not bound completes UNKNOWN_HANDLE. -/
def Obligations.PrefixHandlesAreBoundAndUnbound : Prop :=
  ∀ (d : Fetched) (s : State), s.serving = true → d.early = none → servesSequences s →
    let v : Word64 := BitVec.ofNat 64 (dField d.desc 0x10 8)
    let n := dField d.desc 0x18 4
    (∀ i, Instr.wf (.exportPrefix d) = true → namedCtx s d.tenant (dHandle d.desc) = some i → (s.slot (s.ctx i).slot).state = .ready →
      (s.ctx i).state ∈ [.prompt, .decode, .siding, .parked, .dormant, .done] → exportLengthBad s i n = false →
      (pagesReady s i n = true → (∀ b ∈ s.bindings, b.tenant ≠ d.tenant) → piecesFor (ceilDiv n 256) ≤ freePieces s → n % 256 = 0 →
        ∃ x y, exec (.exportPrefix d) s = .next x ∧ x.bindings = s.bindings ++ [y] ∧ y.tenant = d.tenant ∧ y.value = v ∧
          y.slot = (s.ctx i).slot ∧ y.adapter = (s.ctx i).adapter ∧ y.length = n ∧ y.tokens = (s.ctx i).hist.take n ∧
          y.lgns = (List.range (ceilDiv n 256)).filterMap (pageAt (s.ctx i)) ∧ x.ctxs = s.ctxs ∧
          x.outbox = s.outbox ++ [completionOf d stOk 0 (ownHandle d) 0]) ∧
      (pagesReady s i n = false → (s.ctx i).adapter = 0xFFFF → exec (.exportPrefix d) s = .next
        { inProgress d s with exports := s.exports ++ [{ run := runningOf d, ctx := i, value := v, length := n, handle := dHandle d.desc }] })) ∧
    (Instr.wf (.importPrefix d) = true →
      (bindingFor s d.tenant v = none → exec (.importPrefix d) s = .next (answered d stUnknownHandle 0 0 0 s)) ∧
      (∀ b, bindingFor s d.tenant v = some b → (∀ g ∈ b.lgns, (s.group g).residence = .t0) → ∃ x, exec (.importPrefix d) s = .next x ∧
        x.outbox = s.outbox ++ [completionOf d stOk 0 0 (BitVec.ofNat 128 b.length)] ∧ x.ctxs = s.ctxs ∧ x.imports = s.imports ∧
        ∀ g ∈ b.lgns, (x.group g).residence = .t0) ∧
      (∀ b, bindingFor s d.tenant v = some b → (∃ g ∈ b.lgns, (s.group g).residence = .t1 ∨ (s.group g).residence = .t2) →
        ∃ x y, exec (.importPrefix d) s = .next x ∧ x.outbox = s.outbox ∧ x.imports = s.imports ++ [y] ∧ y.run = runningOf d ∧
          y.lgns = b.lgns ∧ y.length = b.length ∧ (x.qp d.tenant d.qp).running = (s.qp d.tenant d.qp).running ++ [runningOf d])) ∧
    (Instr.wf (.dropPrefix d) = true →
      ((s.bindings.find? fun b => b.tenant == d.tenant && b.value == v) = none → exec (.dropPrefix d) s = .next (answered d stUnknownHandle 0 0 0 s)) ∧
      (∀ b, (s.bindings.find? fun b => b.tenant == d.tenant && b.value == v) = some b → ∃ x, exec (.dropPrefix d) s = .next x ∧
        x.bindings = s.bindings.filter (fun y => !(y.tenant == b.tenant && y.value == b.value)) ∧ x.ctxs = s.ctxs ∧
        ∃ l, x.outbox = s.outbox ++ l ++ [completionOf d stOk 0 0 0]))


/-! ## Power, resets and boot -/

/-- R391, R392, R412, R446, Table 16-1: the pins. An input outside 40.0 to 57.0 V sets POWER_WARN and asserts the sideband alert, one
inside it clears the warning; an interruption is counted and changes nothing else; a latch that opens before REMOVE_READY sets
LATCH_OPEN and the alert, and closing clears it; 60 s open with the link up makes a later link loss FATAL. -/
def Obligations.PinsSetWarningsAndTheAlert : Prop :=
  ∀ (v : Nat) (s : State), v < 2 ^ 16 → s.power.on = true →
    let alert (warn open' : Bool) : Bool := s.faults.sparesLow || s.faults.fatal || warn || open'
    (v < 4000 ∨ 5700 < v → exec (.powerWarn v) s = .next { s with power := { s.power with vin := v, warn := true }, out := { s.out with alert := true } }) ∧
    (4000 ≤ v → v ≤ 5700 → exec (.powerWarnClear v) s = .next { s with power := { s.power with vin := v, warn := false }, out := { s.out with alert := alert false s.boot.latchOpen } }) ∧
    exec .inputInterruption s = .next { s with power := { s.power with interruptions := (s.power.interruptions + 1) % 2 ^ 32 } } ∧
    (s.boot.removeReady = false → s.boot.latchOpen = false →
      exec .latchOpen s = .next { s with boot := { s.boot with latchOpen := true, latchExpired := false }, out := { s.out with alert := true } }) ∧
    (s.boot.removeReady = true → exec .latchOpen s = .next s) ∧
    (s.boot.latchOpen = true →
      exec .latchClose s = .next { s with boot := { s.boot with latchOpen := false, latchExpired := false }, out := { s.out with alert := alert s.power.warn false } } ∧
      (s.boot.linkWidth ≠ 0 → exec .latchTimeout s = .next { s with boot := { s.boot with latchExpired := true } }))

/-- R338, R341, R408: a closure of 0.1 s to 3.0 s is a press: on a STANDALONE or a MANAGER it pulses ATTN_BTN# and does nothing
else, on a WORKER it begins or cancels its evacuation and sends its manager the message, on a SPARE it makes it leave at its
next boundary; a longer one, and one in BOOT_FAIL or FATAL, is counted only, a shorter one is none. -/
def Obligations.AttentionButtonActsByTheRole : Prop :=
  ∀ (ms : Nat) (s : State), s.power.on = true →
    let j := s.junction
    (ms < 100 → exec (.attentionPress ms) s = .next s) ∧
    (100 ≤ ms → 3000 < ms ∨ s.boot.phase = .bootFail ∨ s.faults.fatal = true →
      exec (.attentionPress ms) s = .next { s with boot := { s.boot with pressesIgnored := s.boot.pressesIgnored + 1 } }) ∧
    (100 ≤ ms → ms ≤ 3000 → s.boot.phase ≠ .bootFail → s.faults.fatal = false →
      (j.role = .standalone ∨ j.role = .manager → exec (.attentionPress ms) s = .next { s with boot := { s.boot with attnPulses := s.boot.attnPulses + 1 } }) ∧
      (j.role = .worker → j.evacState = 0 → ∃ x, exec (.attentionPress ms) s = .next x ∧
        Sent { kind := 0x08, destination := j.managerId, tag := 0, epoch := j.managerEpoch, status := 0, address := 0, values := [1, s.moduleId, 0], data := [] }
          { s with junction := { j with evacState := 1 } } x) ∧
      (j.role = .worker → j.evacState ≠ 0 → ∃ x, exec (.attentionPress ms) s = .next x ∧
        Sent { kind := 0x08, destination := j.managerId, tag := 0, epoch := j.managerEpoch, status := 0, address := 0, values := [0, s.moduleId, 0], data := [] } (endEvac s) x) ∧
      (j.role = .spare → ∃ x y, exec (.attentionPress ms) s = .next x ∧ x = { s with junction := { j with changes := j.changes ++ [y] } } ∧
        y.target = s.moduleId ∧ y.grant.role = 0 ∧ y.grant.newEpoch = j.epoch))

/-- R402, R403, Table 16-5: a cold reset that is not absorbed leaves nothing of models, contexts, queue pairs, registers, seals,
ports and groups, a STANDALONE role at epoch 0, no fault and no dump in the reserve; fuses, flash and host memory stand.
PERST# leaves the module held, every other cause boots it at once; one while a cold reset runs is absorbed. -/
def Obligations.ColdResetReturnsAllToReset : Prop :=
  ∀ (c : Instr) (cause : ColdCause) (s : State), c = .coldReset cause ∨ (c = .sidebandColdReset ∧ cause = .sideband) → s.power.on = true →
    (coldRunning s = true → exec c s = .next s) ∧
    (coldRunning s = false → ∃ x, exec c s = .next x ∧
      x.ctxs = [] ∧ x.slots = [] ∧ x.adapters = [] ∧ x.qps = [] ∧ x.regs = [] ∧ x.seals = 0 ∧ x.tenants = State.reset.tenants ∧
      x.ports = State.reset.ports ∧ x.junction = State.reset.junction ∧ x.stepCounter = 0 ∧ x.mem = [] ∧ x.groups = [] ∧
      x.faults.fatal = false ∧ x.faults.dumpInReserve = false ∧ x.faults.reserve = [] ∧ x.clock.count = 0 ∧
      x.security.state = s.security.state ∧ x.security.count = s.security.count ∧ x.security.minSvn = s.security.minSvn ∧
      x.security.bootBank = s.security.bootBank ∧ x.security.enrolled = settledKeys s.security ∧ x.host = s.host ∧
      x.security.providerKey = s.security.nextKey ∧ x.security.nextKey = s.security.nextKey + 1 ∧
      (cause = .perst → x.boot.phase = .held ∧ x.health = s.health) ∧
      (cause ≠ .perst → x.boot.phase = .training ∨ x.boot.phase = .bootFail) ∧
      x.boot.wipeDone = false)

/-- R402, R403, R407, Table 16-5: a warm reset of a READY module wipes as a cold reset does but keeps the fuses, the flash, the
active-unit map and its generation, the dump reserve, device time and the role epoch, and the link unless it is a hot reset;
one while any reset runs, or in BOOT_FAIL, changes nothing. -/
def Obligations.WarmResetKeepsTheMapAndTheReserve : Prop :=
  ∀ (c : Instr) (cause : WarmCause) (s : State),
    (c = .warmReset cause ∧ s.answers = true) ∨ (c = .sidebandWarmReset ∧ cause ≠ .hotReset ∧ s.power.on = true) ∨
      (c = .functionLevelReset 0 ∧ cause ≠ .hotReset ∧ s.answers = true) →
    (s.boot.phase ≠ .ready → exec c s = .next s) ∧
    (s.boot.phase = .ready → ∃ x, exec c s = .next x ∧
      x.ctxs = [] ∧ x.slots = [] ∧ x.adapters = [] ∧ x.qps = [] ∧ x.regs = [] ∧ x.seals = 0 ∧ x.tenants = State.reset.tenants ∧
      x.ports = [] ∧ x.junction = { freshJunction with epoch := s.junction.epoch } ∧ x.stepCounter = 0 ∧ x.mem = [] ∧ x.groups = [] ∧
      x.faults.fatal = false ∧ x.faults.mapGen = s.faults.mapGen ∧ x.faults.tiles = s.faults.tiles ∧ x.faults.nbus = s.faults.nbus ∧
      x.faults.dumpInReserve = s.faults.dumpInReserve ∧ x.faults.reserve = s.faults.reserve ∧
      x.clock.count = s.clock.count ∧ x.clock.steer = s.clock.steer ∧ x.security.state = s.security.state ∧
      x.security.count = s.security.count ∧ x.security.enrolled = settledKeys s.security ∧ x.health = s.health ∧ x.host = s.host ∧
      x.security.providerKey = s.security.nextKey ∧ x.security.nextKey = s.security.nextKey + 1 ∧
      x.boot.phase = .wiping ∧ x.boot.wipeDone = false ∧
      x.boot.linkWidth = (if cause = .hotReset then 0 else s.boot.linkWidth))

/-- R382, R389, R391, R405, R406, Table 16-6: power lost takes every rail and every volatile store; power applied, and PERST#
deasserted, start the boot ROM, which trains where a bank's images all pass and reports BOOT_FAIL where none does; training
begins the wipe and brings up the link; the end of the wipe sets WIPE_DONE and READY. -/
def Obligations.BootReachesReadyInOrder : Prop :=
  ∀ (s : State) (w r : Nat) (cache : Bool), w ∈ [1, 2, 4, 8] → r ∈ [1, 2, 3, 4, 5, 6] →
    (s.power.on = true → ∃ x, exec .powerLoss s = .next x ∧ x.power.on = false ∧ x.boot.phase = .off ∧ x.ctxs = [] ∧ x.mem = [] ∧
      x.regs = [] ∧ x.boot.linkWidth = 0 ∧ x.security.state = s.security.state ∧ x.health = s.health ∧ x.host = s.host) ∧
    (∀ b, s.power.on = false → ∃ x, exec (.powerOn b) s = .next x ∧ x.power.on = true ∧ x.power.interruptions = 0 ∧ x.boot.i3c = none ∧
      x.boot.indirect = 0 ∧ (b = true → x.boot.phase = .held) ∧
      (b = false → x.boot.phase = if (bankToBoot s.security).isSome then .training else .bootFail)) ∧
    (s.power.on = true → s.boot.phase = .held → ∃ x, exec .perstDeassert s = .next x ∧ x.clock.count = 0 ∧
      x.boot.phase = (if (bankToBoot s.security).isSome then .training else .bootFail) ∧ x.ctxs = s.ctxs ∧ x.mem = s.mem ∧ x.qps = s.qps) ∧
    (s.answers = true → s.boot.phase = .training → ∃ x, exec (.trainingComplete w r cache) s = .next x ∧ x.boot.phase = .wiping ∧
      x.boot.linkWidth = (if s.boot.linkWidth = 0 then w else s.boot.linkWidth) ∧ x.ctxs = s.ctxs ∧ x.security.state = s.security.state) ∧
    (s.answers = true → s.boot.phase = .wiping → ∃ x, exec .wipeDone s = .next x ∧ x.boot.phase = .ready ∧ x.boot.wipeDone = true ∧
      x = { s with boot := { s.boot with phase := .ready, wipeDone := true, warm := false }, security := x.security }) ∧
    (s.answers = true → s.boot.linkWidth = 0 → exec (.cxlLinkRetrain w r cache) s = .next
      { s with boot := { s.boot with linkWidth := w, linkRate := r, cxlCache := cache } })


/-! ## Tenants and homes -/

/-- R53: an OPEN that is admitted takes as its home the quadrant that holds the fewest live sequences of its model, the lowest
numbered of those that tie, and its admission completion reports that quadrant in bits 71 to 64 of its result. -/
def Obligations.HomeQuadrantHoldsTheFewest : Prop :=
  ∀ (d : Fetched) (r : RequestCopy) (s : State) (i : Nat) (p : Package) (b : Option PrefixBinding) (m : Option (List Byte)), OpenPasses d r s i p b m →
    ∃ x h v, exec (.openSeq d) s = .next x ∧ (x.ctx i).home = h ∧ h < 4 ∧
      (∀ q, q < 4 → livesIn s (rSlot r.block) h ≤ livesIn s (rSlot r.block) q ∧ (q < h → livesIn s (rSlot r.block) h < livesIn s (rSlot r.block) q)) ∧
      x.outbox = s.outbox ++ [completionOf d stOk 0 (handleOf i (s.ctx i)) v] ∧ v.toNat / 2 ^ 64 = h

/-- R388: a SET_TENANT that clears flag [0] of a tenant that holds a context, a bound handle or an owned adapter completes with
ILLEGAL_STATE and has no effect; one that takes effect destroys both keys of the tenant; one that then enables the tenant
creates new keys, numbered as no key before. -/
def Obligations.DisablingATenantDestroysItsKeys : Prop :=
  ∀ (d : Fetched) (s : State) (bs : List Byte), InEffect (.setTenant d) d s → readHost s 0 (dField d.desc 0x10 8) 64 = some bs →
    let t := dField d.desc 0x18 1
    let p := readParams (leNat bs)
    let holds : Prop := 0 < s.ctxCount t ∨ (∃ b ∈ s.bindings, b.tenant = t) ∨ ∃ a ∈ s.adapters, a.2.owner = t
    paramsBad (leNat bs) = false → (t = 0 → p.enabled = true ∧ p.qpQuota = 16) →
    (p.enabled = false → holds → exec (.setTenant d) s = .next (answered d stIllegalState 0 0 0 s)) ∧
    (p.enabled = false → ¬holds → ∃ x, exec (.setTenant d) s = .next x ∧ (x.tenant t).params = some p ∧
      (x.tenant t).adapterKey = none ∧ (x.tenant t).stateKey = none ∧ (∀ u, u ≠ t → x.tenant u = s.tenant u) ∧
      x = { answered d stOk 0 0 0 s with tenants := x.tenants }) ∧
    (p.enabled = true → (s.tenant t).enabled = false → t ≠ 0 → ∃ x, exec (.setTenant d) s = .next x ∧ (x.tenant t).params = some p ∧
      (x.tenant t).adapterKey = some s.security.nextKey ∧ (x.tenant t).stateKey = some (s.security.nextKey + 1) ∧
      (∀ u, u ≠ t → x.tenant u = s.tenant u) ∧
      x = { answered d stOk 0 0 0 s with tenants := x.tenants, security := { s.security with nextKey := s.security.nextKey + 2 } }) ∧
    (p.enabled = true → (s.tenant t).enabled = true → ∃ x, exec (.setTenant d) s = .next x ∧ (x.tenant t).params = some p ∧
      (x.tenant t).adapterKey = (s.tenant t).adapterKey ∧ (x.tenant t).stateKey = (s.tenant t).stateKey ∧
      (∀ u, u ≠ t → x.tenant u = s.tenant u) ∧ x = { answered d stOk 0 0 0 s with tenants := x.tenants })


/-! ## Signed commands and the life cycle -/

/-- R380, R381, Table 15-4: a life-cycle command whose record and signatures pass, from a state the table lists, with every
context FREE and no load, before the 63rd transition or as RETIRE, enters the table's state: the fused count rises, the
keys change as the table says and a cold reset wipes the module. Any other is refused with no effect, by STATE
or BUSY where that is the only failing check; NONCE is replaced either way. -/
def Obligations.LifeCycleCommandsWipeOrAreRefused : Prop :=
  ∀ (c : Instr) (k : SignedCommand) (l : List LifeCycle) (b : LifeCycle) (s : State), lifeStep c = some (k, l, b) →
    s.answers = true → s.boot.phase ≠ .bootFail →
    let good := RecordGood k s ∧ SignedFor c s
    let from' := s.security.state ∈ l ∧ (s.security.count < 63 ∨ b = .retired)
    (good → from' → AtRest s → coldRunning s = false → ∃ x, exec c s = .next x ∧ x.security.state = b ∧
      x.security.count = s.security.count + 1 ∧ x.security.minSvn = s.security.minSvn ∧ x.ctxs = [] ∧ x.slots = [] ∧ x.adapters = [] ∧
      x.qps = [] ∧ x.regs = [] ∧ x.seals = 0 ∧ x.mem = [] ∧ x.bank = [] ∧ x.groups = [] ∧ x.junction = State.reset.junction ∧
      x.faults.reserve = [] ∧ x.host = s.host ∧ x.boot.wipeDone = false ∧ (x.boot.phase = .training ∨ x.boot.phase = .bootFail) ∧
      (c = .provision k → x.security.enrolled = [{ rsa := Config.payloadKey k.payload 2, slh := Config.payloadKey k.payload 3 }] ∧
        x.security.owner = some { rsa := Config.payloadKey k.payload 0, slh := Config.payloadKey k.payload 1 }) ∧
      (c = .deactivate k → x.security.enrolled = [] ∧ x.security.owner = s.security.owner) ∧
      (c = .rmaEnter k → x.security.enrolled = [] ∧ x.security.owner = none) ∧
      (c = .retire k → x.security.secret = false) ∧
      (c = .activate k ∨ c = .debugEnter k ∨ c = .debugExit k ∨ c = .rmaExit k →
        x.security.enrolled = settledKeys s.security ∧ x.security.owner = s.security.owner ∧ x.security.secret = s.security.secret)) ∧
    (¬(good ∧ from' ∧ AtRest s) → ∃ x r, exec c s = .next x ∧ MailboxEnded r s x ∧ r ≠ 0 ∧
      (good → AtRest s → r = 3) ∧ (good → from' → r = 4))

/-- R380, R382, R383, Table 15-4: ENROLL and REVOKE that pass take effect at the next boundary, a ninth pair is refused
FULL; COMMIT_SVN raises the minimum to the version of the running firmware; FW_UPDATE writes the bundle into the bank that did not
boot and BOOT_BANK names that bank only if every image passes, otherwise it reports BUNDLE. None of them wipes anything. -/
def Obligations.EnrolmentAndFirmwareCommandsWipeNothing : Prop :=
  ∀ (k : SignedCommand) (s : State), s.answers = true → s.boot.phase ≠ .bootFail → RecordGood k s → k.signedByOwner = true → s.security.count < 63 →
    (s.security.state = .provisioned ∨ s.security.state = .operational →
      let pair : KeyPair := { rsa := Config.payloadKey k.payload 2, slh := Config.payloadKey k.payload 3 }
      let held := s.security.enrolled.length + (s.security.enrolling.filter Prod.fst).length
      (held < 8 → ∃ x, exec (.enroll k) s = .next { x with security := { x.security with enrolling := s.security.enrolling ++ [(true, pair)] } } ∧ MailboxEnded 0 s x) ∧
      (8 ≤ held → ∃ x, exec (.enroll k) s = .next x ∧ MailboxEnded 5 s x) ∧
      (∃ x, exec (.revoke k) s = .next { x with security := { x.security with enrolling := s.security.enrolling ++ [(false, pair)] } } ∧ MailboxEnded 0 s x) ∧
      (∃ x v, exec (.commitSvn k) s = .next { x with security := { x.security with minSvn := max s.security.minSvn v } } ∧ MailboxEnded 0 s x ∧
        let run := flashBank s.security s.security.booted
        v ≤ run.security.svn ∧ v ≤ run.control.svn ∧ v ≤ run.training.svn)) ∧
    (s.security.state ≠ .retired → s.security.booted < 2 → ∀ f : FwBundle,
      let other := 1 - s.security.booted
      (bundleOk s.security.minSvn f = true → ∃ x, exec (.fwUpdate k f) s = .next x ∧ flashBank x.security other = f ∧
        flashBank x.security s.security.booted = flashBank s.security s.security.booted ∧ x.security.bootBank = other ∧ x.security.booted = s.security.booted ∧
        MailboxEnded 0 s { x with security := { x.security with bank0 := s.security.bank0, bank1 := s.security.bank1, bootBank := s.security.bootBank } }) ∧
      (bundleOk s.security.minSvn f = false → ∃ x, exec (.fwUpdate k f) s = .next x ∧ flashBank x.security other = f ∧
        flashBank x.security s.security.booted = flashBank s.security s.security.booted ∧
        MailboxEnded 10 s { x with security := { x.security with bank0 := s.security.bank0, bank1 := s.security.bank1 } }))


/-! ## Attestation and link protection -/

/-- R384, R385, R386, Table 15-6: versions, capabilities and algorithms are negotiated in that order; then digests, the
certificate of slot 0, challenges, measurements and the SLH-DSA signature and chain of R385 are answered, each by a reply
alone, a request of another slot or before the negotiation by an error. Measurements come from the boot and from the
snapshot of the latest boundary. The order and the errors are the model's, from SPDM 1.2 and 1.3 (log 28). -/
def Obligations.AttestationAnswersInOrder : Prop :=
  ∀ (fn : Nat) (s : State), fn < 256 → attests s →
    let y := s.spdmOf fn
    (∃ x, exec (.getVersion fn) s = .next x ∧ Responds fn (.spdmVersions [0x12, 0x13]) (fun y => { y with version := true, capabilities := false, algorithms := false }) s x) ∧
    (y.version = true → ∃ x, exec (.getCapabilities fn) s = .next x ∧
      Responds fn (.spdmCapabilities false true true true true true true) (fun y => { y with capabilities := true }) s x) ∧
    (y.version = false → exec (.getCapabilities fn) s = .next (onlyReplies (.spdmError 4) s)) ∧
    (y.capabilities = true → ∃ x, exec (.negotiateAlgorithms fn) s = .next x ∧ Responds fn .spdmAlgorithms (fun y => { y with algorithms := true }) s x) ∧
    (y.capabilities = false → exec (.negotiateAlgorithms fn) s = .next (onlyReplies (.spdmError 4) s)) ∧
    (y.algorithms = false → ∀ c, (c = .getDigests fn ∨ (∃ k o n, c = .getCertificate fn k o n) ∨ (∃ k n, c = .challenge fn k n) ∨
      (∃ i b n, c = .getMeasurements fn i b n) ∨ c = .getPqSignature fn ∨ ∃ o, c = .getPqCertificate fn o) → exec c s = .next (onlyReplies (.spdmError 4) s)) ∧
    (y.algorithms = true →
      (∃ d, exec (.getDigests fn) s = .next (onlyReplies (.spdmDigests [0] d) s)) ∧
      (∀ o n, ∃ l, exec (.getCertificate fn 0 o n) s = .next (onlyReplies (.spdmCertificate o l) s) ∧ l.length ≤ n) ∧
      (∀ k o n, k ≠ 0 → exec (.getCertificate fn k o n) s = .next (onlyReplies (.spdmError 1) s)) ∧
      (∀ n, ∃ x, exec (.challenge fn 0 n) s = .next x ∧ RespondsSigned fn 1 id s x) ∧
      (∀ n i, 1 ≤ i → i ≤ 8 → ∃ m, exec (.getMeasurements fn i false n) s = .next (onlyReplies (.spdmMeasurements i [(i, m)]) s) ∧
        (∃ x, exec (.getMeasurements fn i true n) s = .next x ∧ RespondsSigned fn 2 id (onlyReplies (.spdmMeasurements i [(i, m)]) s) x) ∧
        (i = 2 → m = [(flashBank s.security s.security.booted).security.digest.toNat, (flashBank s.security s.security.booted).security.svn]) ∧
        (i = 4 → m = s.security.bootState) ∧
        (i = 6 → ∃ l, m = s.security.snapshot.policy :: s.security.snapshot.ideRequired :: l) ∧
        (∀ r : State, r.answers = true → r.boot.phase ≠ .bootFail → r.security = s.security → r.fwVersion = s.fwVersion →
          exec (.getMeasurements fn i false n) r = .next (onlyReplies (.spdmMeasurements i [(i, m)]) r))) ∧
      (∀ n, exec (.getMeasurements fn 0 false n) s = .next (onlyReplies (.spdmMeasurements 8 []) s)) ∧
      (∀ d, y.lastSigned = some d → ∃ g, exec (.getPqSignature fn) s = .next (onlyReplies (.pqSignature d g) s) ∧ g.length = 16224) ∧
      (y.lastSigned = none → exec (.getPqSignature fn) s = .next (onlyReplies (.spdmError 4) s)) ∧
      (∀ o, ∃ l, exec (.getPqCertificate fn o) s = .next (onlyReplies (.pqCertificate o l) s) ∧ l.length ≤ 65536)) ∧
    (∀ i, i < 3 → exec (.doeDiscovery fn i) s = .next (onlyReplies (.doeProtocols i 1 i (if i = 2 then 0 else i + 1)) s))

/-- R384, R387: KEY_EXCHANGE begins a session that a good FINISH establishes and a bad one ends; HEARTBEAT, KEY_UPDATE and
END_SESSION act in an established session alone; IDE keys arrive in a secured session of the PF alone; with IDE_REQUIRED set, a
stream that leaves the Secure state holds traffic back. Error codes, operations and stream numbers are the model's (log 28). -/
def Obligations.SessionsAndLinkKeys : Prop :=
  ∀ (fn n : Nat) (s : State), fn < 256 → attests s →
    let y := s.spdmOf fn
    let stream := fmGet s.security.ide n { programmed := false, secure := false, keyGen := 0 }
    (∀ b, y.algorithms = true → ∃ x, exec (.keyExchange fn 0 b) s = .next x ∧
      RespondsSigned fn 3 (fun y => { y with handshaking := y.handshaking ++ [y.nextSession], nextSession := y.nextSession + 1 }) s x) ∧
    (∀ k b, y.algorithms = true → k ≠ 0 → exec (.keyExchange fn k b) s = .next (onlyReplies (.spdmError 1) s)) ∧
    (∀ ok, n ∉ y.handshaking → exec (.finish fn n ok) s = .next (onlyReplies (.spdmError 2) s)) ∧
    (n ∈ y.handshaking → (∃ x, exec (.finish fn n true) s = .next x ∧
      Responds fn (.spdmFinish n) (fun y => { y with handshaking := y.handshaking.filter (· != n), sessions := y.sessions ++ [n] }) s x) ∧
      ∃ x, exec (.finish fn n false) s = .next x ∧ Responds fn (.spdmError 6) (fun y => { y with handshaking := y.handshaking.filter (· != n) }) s x) ∧
    (n ∉ y.sessions → ∀ c, (c = .heartbeat fn n ∨ c = .endSession fn n ∨ ∃ o, c = .keyUpdate fn n o) → exec c s = .next (onlyReplies (.spdmError 2) s)) ∧
    (n ∈ y.sessions → exec (.heartbeat fn n) s = .next (onlyReplies (.spdmHeartbeat n) s) ∧
      (∀ o, o = 1 ∨ o = 2 ∨ o = 3 → ∃ x, exec (.keyUpdate fn n o) s = .next x ∧
        Responds fn (.spdmKeyUpdate n o) (fun y => { y with keyUpdates := if o = 3 then y.keyUpdates else y.keyUpdates + 1 }) s x) ∧
      ∃ x, exec (.endSession fn n) s = .next x ∧ Responds fn (.spdmEnd n) (fun y => { y with sessions := y.sessions.filter (· != n) }) s x) ∧
    (∀ o, exec (.ideKm n false o) s = .next s) ∧
    (∀ o, (s.spdmOf 0).sessions = [] → exec (.ideKm n true o) s = .next s) ∧
    ((s.spdmOf 0).sessions ≠ [] → n < 5 →
      (∃ x, exec (.ideKm n true 0) s = .next x ∧ StreamBecomes n { stream with programmed := true, keyGen := stream.keyGen + 1 } s x) ∧
      (stream.programmed = true →
        (∃ x, exec (.ideKm n true 1) s = .next x ∧ StreamBecomes n { stream with secure := true } s x) ∧
        (∃ x, exec (.ideKm n true 2) s = .next x ∧ StreamBecomes n { stream with secure := false } s x) ∧
        ∃ x, exec (.ideKm n true 3) s = .next x ∧ StreamBecomes n { stream with keyGen := stream.keyGen + 1 } s x)) ∧
    ((fmFind s.security.ide n).isSome = true → ∃ x, exec (.ideStreamInsecure n) s = .next x ∧ StreamBecomes n { stream with secure := false } s x ∧
      (s.reg 0x4C 0 0 = 1 → x.ideHeld = true))


/-! ## The sideband and the service port -/

/-- R396, R414, R446, Table 19-4: the BMC reads words of the power block and of the global block, reads and writes BMC_LIMIT
(clamped), the indicators and the indirect address, and reads the word it names, 0 where it names no register; other
command bytes get a NACK; no read changes anything. A dynamic address makes it I3C. The repair instruments of the JTAG port
read the fuses, the spares and the health record and stage repairs, in every state but RETIRED. -/
def Obligations.SidebandAndServicePort : Prop :=
  ∀ (s : State) (w : Word32) (a : Nat), s.power.on = true → a < 128 →
    let word (n : Nat) : Host.Outcome State Fault Refusal := .next (onlyReplies (.sideband (BitVec.ofNat 32 n)) s)
    exec (.sidebandPowerRead 2) s = word s.power.bmcLimit ∧ exec (.sidebandPowerRead 3) s = word s.power.effective ∧
    exec (.sidebandPowerRead 4) s = word (s.power.level + s.power.pace * 2 ^ 16) ∧ exec (.sidebandPowerRead 5) s = word s.power.interruptions ∧
    exec (.sidebandPowerRead 6) s = word (s.power.vin % 2 ^ 16) ∧
    (∀ c, c < 0x40 → ∃ n, exec (.sidebandPowerRead c) s = word n) ∧ (∀ c, 0x40 ≤ c → exec (.sidebandPowerRead c) s = .next (onlyReplies .nack s)) ∧
    exec (.sidebandBmcLimit none) s = word s.power.bmcLimit ∧
    exec (.sidebandBmcLimit (some w)) s = .next { s with power := { s.power with bmcLimit := if w.toNat < 1000 then 1000 else if 2600 < w.toNat then 2600 else w.toNat } } ∧
    exec (.sidebandIndicators none) s = word (s.reg 0x54 0 0 + s.reg 0x54 8 0 * 2 ^ 8) ∧
    (w.toNat % 4 ≠ 3 → ∃ x, exec (.sidebandIndicators (some w)) s = .next x ∧ x.reg 0x54 0 0 = w.toNat % 4 ∧ x.reg 0x54 8 0 = w.toNat / 2 ^ 8 % 2 ∧
      (∀ o l d, fieldKey o l ≠ fieldKey 0x54 0 → fieldKey o l ≠ fieldKey 0x54 8 → x.reg o l d = s.reg o l d) ∧ x = { s with regs := x.regs }) ∧
    (∃ n, exec .sidebandStatusRead s = word n) ∧ (∃ n, exec .sidebandCauseRead s = word n) ∧
    exec (.sidebandIndirectAddress (some w)) s = .next { s with boot := { s.boot with indirect := w } } ∧
    exec (.sidebandIndirectAddress none) s = word s.boot.indirect.toNat ∧
    (∃ n, exec .sidebandIndirectRead s = .next (onlyReplies (.sideband (BitVec.ofNat 32 n)) { s with freeIndex := s.freeIndex + 1 }) ∧
      (s.boot.indirect.toNat % 4 ≠ 0 ∨ 6 < s.boot.indirect.toNat / 2 ^ 24 % 16 → n = 0) ∧ (s.boot.indirect = 0x0C → n % 2 ^ 32 = s.power.effective % 2 ^ 32)) ∧
    exec (.i3cDynamicAddress a) s = .next { s with boot := { s.boot with i3c := some a } } ∧
    (∀ q, q < 4 →
      (s.security.state = .retired → ∀ c, (c = .fuseRead q ∨ c = .healthRead q ∨ (∃ l b, l < 8 ∧ b < 1024 ∧ c = .spareMap q l b) ∨ ∃ r : Repair, r.wf = true ∧ c = .repairStage r) → exec c s = .next s) ∧
      (s.security.state ≠ .retired →
        (∃ f h, exec (.fuseRead q) s = .next (onlyReplies (.fuses s.security.gradeS f h) s) ∧ (∀ x ∈ f, x ∈ s.security.fusedPos ∧ x.1 / 128 = q) ∧
          ∀ e ∈ h, e ∈ s.health ∧ ∃ r, e = .repair r ∧ r.quad = q) ∧
        exec (.healthRead q) s = .next (onlyReplies (.health s.health) s) ∧
        (∀ l b, l < 8 → b < 1024 → ∃ r c d, exec (.spareMap q l b) s = .next (onlyReplies (.spares r (256 - r) c (32 - c) d) s) ∧
          r = fmGet s.faults.rowsUsed ((q * 8 + l) * 1024 + b) 0 ∧ c = fmGet s.faults.columnsUsed ((q * 8 + l) * 1024 + b) 0 ∧
          ∀ x ∈ d, x ∈ s.boot.discarded ∧ x.quad = q ∧ x.layer = l ∧ x.bank = b) ∧
        ∀ r : Repair, r.wf = true → exec (.repairStage r) s = .next { s with boot := { s.boot with staged := s.boot.staged ++ [r] } }))


/-! ## Device time -/

/-- R344, R345, R346, R350: a present REF_IN, enabled, on a STANDALONE or the time root, locks and steers within 50 ppm and
never moves the counter; its loss clears REF_LOCKED, keeps the steering and is counted; PPS_OUT pulses once for each
whole second reached, where PPS_EN is set; TIME_SET waits for row 7, and is refused under the time seal, on a module that keeps
another's time (kind 8 is the model's, log 22) and while a context is live. -/
def Obligations.ReferencePulseAndTimeSet : Prop :=
  ∀ (p : Int) (v : Word64) (s : State), s.answers = true →
    let own := s.junction.role = .standalone ∨ (s.junction.role = .manager ∧ s.junction.level = 2)
    let sec := s.now / 65536 / 1000000000
    exec .refInPresent s = .next { s with clock := { s.clock with refPresent := true } } ∧
    (s.reg 0x10004 0 0 = 1 → s.clock.refPresent = true → own → exec (.refInLock p) s = .next
      { s with clock := { s.clock with refLocked := true, steer := if p < -50000 then -50000 else if 50000 < p then 50000 else p } }) ∧
    (s.reg 0x10004 0 0 ≠ 1 ∨ s.clock.refPresent = false ∨ ¬own → exec (.refInLock p) s = .next s) ∧
    (s.clock.refPresent = true → exec .refInLoss s = .next
      { s with clock := { s.clock with refPresent := false, refLocked := false, refLoss := (s.clock.refLoss + 1) % 2 ^ 32 } }) ∧
    (s.clock.refPresent = false → exec .refInLoss s = .next s) ∧
    (s.clock.lastPulse < sec → exec .ppsOut s = .next { s with clock := { s.clock with lastPulse := sec }, out := { s.out with pps := if s.reg 0x10004 2 0 = 1 then sec :: s.out.pps else s.out.pps } }) ∧
    (sec ≤ s.clock.lastPulse → exec .ppsOut s = .next s) ∧
    (s.exposed = true → v.toNat ≠ s.reg 0x10028 0 0 →
      (s.seals.getLsbD 1 = true → exec (.timeSet v) s = .next (refuseWrite .pf 0x10028 1 s)) ∧
      (s.seals.getLsbD 1 = false → ¬own → exec (.timeSet v) s = .next (refuseWrite .pf 0x10028 8 s)) ∧
      (s.seals.getLsbD 1 = false → own → (∃ c ∈ s.ctxs, c.2.state.live = true) → exec (.timeSet v) s = .next (refuseWrite .pf 0x10028 3 s)) ∧
      (s.seals.getLsbD 1 = false → own → (∀ c ∈ s.ctxs, c.2.state.live = false) →
        exec (.timeSet v) s = .next (setReg 0x10028 0 v.toNat { s with clock := { s.clock with pendingSet := some v.toNat } })))

/-- R348, R349, R350: a WORKER or SPARE sends its manager a numbered TIME REQUEST, counting the one still unanswered as failed;
the manager echoes it with its stamps, ROLE_STALE to a stale one; the reply of the exchange in flight gives the offset,
which locks after 8 within 2 ns and unlocks after 4 above 4 ns, is slewed at most 200 ppm, or stepped above 1 µs where no
context is live, moving budget periods and expiries too. A STANDALONE neither sends nor answers. The rounding of the
offset is the model's (log 22). -/
def Obligations.TimeIsExchangedWithTheManager : Prop :=
  ∀ (h : MsgHead) (b : TimeReplyBody) (n t c : Nat) (s : State), h.wf = true → s.answers = true →
    let j := s.junction
    let k := s.clock
    let lost := k.exchange.isSome
    let left := if lost then j.outstanding.filter (fun o => o.op != 4) else j.outstanding
    (j.role = .standalone → exec .timeRequest s = .next s ∧ exec (.timeRequestReceived h n t c) s = .next s ∧ exec (.timeReply h b) s = .next s) ∧
    (j.role = .worker ∨ j.role = .spare → (left.filter fun o => o.destination == j.managerId).length < 4096 → ∃ x, exec .timeRequest s = .next x ∧
      Sent { kind := 0x02, destination := j.managerId, tag := j.nextTag, epoch := j.managerEpoch, status := 0, address := 0, values := [0, k.nextExchange, s.now % 2 ^ 64, 0, 0, 0, 0, 0], data := [] }
        { s with
          junction := { j with nextTag := (j.nextTag + 1) % 65536, outstanding := left ++ [{ destination := j.managerId, tag := j.nextTag, op := 4, resolving := false, retried := false }] },
          clock := { k with
            exchange := some k.nextExchange, nextExchange := (k.nextExchange + 1) % 2 ^ 32, timeFails := if lost then (k.timeFails + 1) % 2 ^ 32 else k.timeFails,
            failed := if lost then k.failed + 1 else k.failed, good := if lost then 0 else k.good, bad := if lost then 0 else k.bad,
            timeLocked := if lost then k.timeLocked && decide (k.failed + 1 < 8) else k.timeLocked } } x) ∧
    (j.role = .manager → h.epoch = j.epoch → ∃ x, exec (.timeRequestReceived h n t c) s = .next x ∧
      Sent { kind := 0x02, destination := h.source, tag := h.tag, epoch := 0, status := 0, address := 0, values := [1, n, t, s.now % 2 ^ 64, s.now % 2 ^ 64, c, 0, s.now / 65536], data := [] } s x) ∧
    (j.role = .manager → h.epoch ≠ j.epoch → ∃ x, exec (.timeRequestReceived h n t c) s = .next x ∧
      Sent { kind := 0x40, destination := h.source, tag := h.tag, epoch := 0, status := 0x0F, address := 0, values := [], data := [] } { s with junction := { j with staleRefused := (j.staleRefused + 1) % 2 ^ 64 } } x) ∧
    (k.exchange ≠ some b.sequence → exec (.timeReply h b) s = .next s) ∧
    (j.role = .worker ∨ j.role = .spare → k.exchange = some b.sequence → ∀ o, requestOf s h.source h.tag = some o →
      let theta := (stampDiff b.t2 b.t1 - b.requestCorrection - (stampDiff b.t4 b.t3 - b.replyCorrection)) / 2
      let live := ∃ y ∈ s.ctxs, y.2.state.live = true
      let steps := 65536000 < theta.natAbs ∧ ¬live
      ∃ x, exec (.timeReply h b) s = .next x ∧ x.junction = { j with outstanding := j.outstanding.filter fun y => decide (y ≠ o) } ∧
        x.clock.theta = theta ∧ x.clock.exchange = none ∧ x.clock.failed = 0 ∧
        (theta.natAbs ≤ 131072 → x.clock.good = k.good + 1 ∧ x.clock.bad = 0) ∧ (131072 < theta.natAbs → theta.natAbs ≤ 262144 → x.clock.good = 0 ∧ x.clock.bad = 0) ∧
        (262144 < theta.natAbs → x.clock.good = 0 ∧ x.clock.bad = k.bad + 1) ∧
        x.clock.timeLocked = (if 8 ≤ x.clock.good then true else if 4 ≤ x.clock.bad then false else k.timeLocked) ∧
        (¬steps → x.clock.count = k.count ∧ x.tenants = s.tenants ∧ x.ctxs = s.ctxs ∧ x.clock.increment = slewFor theta ∧
          slewFor theta ≤ 0x000A000000000000 + 562949953421 ∧ 0x000A000000000000 ≤ slewFor theta + 562949953421) ∧
        (steps → let goal := ((b.managerTime * 65536 : Nat) + (stampDiff b.t4 b.t3 + theta)).toNat
          x.clock.count = goal * 2 ^ 32 % 2 ^ 112 ∧ x.clock.increment = k.increment ∧
          (∀ u, fmFind x.tenants u = (fmFind s.tenants u).map fun y => { y with periodStart := y.periodStart + goal - s.now }) ∧
          (∀ i, fmFind x.ctxs i = (fmFind s.ctxs i).map fun y => { y with expiry := y.expiry + goal - s.now })))


/-! ## Nuxus ports -/

/-- R307, R308, R309, R438, Table 12-1: ENABLE trains a DOWN port, or fails it with LANES where the cable is not accepted;
clearing it and RETRAIN wait for row 7 on a port in use; a FAILED port goes DOWN or trains at once, RETRAIN of a DOWN
one is refused with kind 8. Training ends UP where both directions have a lane map and the HELLO passes, otherwise FAILED
with the reason; loss of lock trains again, three times in a row at most, as a UNIT fault; ten bad periods wear a lane. -/
def Obligations.PortsTrainWearAndFail : Prop :=
  ∀ (p : Nat) (s : State), p < 8 → s.exposed = true →
    let y := s.port p
    let on (v : Nat) : State := setReg (portBase p) 0 v s
    (y.state = .down → (∃ x, exec (.portEnable p true) s = .next x ∧ PortBecomes p (trainingPort 0 y) (on 1) x) ∧
      ∃ x, exec (.portEnable p false) s = .next x ∧ (x.port p).state = .failed ∧ (x.port p).failReason = 1 ∧ PortBecomes p (x.port p) (on 1) x) ∧
    (∀ b, y.state ≠ .down → exec (.portEnable p b) s = .next (on 1)) ∧
    (y.state = .training ∨ y.state = .up → ∃ x, exec (.portDisable p) s = .next x ∧ PortBecomes p { y with pending := 1 } (on 0) x) ∧
    (y.state = .failed → ∃ x, exec (.portDisable p) s = .next x ∧ (x.port p).state = .down ∧ PortBecomes p (x.port p) (on 0) x) ∧
    (y.state = .down → exec (.portDisable p) s = .next (on 0) ∧ exec (.retrain p) s = .next (refuseWrite .pf (portBase p + 4) 8 s)) ∧
    (y.state = .training → exec (.retrain p) s = .next s) ∧
    (y.state = .up → y.pending ≠ 1 → ∃ x, exec (.retrain p) s = .next x ∧ PortBecomes p { y with pending := 2 } s x) ∧
    (y.state = .failed → ∃ x, exec (.retrain p) s = .next x ∧ PortBecomes p (trainingPort 0 y) s x) ∧
    (∀ rx tx h, y.state ≠ .training → exec (.trainingDone p rx tx h) s = .next s) ∧
    (∀ rx tx h, y.state = .training → ∃ x r t, exec (.trainingDone p rx tx h) s = .next x ∧ LaneMap rx.failing r ∧ LaneMap tx.failing t ∧
      (∀ q, q ≠ p → x.port q = s.port q) ∧ FaultOnly { s with ports := x.ports } x ∧
      (r = none ∨ t = none → (x.port p).state = .failed ∧ (x.port p).failReason = 1) ∧
      (r ≠ none → t ≠ none → r = some (x.port p).rxReplaced ∧ t = some (x.port p).txReplaced ∧ (x.port p).peerId = h.moduleId ∧
        (h.identityOk = false → (x.port p).state = .failed ∧ (x.port p).failReason = 2) ∧
        (h.identityOk = true → h.domainId ≠ s.reg 0x310004 0 0 → (x.port p).state = .failed ∧ (x.port p).failReason = 3) ∧
        (h.identityOk = true → h.domainId = s.reg 0x310004 0 0 → h.moduleId = s.moduleId → (x.port p).state = .failed ∧ (x.port p).failReason = 4) ∧
        (h.identityOk = true → h.domainId = s.reg 0x310004 0 0 → h.moduleId ≠ s.moduleId → (x.port p).state = .up ∧ (x.port p).usableFrom = s.boundary + 1 ∧
          ∀ v, v < 8 → fmGet (x.port p).credits v 0 = vcFlits v))) ∧
    (∀ b, y.state ≠ .up → exec (.laneLockLoss p b) s = .next s) ∧
    (∀ b, y.state = .up → ∃ x, exec (.laneLockLoss p b) s = .next x ∧ (∀ q, q ≠ p → x.port q = s.port q) ∧ FaultOnly { s with ports := x.ports } x ∧
      (y.autoTrainings < 3 → x.port p = trainingPort (y.autoTrainings + 1) y) ∧
      (3 ≤ y.autoTrainings → (x.port p).state = .failed ∧ (x.port p).failReason = if b then 5 else 6)) ∧
    (∀ e, y.state ≠ .up → exec (.laneErrorPeriod p e) s = .next s) ∧
    (∀ e, y.state = .up → ∃ x, exec (.laneErrorPeriod p e) s = .next x ∧ (x.port p).state = .up ∧ (∀ q, q ≠ p → x.port q = s.port q) ∧ FaultOnly { s with ports := x.ports } x ∧
      ∀ j n, j < 5 → e[j]? = some n → (2240000 < n → 9 ≤ fmGet y.wearRun j 0 → j ∈ (x.port p).laneWear) ∧ (n ≤ 2240000 → j ∉ y.laneWear → j ∉ (x.port p).laneWear))

/-- R310, R312 to R314, R316, R321: a flit is taken only by a port that is UP. A damaged one is discarded and answered with a
NAK; a good one acknowledges all up to the number it carries and returns credits; a NAK replays the rest, and the sixteenth replay
of one flit takes the port out of UP. A data flit out of order goes no further; one in order is acknowledged once in 64 or when the timer
runs out, and reaches this module, or the port its route gives, or is discarded and counted, a malformed one with status 0x02. -/
def Obligations.FlitsAreAcknowledgedReplayedAndRouted : Prop :=
  ∀ (p : Nat) (f : Flit) (s : State), p < 8 → s.answers = true →
    let y := s.port p
    let paid := { y with credits := fmSet y.credits f.creditVc (min (vcFlits f.creditVc) (fmGet y.credits f.creditVc 0 + f.credit)) }
    let got := if y.sinceAck = 63 then { paid with lastSeq := f.sequence, sinceAck := 0, acksSent := y.acksSent + 1 }
      else { paid with lastSeq := f.sequence, sinceAck := y.sinceAck + 1 }
    (y.state ≠ .up → exec (.flitReceive p f) s = .next s ∧ exec (.ackTimer p) s = .next s) ∧
    (y.state = .up → (∃ x, exec (.ackTimer p) s = .next x ∧ PortBecomes p { y with acksSent := y.acksSent + 1, sinceAck := 0 } s x) ∧
      (f.good = false → ∃ x, exec (.flitReceive p f) s = .next x ∧ PortBecomes p { y with crcErrors := y.crcErrors + 1, naksSent := y.naksSent + 1, sinceAck := 0 } s x) ∧
      (f.good = true → y.waiting = [] →
        (f.kind = 0 → ∀ a b, y.unacked = a ++ f.ack :: b → f.ack ∉ a →
          (f.nak = false ∨ b = [] → ∃ x, exec (.flitReceive p f) s = .next x ∧ PortBecomes p { paid with unacked := b, replayRun := 0 } s x) ∧
          (f.nak = true → b ≠ [] → ∃ x, exec (.flitReceive p f) s = .next x ∧ PortBecomes p { paid with unacked := b, replayRun := 1, replays := y.replays + 1 } s x)) ∧
        (f.nak = true → y.unacked ≠ [] → f.ack ∉ y.unacked →
          (y.replayRun < 15 → f.kind = 0 → ∃ x, exec (.flitReceive p f) s = .next x ∧ PortBecomes p { paid with replayRun := y.replayRun + 1, replays := y.replays + 1 } s x) ∧
          (15 ≤ y.replayRun → ∃ x, exec (.flitReceive p f) s = .next x ∧ (x.port p).state = (if y.autoTrainings < 3 then .training else .failed) ∧
            (x.port p).failReason = (if y.autoTrainings < 3 then 0 else 5) ∧ (∀ q, q ≠ p → x.port q = s.port q) ∧ FaultOnly { s with ports := x.ports } x)) ∧
        (y.unacked = [] → y.replayRun < 16 →
          (f.kind = 3 ∨ f.sequence ≠ (y.lastSeq + 1) % 4096 → ∃ x, exec (.flitReceive p f) s = .next x ∧ PortBecomes p paid s x) ∧
          (f.kind = 1 ∨ f.kind = 2 → f.sequence = (y.lastSeq + 1) % 4096 →
            (f.reserved = 0 → f.wellTyped = true → f.destination = s.moduleId → ∃ x, exec (.flitReceive p f) s = .next x ∧ PortBecomes p got s x) ∧
            (f.reserved = 0 → f.wellTyped = true → f.destination ≠ s.moduleId →
              (∀ o, routePort s f.source f.destination = some o → o ≠ p → 0 < fmGet (s.port o).credits f.vc 0 → (s.port o).unacked.length < 512 → (s.port o).waiting = [] →
                ∃ x, exec (.flitReceive p f) s = .next x ∧ x.port p = got ∧ (∀ q, q ≠ p → q ≠ o → x.port q = s.port q) ∧ x = { s with ports := x.ports } ∧
                  x.port o = { s.port o with
                    credits := fmSet (s.port o).credits f.vc (fmGet (s.port o).credits f.vc 0 - 1), nextSeq := ((s.port o).nextSeq + 1) % 4096,
                    unacked := (s.port o).unacked ++ [(s.port o).nextSeq], sent := fmAdd (s.port o).sent f.vc 1 }) ∧
              (routePort s f.source f.destination = none → f.responds = false → ∃ x y', exec (.flitReceive p f) s = .next x ∧ PortBecomes p got s y' ∧
                x = { y' with junction := { s.junction with routeDiscarded := s.junction.routeDiscarded + 1 } }) ∧
              (routePort s f.source f.destination = none → f.responds = true → ∃ x y', exec (.flitReceive p f) s = .next x ∧ PortBecomes p got s y' ∧
                Sent { kind := 0x40, destination := f.source, tag := 0, epoch := 0, status := 0x07, address := 0, values := [], data := [] }
                  { y' with junction := { s.junction with routeDiscarded := s.junction.routeDiscarded + 1 } } x)) ∧
            (f.reserved ≠ 0 ∨ f.wellTyped = false → ∃ x y', exec (.flitReceive p f) s = .next x ∧ PortBecomes p { got with badMessages := y.badMessages + 1 } s y' ∧
              (f.responds = false → x = y') ∧
              (f.responds = true → Sent { kind := 0x40, destination := f.source, tag := 0, epoch := 0, status := 0x02, address := 0, values := [], data := [] } y' x))))))


/-! ## Memory tiers -/

/-- R177, R250, R281, R389, Table 10-4: a line of the range reads as zeros in an UNMAPPED block, as its content where the block
may be read, as poison otherwise; a write lands in an unsealed block, gives an UNMAPPED one of the host region a zero-filled
frame first, and has the error response otherwise; an access that has that response changes nothing, and one to a quad in compute
mode waits in its layer's host queue, which a host window serves in arrival order. -/
def Obligations.HostAccessesHaveTheirOutcome : Prop :=
  ∀ (a : Nat) (bs : List Byte) (s : State), lineOk a = true → bs.length = 64 → s.answers = true →
    let n := a / 0x200000
    let b := s.block n
    let read (x : State) : Prop := exec (.cxlMemRead a) s = .next x
    let write (x : State) : Prop := exec (.cxlMemWrite a bs) s = .next x
    let zeros := onlyReplies (.cxlData a (List.replicate 64 0)) s
    let data := onlyReplies (.cxlData a (memBytes s.mem a 64)) s
    let poison := onlyReplies (.cxlPoison a) s
    let error := onlyReplies (.cxlError a) s
    (s.boot.wipeDone = false ∨ s.security.state = .retired → read poison ∧ write error) ∧
    (s.boot.wipeDone = true → s.security.state ≠ .retired →
      (b.state = .unmapped → read zeros ∧ (¬n < hostLimit s → write error) ∧
        (n < hostLimit s → (∀ q, q < 4 → takeT0 s q false = none) → write error) ∧
        (∀ f, n < hostLimit s → takeT0 s (n % 4) false = some f → Memory.wf s.mem = true → ∃ x, write x ∧
          x.block n = { unmappedBlock with t0 := some f, state := .mapped, home := n % 4 } ∧ (∀ m, m ≠ n → x.block m = s.block m) ∧
          (∀ c, memByte x.mem c = if a ≤ c ∧ c < a + 64 then bs.getD (c - a) 0 else if c / 0x200000 = n then 0 else memByte s.mem c) ∧
          x = onlyReplies (.cxlDone a) { s with blocks := x.blocks, mem := x.mem, poisoned := x.poisoned })) ∧
      (b.state = .mapped → b.sealed = false →
        (s.step = none → (∀ l, fmGet s.hostQueues l [] = []) →
          (a / 64 ∉ s.poisoned → (b.t0 ≠ none → read data) ∧ ∃ c k, read { data with ckus := c, sluice := k }) ∧ (a / 64 ∈ s.poisoned → read poison) ∧
          (Memory.wf s.mem = true → ∃ x, write x ∧ (∀ c, memByte x.mem c = if a ≤ c ∧ c < a + 64 then bs.getD (c - a) 0 else memByte s.mem c) ∧
            (∀ l, l ∈ x.poisoned ↔ l ∈ s.poisoned ∧ l ≠ a / 64) ∧ x = onlyReplies (.cxlDone a) { s with mem := x.mem, poisoned := x.poisoned })) ∧
        (∀ f g, b.t0 = some f → s.step = some g → g.started = true →
          let l := (framePlace f).1 * 8 + (framePlace f).2.2.2
          let joined (y : HostAccess) : State := { s with hostQueues := fmSet s.hostQueues l (fmGet s.hostQueues l [] ++ [y]) }
          quadPlain s (framePlace f).1 (framePlace f).2.2.2 (framePlace f).2.2.1 = false → read (joined (.read a)) ∧ write (joined (.write a bs)))) ∧
      (b.state = .mapped → b.sealed = true → write error ∧ (b.keyOwner ≠ 0 → read poison) ∧
        (b.keyOwner = 0 → b.t0 ≠ none → a / 64 ∉ s.poisoned → s.step = none → (∀ l, fmGet s.hostQueues l [] = []) → read data) ∧
        (b.keyOwner = 0 → b.t0 = none → a / 64 ∉ s.poisoned → ∃ c k, read { data with ckus := c, sluice := k })) ∧
      (b.state = .promoting ∨ b.state = .demoting ∨ b.state = .refetching → write error ∧ (b.keyOwner ≠ 0 → read poison)) ∧
      (b.state = .refetching → b.t0 = none → b.image = none → read poison) ∧
      (b.state = .lost → read poison ∧ write error)) ∧
    (∀ q l, q < 4 → l < 8 → s.serving = true → fmGet s.hostQueues (q * 8 + l) [] = [.write a bs] → b.state = .mapped → b.sealed = false → Memory.wf s.mem = true →
      ∃ x, exec (.hostWindow q l) s = .next x ∧ fmGet x.hostQueues (q * 8 + l) [] = [] ∧
        (∀ c, memByte x.mem c = if a ≤ c ∧ c < a + 64 then bs.getD (c - a) 0 else memByte s.mem c) ∧
        x = onlyReplies (.cxlDone a) { s with mem := x.mem, poisoned := x.poisoned, hostQueues := x.hostQueues })

/-- R249, R275, R276, R424, R427, Table 10-3: a command of the sluice joins its queue of 64 for row 4 of the next boundary, and
one that finds it full is discarded with result 3 and counted done. At a slot start every bucket becomes the lesser of level + RATE
and BURST * 256, or full with RATE unlimited; pieces of at most 4,096 bytes of a governed transfer then start while its
bucket's level is above 0 and subtract their size, and the level stays above -4,096 bytes. -/
def Obligations.SluiceCommandsWaitAndBucketsRefill : Prop :=
  ∀ (s : State),
    (∀ n, n < 2097152 → s.exposed = true →
      let k := s.sluice
      let joins (op : SluiceOp) : State := { s with sluice := { k with commands := k.commands ++ [(op, n)], issued := k.issued + 1 } }
      let full : State := { s with sluice := { k with result := 3, last := n, done := k.done + 1 } }
      (k.commands.length < 64 → exec (.sluiceSeal n) s = .next (joins .seal) ∧ exec (.sluiceUnseal n) s = .next (joins .unseal) ∧ exec (.sluiceRelease n) s = .next (joins .release)) ∧
      (64 ≤ k.commands.length → exec (.sluiceSeal n) s = .next full ∧ exec (.sluiceUnseal n) s = .next full ∧ exec (.sluiceRelease n) s = .next full)) ∧
    (s.answers = true → s.lookups = [] →
      let rate (w b : Nat) : Nat := s.reg (0x600000 + w * 0x100 + 0x20 * b) 0 0xFFFFFFFF
      let top (w b : Nat) : Int := (s.reg (0x600000 + w * 0x100 + 0x20 * b + 4) 0 1048576 * 256 : Nat)
      let level (w b : Nat) : Int := if rate w b = 0xFFFFFFFF then top w b else min ((s.bucket w b).level + (rate w b : Nat)) (top w b)
      (s.governed = [] → ∃ x, exec .weirRefill s = .next x ∧ (∀ w b, w < 32 → b < 3 → x.bucket w b = { s.bucket w b with level := level w b }) ∧
        x = { s with buckets := x.buckets }) ∧
      (∀ g n, s.governed = [g] → g.left = [n] → g.partition < 32 → g.bucket < 3 → rate g.partition g.bucket ≠ 0xFFFFFFFF →
        let L := level g.partition g.bucket
        ∃ x p, exec .weirRefill s = .next x ∧ p ≤ n ∧ (L ≤ 0 → p = 0) ∧ (p < n → 0 < L → p % 4096 = 0 ∧ L ≤ p * 256) ∧ p * 256 < max 1 (L + 1048576) ∧
          x.governed = [{ g with left := if p = n then [] else [n - p] }] ∧
          x.bucket g.partition g.bucket = { level := L - p * 256, passed := ((s.bucket g.partition g.bucket).passed + p) % 2 ^ 64 } ∧
          (∀ w b, w < 32 → b < 3 → (w, b) ≠ (g.partition, g.bucket) → x.bucket w b = { s.bucket w b with level := level w b }) ∧
          x = { s with buckets := x.buckets, governed := x.governed }))


/-! ## Roles and groups -/

/-- R326, R335, R336, R440: a ROLE_SET of the module's own epoch is refused with ROLE_ACK and status 0x07 from a module that is not
the one MANAGER_ALLOW names, to WORKER or SPARE while a context is not FREE, and to or from MANAGER while a sequence of a group model is
live (from as well as to is the model's reading, log 21); otherwise it is accepted, and the role waits for row 7. ROLE_CMD 1 and 2 wait
for it too where R440 accepts them and are refused with kind 8 otherwise. A manager answers RESOLVE from its table. -/
def Obligations.RolesAreGrantedAndResolved : Prop :=
  ∀ (h : MsgHead) (g : RoleGrant) (s : State), h.wf = true →
    let j := s.junction
    let due (y : State) (c : RoleChange) : State := { y with junction := { y.junction with changes := y.junction.changes ++ [c] } }
    let granted : Bool := groupLive s && (decide (g.role = 1) != decide (j.role = .manager))
    let allowed : Prop := s.reg 0x310008 15 0 = 1 ∧ h.source = s.reg 0x310008 0 0 ∧ ((g.role = 2 ∨ g.role = 3) → ∀ c ∈ s.ctxs, c.2.state = .free) ∧ granted = false
    (s.answers = true →
      (h.epoch ≠ j.epoch → ∃ x, exec (.roleSet h g) s = .next x ∧ StaleAnswered h s x) ∧
      (h.epoch = j.epoch → allowed → ∃ y, exec (.roleSet h g) s = .next (due y { target := s.moduleId, grant := g, atStep := h.step }) ∧ Sent (responseTo h 0x04 stOk [] []) s y) ∧
      (h.epoch = j.epoch → ¬allowed → ∃ x, exec (.roleSet h g) s = .next x ∧ Sent (responseTo h 0x04 stAccess [] []) s x) ∧
      (∀ p b, j.role ≠ .manager → exec (.roleAck h p b) s = .next s) ∧
      (∀ p, j.role = .manager →
        (∃ x, exec (.roleAck h p false) s = .next x ∧ (∀ c, c ∈ x.junction.changes ↔ c ∈ j.changes ∧ c.target ≠ h.source) ∧ x = { s with junction := { j with changes := x.junction.changes } }) ∧
        ((∀ c ∈ j.changes, c.target ≠ h.source) → memberAt s p = none → 0 < p → p < 64 →
          ∃ g, exec (.roleAck h p true) s = .next (due { s with junction := { j with issued := j.issued + 1 } } { target := h.source, grant := g, atStep := h.step }) ∧
            g.position = p ∧ g.manager = s.moduleId ∧ g.newEpoch = (s.reg 0x310020 0 0 + j.issued + 1) % 2 ^ 32 ∧ (g.role = 2 ∨ g.role = 3))) ∧
      (∀ b n, j.role ≠ .manager → exec (.resolve h b n) s = .next s) ∧
      (∀ b n, j.role = .manager → h.epoch ≠ 0 → h.epoch ≠ j.epoch → ∃ x, exec (.resolve h b n) s = .next x ∧ StaleAnswered h s x) ∧
      (j.role = .manager → h.epoch = 0 ∨ h.epoch = j.epoch →
        (∃ x, exec (.resolve h true 0) s = .next x ∧ Sent (responseTo h 0x06 stOk [s.moduleId, 1, j.position, j.epoch] []) s x) ∧
        (∃ x, exec (.resolve h false s.moduleId) s = .next x ∧ Sent (responseTo h 0x06 stOk [s.moduleId, 1, j.position, j.epoch] []) s x) ∧
        (∀ p, p ≠ 0 → (∀ m ∈ j.members, m.1 ≠ p) → ∃ x, exec (.resolve h true p) s = .next x ∧ Sent (responseTo h 0x06 stAccess [] []) s x) ∧
        (∀ a p m b, j.members = a ++ (p, m) :: b → p ≠ 0 → (∀ y ∈ a, y.1 ≠ p) → ∃ x, exec (.resolve h true p) s = .next x ∧
          Sent (responseTo h 0x06 stOk [m.id, roleCode m.role, p, m.epoch] []) s x))) ∧
    (s.exposed = true →
      (j.role = .standalone → s.seals.getLsbD 5 = true → s.anyLive = false → ∃ g, exec .becomeDomainManager s = .next (due s { target := s.moduleId, grant := g, atStep := 0 }) ∧
        g.role = 1 ∧ g.level = 2 ∧ g.position = 0 ∧ g.manager = s.moduleId ∧ g.newEpoch = (s.reg 0x310020 0 0 + 1) % 2 ^ 32) ∧
      (¬(j.role = .standalone ∧ s.seals.getLsbD 5 = true ∧ s.anyLive = false) → exec .becomeDomainManager s = .next (refuseWrite .pf 0x310028 8 s)) ∧
      (j.role = .manager → j.members = [] → groupLive s = false → ∃ g, exec .returnToStandalone s = .next (due s { target := s.moduleId, grant := g, atStep := 0 }) ∧
        g.role = 0 ∧ g.newEpoch = j.epoch) ∧
      (¬(j.role = .manager ∧ j.members = [] ∧ groupLive s = false) → exec .returnToStandalone s = .next (refuseWrite .pf 0x310028 8 s)))

/-- R328, R329, R331, R335, Table 12-5: a STEP_PLAN, START, ABORT or ACT of another epoch is discarded and counted. A worker keeps a
plan of its epoch, applies its page edits, builds the step it names, loads its scalars and, with its time locked, sends READY; rows of an
ACT arrive in their buffer; ABORT discards the step it names. A START names the start time; one that comes after it is a
timing fault (R304). -/
def Obligations.MembersFollowPlanStartAndAbort : Prop :=
  ∀ (h : MsgHead) (s : State), h.wf = true → s.serving = true →
    let j := s.junction
    let named (y : Step) : Prop := s.step = some y ∧ y.started = false ∧ y.counter = h.step
    let aborted : State := { s with junction := { j with aborts := (j.aborts + 1) % 2 ^ 32, plan := none, startAt := none } }
    (h.epoch ≠ j.epoch → (∀ p, exec (.stepPlan h p) s = .next (staleCounted s)) ∧ (∀ t, exec (.start h t) s = .next (staleCounted s)) ∧
      exec (.abort h) s = .next (staleCounted s) ∧ ∀ b d, exec (.act h b d) s = .next (staleCounted s)) ∧
    (h.epoch = j.epoch →
      (∀ p, j.role ≠ .worker ∨ (∃ y, s.step = some y ∧ y.started = true) → exec (.stepPlan h p) s = .next s) ∧
      (∀ p, j.role = .worker → (∀ y, s.step = some y → y.started = false) → ∃ x, exec (.stepPlan h p) s = .next x ∧
        (p.edits = [] → ∃ y b c, y.counter = h.step ∧ y.slot = p.slot ∧ y.slots = p.steps ∧ y.cls = p.cls ∧ y.mode = p.mode ∧ y.started = false ∧
          y.rows.map RowPlan.ctx = p.rows.map Prod.fst ∧ y.sections.map Placed.startSlot = p.starts ∧
          let w : State := { s with bank0 := b, bank1 := c, bankReady := true, step := some y, junction := { j with plan := some p, startAt := none } }
          (s.clock.timeLocked = false → x = w) ∧
          (s.clock.timeLocked = true → Sent (messageTo j.managerId 0x10 j.epoch h.step (readyValues (ownReady w))) { w with junction := { w.junction with readySent := true } } x)) ∧
        (∀ e, p.edits = [e] →
          (∀ l f r, e.action = 1 → fmFind s.pools p.slot = some l → l.freeSets = f :: r →
            x.group e.lgn = { freeGroup with refs := 1, residence := .t0, slot := p.slot, frameSet := f }) ∧
          (e.action = 2 → x.group e.lgn = { s.group e.lgn with sealed := true, fill := e.fill }) ∧
          (e.action = 3 → x.group e.lgn = { s.group e.lgn with refs := 0 }) ∧
          (∀ g, g ≠ e.lgn → x.group g = s.group g))) ∧
      (∀ t, (∀ y, ¬named y) → exec (.start h t) s = .next s) ∧
      (∀ y t, named y → s.now ≤ t → exec (.start h t) s = .next { s with junction := { j with startAt := some t } }) ∧
      (∀ y t, named y → t < s.now → ∃ x, exec (.start h t) s = .next x ∧ FaultOnly { s with step := none, junction := { j with plan := none, startAt := none } } x) ∧
      (∀ y, named y → exec (.abort h) s = .next { aborted with step := none }) ∧
      ((∀ y, ¬named y) → exec (.abort h) s = .next aborted) ∧
      (∀ b d, exec (.act h b d) s = .next { s with staging := fmSet s.staging b d }))

/-- R304, R328, R332, R333, R335: the manager keeps the READY of a member of its table at that member's epoch; any other counts as missing.
When the last READY of a planned step is in, here of a group of two, it sends START with the latest ready time, plus the greatest delivery time
of 450 aclk a hop, plus 64 aclk. With READY missing it sends ABORT and abandons the step, and the third abort in a row on
a member's account declares it failed, as does a joining member's silence. -/
def Obligations.ManagerStartsOrAbandonsTheStep : Prop :=
  ∀ (h : MsgHead) (b : ReadyBody) (s : State), h.wf = true → s.serving = true → b.position < 64 →
    let j := s.junction
    let known (m : Member) : Prop := j.role = .manager ∧ memberAt s b.position = some m
    let pair (y : Step) : Prop := s.step = some y ∧ y.started = false ∧ j.plan.isSome = true ∧ j.startAt = none ∧ groupStep s y.slot = true ∧ modelSpan s y.slot = 2 ∧ b.position = 1
    (j.role ≠ .manager ∨ memberAt s b.position = none → exec (.ready h b) s = .next s ∧ exec (.joinTimeout b.position) s = .next s) ∧
    (∀ m, known m →
      (m.id ≠ h.source ∨ m.epoch ≠ h.epoch → exec (.ready h b) s = .next s) ∧
      (m.id = h.source → m.epoch = h.epoch →
        (s.step = none → exec (.ready h b) s = .next { s with junction := { j with
          members := fmSet j.members b.position { m with joined := true }, readies := b :: j.readies.filter fun r => r.position != b.position } }) ∧
        (∀ y, pair y → y.counter = h.step → j.paused = false →
          ∃ x w t, exec (.ready h b) s = .next x ∧ t = max (s.stamp + aclkTicks s 4096) b.readyTime + aclkTicks s (450 * groupHops s + 64) ∧
            w.junction.startAt = some t ∧ memberAt w 1 = some { m with joined := true, aborts := 0 } ∧ w = { s with junction := w.junction } ∧
            Sent (messageTo m.id 0x11 m.epoch y.counter [t]) w x)) ∧
      (∀ y l, pair y → readyOf s 1 ≠ none → 1 ∈ l → ∃ x w, exec (.readyTimeout l) s = .next x ∧
        Sent (messageTo m.id 0x12 m.epoch y.counter []) { s with junction := { j with aborts := (j.aborts + 1) % 2 ^ 32 } } w ∧
        x = { w with step := none, junction := { w.junction with plan := none, readyFor := [], members := x.junction.members, lost := x.junction.lost } } ∧
        memberAt x 1 = some { m with aborts := m.aborts + 1 } ∧ (m.aborts < 2 → x.junction.lost = j.lost) ∧ (2 ≤ m.aborts → 1 ∈ x.junction.lost)) ∧
      (m.joined = true → exec (.joinTimeout b.position) s = .next s) ∧
      (m.joined = false → b.position ∉ j.lost → exec (.joinTimeout b.position) s = .next { s with junction := { j with lost := j.lost ++ [b.position] } })) ∧
    (∀ l, s.step = none → exec (.readyTimeout l) s = .next s)

/-- R335, R338 to R341, Table 12-5: an EVACUATE of another epoch is refused ROLE_STALE. A manager queues a member's request, answers its
report of every group copied with the switchover order to both sides and holds its steps, and marks the switchover once every
group is acknowledged; a worker begins to copy, sends its rest and reports; a spare that is told of a cancel releases what it
has filled. The numbers of the phases are the model's choice (log 23). -/
def Obligations.EvacuationMessagesMoveThePhases : Prop :=
  ∀ (h : MsgHead) (w p : Nat) (s : State), h.wf = true → s.serving = true →
    let j := s.junction
    let go (phase : Nat) (x : State) : Prop := exec (.evacuate h phase w p) s = .next x
    (h.epoch ≠ j.epoch → ∀ k, ∃ x, go k x ∧ StaleAnswered h s x) ∧
    (h.epoch = j.epoch →
      (j.role = .standalone → ∀ k, go k s) ∧
      (j.role = .manager → (∀ m ∈ j.members, m.2.id ≠ h.source) → ∀ k, go k s) ∧
      (∀ a n m b, j.role = .manager → j.members = a ++ (n, m) :: b → m.id = h.source → (∀ y ∈ a, y.2.id ≠ h.source) →
        (n ∉ j.evacQueue → ¬(j.evacState ≠ 0 ∧ j.evacWorker = n) → go 1 { s with junction := { j with evacQueue := j.evacQueue ++ [n] } }) ∧
        (n ∈ j.evacQueue ∨ (j.evacState ≠ 0 ∧ j.evacWorker = n) → go 1 s) ∧
        (¬(j.evacState ≠ 0 ∧ j.evacWorker = n) → ∃ x, go 0 x ∧ (∀ i, i ∈ x.junction.evacQueue ↔ i ∈ j.evacQueue ∧ i ≠ n) ∧ x = { s with junction := { j with evacQueue := x.junction.evacQueue } }) ∧
        (∀ k l, s.step = none → j.evacState = 2 → j.evacWorker = n → memberAt s n = some k → memberAt s j.evacSpare = some l →
          ∃ y x, go 3 x ∧ Sent (messageTo k.id 0x08 k.epoch 0 [4, k.id, l.id]) { s with junction := { j with evacState := 3, paused := true, plan := none } } y ∧
            Sent (messageTo l.id 0x08 l.epoch 0 [4, k.id, l.id]) y x) ∧
        (j.evacState = 3 → j.evacWorker = n → go 5 { s with junction := { j with switchover := true } })) ∧
      (j.role = .worker →
        go 0 { s with junction := { j with evacState := 0, evacPeer := 0, sentGroups := [], unacked := [], reported := false, paused := false, switchover := false } } ∧
        (j.evacState = 1 → go 2 { s with junction := { j with evacState := 2, evacPeer := p, sentGroups := [], unacked := [], reported := false } }) ∧
        (j.evacState ≠ 1 → go 2 s) ∧
        (j.evacState = 2 → s.groups = [] → j.unacked = [] → ∃ x, go 4 x ∧
          Sent (messageTo j.managerId 0x08 j.managerEpoch 0 [5, s.moduleId, j.evacPeer]) { s with junction := { j with evacState := 3 } } x)) ∧
      (j.role = .spare →
        (∃ x, go 0 x ∧ (∀ g, (x.group g).refs = if g ∈ j.sentGroups then 0 else (s.group g).refs) ∧ x.junction.evacState = 0 ∧ x.junction.sentGroups = [] ∧
          x = { s with groups := x.groups, junction := { j with evacState := 0, evacPeer := 0, sentGroups := [], unacked := [], reported := false } }) ∧
        (s.blocks = [] → go 2 { s with junction := { j with evacState := 2, evacPeer := w, sentGroups := [] } }) ∧
        go 4 { s with junction := { j with evacState := 3 } }))

/-- R275, R335, R339, R342, Table 12-5: a spare lays a group that arrives into a frame set of its pool and acknowledges it, and without a free
set it only notes the lack; an acknowledgement takes groups off the worker's list, and with the last one a worker told to switch over
reports it; BULK_DATA is written to a mapped block; each passes the bulk bucket of its partition. A module that left by evacuation wipes its
stores under a new key and is safe to pull. That a PAGE_DATA names its slot by its size is the model's choice (log 23). -/
def Obligations.PagesAndBulkDataArrive : Prop :=
  ∀ (h : MsgHead) (s : State), h.wf = true → s.serving = true →
    let j := s.junction
    (∀ g f bs, ¬(j.role = .spare ∧ (j.evacState = 2 ∨ j.evacState = 3)) → exec (.pageData h g f bs) s = .next s) ∧
    (∀ g f bs k p, j.role = .spare → j.evacState = 2 ∨ j.evacState = 3 → slotForContent s bs.length = some k → fmFind s.pools k = some p → (s.group g).residence ≠ .t0 →
      (p.freeSets = [] → ∃ x, exec (.pageData h g f bs) s = .next x ∧ x = { s with pools := x.pools, buckets := x.buckets, ckus := x.ckus } ∧
        fmFind x.pools k = some { p with lacked := p.lacked + 1 }) ∧
      (∀ e r, p.freeSets = e :: r → ∃ x y, exec (.pageData h g f bs) s = .next x ∧ Sent (responseTo h 0x42 stOk [g] []) y x ∧
        y = { s with pools := y.pools, buckets := y.buckets, ckus := y.ckus, bank := y.bank, groups := y.groups, junction := y.junction } ∧
        fmFind y.pools k = some { p with freeSets := r } ∧ y.group g = { freeGroup with refs := 1, residence := .t0, sealed := decide (f = 256), slot := k, frameSet := e, fill := f, owner := h.tenant } ∧
        (∀ i, i ≠ g → y.group i = s.group i) ∧ g ∈ y.junction.sentGroups ∧ y.junction = { j with sentGroups := y.junction.sentGroups } ∧
        (p.layers = 1 → p.heads = 1 → bs.length = slotBytes p → Memory.wf s.bank = true → ∀ c, memByte y.bank c =
          if slotAddress s k p e 0 0 ≤ c ∧ c < slotAddress s k p e 0 0 + bs.length then bs.getD (c - slotAddress s k p e 0 0) 0 else memByte s.bank c))) ∧
    (∀ l, j.role = .manager → ∃ x, exec (.pageAck h l) s = .next x ∧ (∀ g, g ∈ x.junction.sentGroups ↔ g ∈ j.sentGroups ∨ g ∈ l) ∧ x = { s with junction := { j with sentGroups := x.junction.sentGroups } }) ∧
    (∀ l, j.role ≠ .manager →
      (j.unacked = [] → exec (.pageAck h l) s = .next s) ∧
      (j.unacked ≠ [] → ∃ x y, exec (.pageAck h l) s = .next x ∧ (∀ g, g ∈ y.junction.unacked ↔ g ∈ j.unacked ∧ g ∉ l) ∧ y = { s with junction := { j with unacked := y.junction.unacked } } ∧
        (j.role = .worker → j.evacState = 3 → y.junction.unacked = [] → Sent (messageTo j.managerId 0x08 j.managerEpoch 0 [5, s.moduleId, j.evacPeer]) y x) ∧
        (¬(j.role = .worker ∧ j.evacState = 3 ∧ y.junction.unacked = []) → x = y))) ∧
    (∀ b o bs, b < 2097152 →
      (h.epoch ≠ j.epoch → exec (.bulkData h b o bs) s = .next (staleCounted s)) ∧
      (h.epoch = j.epoch → ∃ x, exec (.bulkData h b o bs) s = .next x ∧ x = { s with mem := x.mem, buckets := x.buckets, ckus := x.ckus } ∧
        ((s.block b).state = .unmapped ∨ 0x200000 < o + bs.length → x.mem = s.mem) ∧
        ((s.block b).state ≠ .unmapped → o + bs.length ≤ 0x200000 → Memory.wf s.mem = true → ∀ c, memByte x.mem c =
          if b * 0x200000 + o ≤ c ∧ c < b * 0x200000 + o + bs.length then bs.getD (c - (b * 0x200000 + o)) 0 else memByte s.mem c))) ∧
    (j.evacState ≠ 4 → exec .evacuationWipe s = .next s) ∧
    (j.evacState = 4 → ∃ x, exec .evacuationWipe s = .next x ∧ x.mem = [] ∧ x.bank = [] ∧ x.blocks = [] ∧ x.groups = [] ∧ x.ctxs = [] ∧ x.slots = [] ∧ x.boot = { s.boot with evacuated := true } ∧
      x.junction = { j with evacState := 0, evacPeer := 0 } ∧ x.security = { s.security with providerKey := s.security.nextKey, nextKey := s.security.nextKey + 1 } ∧
      x.regs = s.regs ∧ x.clock = s.clock ∧ x.health = s.health ∧ x.tenants = s.tenants ∧ x.seals = s.seals ∧ x.host = s.host)

/-- R164, R250, R281, R318, R319, R335, Tables 10-4 and 12-5: a READ or WRITE of 64 to 4,096 bytes inside one block, and an ATOMIC on whole
elements, is served as a CXL.mem access of the provider: its response has the data or status 0, status 0x07 where Table 10-4 gives
an error response, 0x02 where the message is malformed and 0x0F at another epoch; a sluice-class READ also reads what a tenant key
protects; a posted write or atomic gets no acknowledgement; a sealed target takes no atomic. -/
def Obligations.RemoteAccessesAreServed : Prop :=
  ∀ (h : MsgHead) (ty : Nat) (bs : List Byte) (s : State), h.wf = true → s.answers = true →
    let a := gaPhysical h.address
    let b := s.block (a / 0x200000)
    let served : Prop := s.boot.wipeDone = true ∧ s.security.state ≠ .retired
    let clean (n : Nat) : Prop := ∀ l ∈ s.poisoned, l * 64 + 64 ≤ a ∨ a + n ≤ l * 64
    let replied (c : Instr) (kind status : Nat) (data : List Byte) : Prop := ∃ x, exec c s = .next x ∧ Sent (responseTo h kind status [] data) s x
    let acked (c : Instr) (status : Nat) : Prop := (gaPosted h.address = true → exec c s = .next s) ∧ (gaPosted h.address = false → replied c 0x41 status [])
    let stale (c : Instr) : Prop := ∃ x, exec c s = .next x ∧ StaleAnswered h s x
    (rangeOk h.address h.length = false → replied (.read h) 0x40 stBadDescriptor []) ∧
    (rangeOk h.address h.length = true →
      (h.epoch ≠ s.junction.epoch → stale (.read h)) ∧
      (h.epoch = s.junction.epoch →
        (¬served → replied (.read h) 0x40 stAccess []) ∧
        (served → (b.state = .unmapped → replied (.read h) 0x40 stOk (List.replicate h.length 0)) ∧
          (b.t0 ≠ none → clean h.length →
            (b.state = .mapped → b.sealed = false ∨ b.keyOwner = 0 ∨ gaClass h.address = 1 → replied (.read h) 0x40 stOk (memBytes s.mem a h.length))) ∧
          (b.state = .mapped → b.sealed = true → b.keyOwner ≠ 0 → gaClass h.address ≠ 1 → replied (.read h) 0x40 stAccess []) ∧
          (b.state = .lost → replied (.read h) 0x40 stAccess [])))) ∧
    (rangeOk h.address bs.length = false → acked (.write h bs) stBadDescriptor) ∧
    (rangeOk h.address bs.length = true →
      (h.epoch ≠ s.junction.epoch → stale (.write h bs)) ∧
      (h.epoch = s.junction.epoch →
        (¬served ∨ b.state = .lost ∨ (b.state = .mapped ∧ b.sealed = true) → acked (.write h bs) stAccess) ∧
        (served → b.state = .mapped → b.sealed = false → Memory.wf s.mem = true → ∃ x y, exec (.write h bs) s = .next x ∧
          (∀ c, memByte y.mem c = if a ≤ c ∧ c < a + bs.length then bs.getD (c - a) 0 else memByte s.mem c) ∧ y = { s with mem := y.mem, poisoned := y.poisoned } ∧
          (gaPosted h.address = true → x = y) ∧ (gaPosted h.address = false → Sent (responseTo h 0x41 stOk [] []) y x)))) ∧
    ((gaOk h.address && atomicOk a ty bs) = false → acked (.atomic h ty bs) stBadDescriptor) ∧
    ((gaOk h.address && atomicOk a ty bs) = true →
      (h.epoch ≠ s.junction.epoch → stale (.atomic h ty bs)) ∧
      (h.epoch = s.junction.epoch →
        (¬served ∨ b.state ≠ .mapped ∨ b.sealed = true ∨ b.t0 = none → acked (.atomic h ty bs) stAccess) ∧
        (∀ l, served → b.state = .mapped → b.sealed = false → b.t0 ≠ none → queueFor s a = some l → gaClass h.address ≠ 2 → exec (.atomic h ty bs) s =
          .next { s with hostQueues := fmSet s.hostQueues l (fmGet s.hostQueues l [] ++ [.atomic a ty bs (if gaPosted h.address then none else some (h.source, h.tag))]) }) ∧
        (served → b.state = .mapped → b.sealed = false → b.t0 ≠ none → queueFor s a = none ∨ gaClass h.address = 2 → clean bs.length →
          ∃ x y, exec (.atomic h ty bs) s = .next x ∧ y.mem = memWrite s.mem a (atomicBytes ty (bs.length / atomicSize ty) (memBytes s.mem a bs.length) bs) ∧
            y = { s with mem := y.mem, atomicCache := y.atomicCache } ∧ (gaPosted h.address = true → x = y) ∧ (gaPosted h.address = false → Sent (responseTo h 0x41 stOk [] []) y x))))

/-- R320, R325, R335, R336, R439, R441: RA_GO sends the mailbox's one access, with the epoch 0 of a plain request, and sets RA_BUSY; while it
is set RA_GO is refused with kind 8. The response clears it and gives RA_STATUS, and a READ's bytes lie in RA_DATA; a request refused ROLE_STALE
is resolved and sent once more, to the module and epoch named; a second refusal, an unknown holder or 1 ms without a response
fails it with status 0x07. A response to a retired tag is discarded. That RA_OP 0 names no access is the model's choice (log 20). -/
def Obligations.MailboxAccessesCompleteOrFail : Prop :=
  ∀ (h : MsgHead) (s : State), h.wf = true →
    let j := s.junction
    let dest := gaModule (BitVec.ofNat 64 (s.reg 0x314000 0 0))
    let ended (status : Nat) (data : List Byte) (y : State) : State := { y with junction := { y.junction with raBusy := false, raStatus := status, raData := data } }
    let without (o : Outstanding) : State := { s with junction := { j with outstanding := j.outstanding.filter fun x => decide (x ≠ o) } }
    (s.exposed = true →
      (j.raBusy = true → exec .raGo s = .next (refuseWrite .pf 0x31400C 8 s)) ∧
      (j.raBusy = false → raOp s = 0 → exec .raGo s = .next s) ∧
      (j.raBusy = false → raOp s ≠ 0 → dest ≠ s.moduleId → (routePort s s.moduleId dest).isSome = true → gaPosted (BitVec.ofNat 64 (s.reg 0x314000 0 0)) = false ∨ raOp s = 1 →
        (j.outstanding.filter fun o => o.destination == dest).length < 4096 →
        ∃ x, exec .raGo s = .next x ∧ Sent (raMessage s dest j.nextTag 0)
          { s with junction := { j with raBusy := true, raTimeout := false, nextTag := (j.nextTag + 1) % 65536, outstanding := j.outstanding ++ [{ destination := dest, tag := j.nextTag, op := raOp s, resolving := false, retried := false }] } } x) ∧
      (j.raBusy = false → raOp s ≠ 0 → dest ≠ s.moduleId → routePort s s.moduleId dest = none → ∃ x y, exec .raGo s = .next x ∧
        Sent (raMessage s dest 0 0) { s with junction := { j with raBusy := true, raTimeout := false } } y ∧ x = ended stAccess j.raData y)) ∧
    (s.answers = true →
      (∀ st d, requestOf s h.source h.tag = none → exec (.readData h st d) s = .next s ∧ exec (.writeAck h st) s = .next s) ∧
      (∀ o st d, requestOf s h.source h.tag = some o → o.op ≠ 4 →
        (st ≠ stRoleStale → exec (.readData h st d) s = .next (ended st (if o.op = 1 ∧ st = stOk then d ++ j.raData.drop d.length else j.raData) (without o))) ∧
        (st ≠ stRoleStale → o.op ≠ 1 → exec (.writeAck h st) s = .next (ended st j.raData (without o))) ∧
        (o.retried = true → exec (.readData h stRoleStale d) s = .next (ended stAccess j.raData (without o)) ∧ exec (.writeAck h stRoleStale) s = .next (ended stAccess j.raData (without o))) ∧
        (o.retried = false → j.role ≠ .manager → ∃ x y, exec (.writeAck h stRoleStale) s = .next x ∧ exec (.readData h stRoleStale d) s = .next x ∧
          y = { without o with junction := { (without o).junction with resolves := (j.resolves + 1) % 2 ^ 32, outstanding := (without o).junction.outstanding ++ [{ o with resolving := true }] } } ∧
          Sent { kind := 0x05, destination := resolver s, tag := o.tag, epoch := 0, status := 0, address := 0, values := [1, o.destination], data := [] } y x)) ∧
      (∀ d t, (∀ o ∈ j.outstanding, ¬(o.destination = d ∧ o.tag = t)) → exec (.requestTimeout d t) s = .next s) ∧
      (∀ d t o r, j.outstanding = o :: r → o.destination = d → o.tag = t → o.op ≠ 4 → ∃ x, exec (.requestTimeout d t) s = .next x ∧
        x = { ended stAccess j.raData (without o) with junction := { (ended stAccess j.raData (without o)).junction with raTimeout := true } }) ∧
      (∀ i e b, (∀ o ∈ j.outstanding, o.resolving = false ∨ o.tag ≠ h.tag) → exec (.resolveReply h i e b) s = .next s) ∧
      (∀ i e o r, j.outstanding = o :: r → o.resolving = true → o.tag = h.tag → o.op ≠ 4 →
        exec (.resolveReply h i e false) s = .next (ended stAccess j.raData (without o)) ∧
        (i ≠ s.moduleId → (routePort s s.moduleId i).isSome = true → gaPosted (BitVec.ofNat 64 (s.reg 0x314000 0 0)) = false → r = [] →
          ∃ x, exec (.resolveReply h i e true) s = .next x ∧ Sent (raMessage s i j.nextTag e)
            { s with junction := { j with nextTag := (j.nextTag + 1) % 65536, outstanding := [{ destination := i, tag := j.nextTag, op := raOp s, resolving := false, retried := true }] } } x)))

/-- R372 to R375, R394, R404, R410 to R412, Tables 14-8 and 16-5: a FATAL fault stops the module once, with the cause and the domain it names; a rail out of
regulation has the cause POWER; a loss of the CXL link is FATAL but with REMOVE_READY, after an evacuation or within 60 s of the
latch's opening. The dump is finished in the host region where that can take it and no write fails, else in the reserve, and
DUMP_DONE is set; DUMP_RELEASE clears the reserve. REMOVE_REQ is taken with every context FREE, else refused with kind 4. A reset of a VF returns its
tenant block to its reset values, discards its completions not yet written and sets RESET_PENDING until the last clear; one in progress absorbs it. That the cause CXL_LOSS and a rail name no domain is the model's choice (log 24). -/
def Obligations.FatalFaultsRemovalAndFunctionResets : Prop :=
  ∀ (s : State), s.answers = true →
    let down : State := { s with boot := { s.boot with linkWidth := 0, linkRate := 0, cxlCache := false } }
    let removal : Prop := s.boot.removeReady = true ∨ s.boot.evacuated = true ∨ (s.boot.latchOpen = true ∧ s.boot.latchExpired = false)
    let region : Prop := dumpBase s ≠ 0 ∧ dumpBase s % 4096 = 0 ∧ 268435456 ≤ dumpSize s ∧ s.boot.linkWidth ≠ 0 ∧ reachable s 0 (dumpBase s) (dumpSize s) true = true
    let begins (bs : List Byte) : Prop := bs.take 8 = [0x4C, 0x54, 0x39, 0x44, 0x55, 0x4D, 0x50, 0x00]
    (s.faults.fatal = true → (∀ c d q, d.quad < 4 → exec (.fatalFault c d q) s = .next s) ∧ exec .railFault s = .next s ∧
      (s.boot.linkWidth ≠ 0 → exec .cxlLinkLoss s = .next down)) ∧
    (s.faults.fatal = false →
      (∀ c d q, d.quad < 4 → ∃ x, exec (.fatalFault c d q) s = .next x ∧ Stopped c d (if q then d.quad else 0xFF) s x) ∧
      (∃ x, exec .railFault s = .next x ∧ Stopped 0x14 noDomain 0xFF s x) ∧
      (s.boot.linkWidth ≠ 0 → ¬removal → ∃ x, exec .cxlLinkLoss s = .next x ∧ Stopped 0x13 noDomain 0xFF down x)) ∧
    (s.boot.linkWidth ≠ 0 → removal → exec .cxlLinkLoss s = .next down) ∧
    (s.boot.linkWidth = 0 → exec .cxlLinkLoss s = .next s) ∧
    (∀ f, s.faults.fatal = false ∨ s.faults.dumpDone = true ∨ s.faults.dump = none → exec (.dumpDone f) s = .next s) ∧
    (∀ f d, s.faults.fatal = true → s.faults.dumpDone = false → s.faults.dump = some d →
      ∃ x y, exec (.dumpDone f) s = .next x ∧ y.complete = true ∧ y = { d with toReserve := y.toReserve, complete := true, hostFailed := y.hostFailed } ∧
        (y.hostFailed = true ↔ f = true ∧ region) ∧ (f = true ∨ ¬region → y.toReserve = true) ∧
        (y.toReserve = false → ∃ bs, begins bs ∧ reachable s 0 (dumpBase s) bs.length true = true ∧
          x = { s with freeIndex := s.freeIndex + 1, host := hostPut s.host (s.pasid 0) (dumpBase s) bs, faults := { s.faults with dump := some y, dumpDone := true } }) ∧
        (y.toReserve = true → ∃ bs, begins bs ∧
          x = { s with freeIndex := s.freeIndex + 1, faults := { s.faults with dump := some y, dumpDone := true, dumpInReserve := true, reserve := bs } })) ∧
    (s.faults.dumpInReserve = false → exec .dumpRelease s = .next s) ∧
    (s.faults.dumpInReserve = true → exec .dumpRelease s =
      .next { s with faults := { s.faults with dumpInReserve := false, reserve := [] }, security := { s.security with dumpKey := none } }) ∧
    ((∀ x ∈ s.ctxs, x.2.state = .free) → exec .removeReq s = .next { s with boot := { s.boot with removing := true } }) ∧
    ((∃ x ∈ s.ctxs, x.2.state ≠ .free) → exec .removeReq s = .next { s with refusedCount := (s.refusedCount + 1) % 2 ^ 32, refusedAddr := 0x28, refusedKind := 4 }) ∧
    exec (.functionLevelReset 0) s = exec (.warmReset .pfFlr) s ∧
    (∀ t, 0 < t → t < 256 →
      let y := s.tenant t
      let inside (o l : Nat) : Prop := tenantBase t * 8 ≤ fieldKey o l ∧ fieldKey o l < (tenantBase t + 0x10000) * 8
      (s.boot.phase ≠ .ready ∨ y.resetPending = true → exec (.functionLevelReset t) s = .next s) ∧
      (s.boot.phase = .ready → y.resetPending = false → ∃ x, exec (.functionLevelReset t) s = .next x ∧
        x.tenant t = { freshTenant with
          params := y.params, budget := y.budget, periodStart := y.periodStart, refills := y.refills, adapterKey := y.adapterKey, stateKey := y.stateKey, resetPending := true, resetArmed := true } ∧
        (∀ q, q < 16 → x.qp t q = freshQp) ∧ (∀ o l d, inside o l → x.reg o l d = d) ∧ x.spdmOf t = freshSpdm ∧ (∀ c, c ∈ x.outbox ↔ c ∈ s.outbox ∧ c.tenant ≠ t) ∧
        (∀ u, u ≠ t → x.tenant u = s.tenant u ∧ x.spdmOf u = s.spdmOf u ∧ ∀ q, q < 16 → x.qp u q = s.qp u q) ∧ (∀ o l d, ¬inside o l → x.reg o l d = s.reg o l d) ∧
        x = { s with tenants := x.tenants, qps := x.qps, regs := x.regs, latched := x.latched, halves := x.halves, outbox := x.outbox, ringOut := x.ringOut, security := { s.security with spdm := x.security.spdm } }) ∧
      (¬(y.resetPending = true ∧ y.resetArmed = false ∧ y.clearAt ≤ s.boundary) → exec (.flrClearDone t) s = .next s) ∧
      (y.resetPending = true → y.resetArmed = false → y.clearAt ≤ s.boundary → ∃ x, exec (.flrClearDone t) s = .next x ∧
        x.tenant t = { y with resetPending := false } ∧ (∀ u, u ≠ t → x.tenant u = s.tenant u) ∧ x = { s with tenants := x.tenants }))
end

