-- ==== Sys2Proof/Laws/Memory.lean ====
section
/-! SUPPORT. The laws of sparse byte memories: a read after a write, and the canonical form that every operation
keeps. -/

set_option Elab.async false

namespace Sys2Proof.Laws

open Sys2Proof.Machine

/-! ## One byte -/

theorem cells_mono {m : List (Nat × Byte)} {lo lo' : Nat} (h : lo' ≤ lo) (w : cellsFrom lo m = true) :
    cellsFrom lo' m = true := by
  cases m with
  | nil => rfl
  | cons c r =>
    obtain ⟨a, b⟩ := c
    simp only [cellsFrom, Bool.and_eq_true, decide_eq_true_eq] at w ⊢
    exact ⟨⟨by omega, w.1.2⟩, w.2⟩

theorem cells_byte_low {m : List (Nat × Byte)} {lo a : Nat} (w : cellsFrom lo m = true) (h : a < lo) :
    memByte m a = 0 := by
  cases m with
  | nil => rfl
  | cons c r =>
    obtain ⟨k, v⟩ := c
    simp only [cellsFrom, Bool.and_eq_true, decide_eq_true_eq] at w
    have : ¬ k = a := by omega
    have : a < k := by omega
    simp [memByte, *]

theorem cells_set (m : List (Nat × Byte)) (a : Nat) (b : Byte) :
    ∀ lo, cellsFrom lo m = true → lo ≤ a → cellsFrom lo (memSet m a b) = true := by
  induction m with
  | nil =>
    intro lo _ h
    unfold memSet
    split
    · rfl
    · rename_i hb
      simp only [cellsFrom, Bool.and_eq_true, decide_eq_true_eq]
      exact ⟨⟨h, by simpa using hb⟩, trivial⟩
  | cons c r ih =>
    intro lo w h
    obtain ⟨k, v⟩ := c
    have w' := w
    simp only [cellsFrom, Bool.and_eq_true, decide_eq_true_eq] at w
    unfold memSet
    split
    · split
      · exact w'
      · rename_i hb
        simp only [cellsFrom, Bool.and_eq_true, decide_eq_true_eq]
        exact ⟨⟨h, by simpa using hb⟩, ⟨by omega, w.1.2⟩, w.2⟩
    · split
      · split
        · exact cells_mono (by omega) w.2
        · rename_i hb
          subst_vars
          simp only [cellsFrom, Bool.and_eq_true, decide_eq_true_eq]
          exact ⟨⟨h, by simpa using hb⟩, w.2⟩
      · simp only [cellsFrom, Bool.and_eq_true, decide_eq_true_eq]
        exact ⟨w.1, ih (k + 1) w.2 (by omega)⟩

/-- A byte written keeps the canonical form. -/
theorem memSet_wf {m : List (Nat × Byte)} (a : Nat) (b : Byte) (w : Memory.wf m = true) :
    Memory.wf (memSet m a b) = true := cells_set m a b 0 w (Nat.zero_le a)

theorem cells_set_byte (m : List (Nat × Byte)) (a : Nat) (b : Byte) (x : Nat) :
    ∀ lo, cellsFrom lo m = true → memByte (memSet m a b) x = if x = a then b else memByte m x := by
  induction m with
  | nil =>
    intro lo _
    unfold memSet
    split
    · rename_i hb
      have hb : b = 0 := by simpa using hb
      simp [memByte, hb]
    · by_cases hx : x = a
      · simp [memByte, hx]
      · have hx' : ¬ a = x := fun e => hx e.symm
        simp [memByte, hx, hx']
  | cons c r ih =>
    intro lo w
    obtain ⟨k, v⟩ := c
    simp only [cellsFrom, Bool.and_eq_true, decide_eq_true_eq] at w
    have low : ∀ y, y < k + 1 → memByte r y = 0 := fun y hy => cells_byte_low w.2 hy
    unfold memSet
    split
    · rename_i hk
      by_cases hb : b = 0
      · subst hb
        by_cases hx : x = a
        · subst hx
          have : ¬ k = x := by omega
          simp [memByte, this, hk]
        · simp [hx]
      · have e : (b == 0) = false := by simpa using hb
        simp only [e, Bool.false_eq_true, if_false]
        by_cases hx : x = a
        · simp [memByte, hx]
        · have hx' : ¬ a = x := fun e => hx e.symm
          simp only [memByte, hx, hx', if_false]
          split
          · have h1 : ¬ k = x := by omega
            have h2 : x < k := by omega
            simp [h1, h2]
          · rfl
    · rename_i hk
      split
      · rename_i ha
        subst ha
        by_cases hb : b = 0
        · subst hb
          simp only [beq_self_eq_true, if_true]
          by_cases hx : x = a
          · simp [hx, low a (by omega)]
          · have hx' : ¬ a = x := fun e => hx e.symm
            simp only [memByte, hx, hx', if_false]
            split
            · exact low x (by omega)
            · rfl
        · have e : (b == 0) = false := by simpa using hb
          simp only [e, Bool.false_eq_true, if_false]
          by_cases hx : x = a
          · simp [memByte, hx]
          · have hx' : ¬ a = x := fun e => hx e.symm
            simp [memByte, hx, hx']
      · rename_i ha
        by_cases hx : x = a
        · subst hx
          have h1 : ¬ k = x := fun e => ha e.symm
          have h2 : ¬ x < k := by omega
          have := ih (k + 1) w.2
          simp [memByte, h1, h2, this]
        · have := ih (k + 1) w.2
          simp [memByte, hx, this]

/-- A byte read after a byte written. -/
theorem memByte_set {m : List (Nat × Byte)} (w : Memory.wf m = true) (a : Nat) (b : Byte) (x : Nat) :
    memByte (memSet m a b) x = if x = a then b else memByte m x := cells_set_byte m a b x 0 w

/-! ## Ranges -/

/-- A write keeps the canonical form. -/
theorem memWrite_wf (bs : List Byte) : ∀ {m : List (Nat × Byte)} (a : Nat), Memory.wf m = true →
    Memory.wf (memWrite m a bs) = true := by
  induction bs with
  | nil => intro m a w; exact w
  | cons b r ih => intro m a w; exact ih (a + 1) (memSet_wf a b w)

/-- A byte read after a write: the byte written where it lies in the range, the old one elsewhere. -/
theorem memByte_write (bs : List Byte) : ∀ {m : List (Nat × Byte)} (a x : Nat), Memory.wf m = true →
    memByte (memWrite m a bs) x = if a ≤ x ∧ x < a + bs.length then bs.getD (x - a) 0 else memByte m x := by
  induction bs with
  | nil => intro m a x _; simp [memWrite]
  | cons b r ih =>
    intro m a x w
    rw [memWrite, ih (a + 1) x (memSet_wf a b w), memByte_set w]
    simp only [List.length_cons]
    by_cases h1 : x = a
    · subst h1
      simp
    · by_cases h2 : a + 1 ≤ x ∧ x < a + 1 + r.length
      · have h3 : a ≤ x ∧ x < a + (r.length + 1) := by omega
        have h4 : x - a = (x - (a + 1)) + 1 := by omega
        simp [h2, h3, h4]
      · have h3 : ¬ (a ≤ x ∧ x < a + (r.length + 1)) := by omega
        rw [if_neg h2, if_neg h3, if_neg h1]

theorem cells_filter (p : Nat × Byte → Bool) (m : List (Nat × Byte)) :
    ∀ lo, cellsFrom lo m = true → cellsFrom lo (m.filter p) = true := by
  induction m with
  | nil => intro lo w; exact w
  | cons c r ih =>
    intro lo w
    obtain ⟨k, v⟩ := c
    simp only [cellsFrom, Bool.and_eq_true, decide_eq_true_eq] at w
    cases h : p (k, v)
    · rw [List.filter_cons_of_neg (by simp [h])]
      exact cells_mono (by omega) (ih (k + 1) w.2)
    · rw [List.filter_cons_of_pos h]
      simp only [cellsFrom, Bool.and_eq_true, decide_eq_true_eq]
      exact ⟨w.1, ih (k + 1) w.2⟩

/-- A range cleared keeps the canonical form. -/
theorem memClear_wf {m : List (Nat × Byte)} (a n : Nat) (w : Memory.wf m = true) :
    Memory.wf (memClear m a n) = true := cells_filter _ m 0 w

theorem memSets_wf (f : Nat × Byte → Nat) (l : List (Nat × Byte)) : ∀ {m : List (Nat × Byte)}, Memory.wf m = true →
    Memory.wf (l.foldl (fun m c => memSet m (f c) c.2) m) = true := by
  induction l with
  | nil => intro m w; exact w
  | cons c r ih => intro m w; exact ih (memSet_wf _ _ w)

/-- A range copied keeps the canonical form of the memory it is copied to. -/
theorem memCopy_wf {dst : List (Nat × Byte)} (src : List (Nat × Byte)) (a b n : Nat) (w : Memory.wf dst = true) :
    Memory.wf (memCopy src dst a b n) = true := memSets_wf _ _ (memClear_wf b n w)

/-! ## Host memory -/

/-- Bytes written through the IOMMU keep the canonical form of host memory. -/
theorem hostPut_wf (p : Nat) (bs : List Byte) : ∀ {h : Platform} (a : Nat), Memory.wf h.mem = true →
    Memory.wf (hostPut h p a bs).mem = true := by
  induction bs with
  | nil => intro h a w; exact w
  | cons b r ih =>
    intro h a w
    unfold hostPut
    split
    · exact ih (a + 1) (memSet_wf _ _ w)
    · exact ih (a + 1) w

/-- Host software's own writes keep the canonical form. -/
theorem hostWrites_wf (l : List (Nat × List Byte)) : ∀ {m : List (Nat × Byte)}, Memory.wf m = true →
    Memory.wf (l.foldl (fun m w => memWrite m w.1 w.2) m) = true := by
  induction l with
  | nil => intro m w; exact w
  | cons c r ih => intro m w; exact ih (memWrite_wf _ _ w)

end Sys2Proof.Laws
end

