-- ==== Sys2Proof/Laws/Kept.lean ====
section
/-! SUPPORT. What nearly every operation keeps: the queue, the life cycle and the fuses, the seals, the power and
boot state, a FATAL fault, the canonical form of the memories and the clock's range. `Kept s t` says so of a state t
that comes from s; one lemma per operation follows in the files beside this one. -/

set_option Elab.async false

namespace Sys2Proof.Laws

open Sys2Proof.Machine

/-- What only a few commands change: the queue, the seals, power, boot phase, WIPE_DONE, and what is fused. -/
def lifeOf (s : State) : List Instr × BitVec 6 × Bool × BootPhase × Bool × LifeCycle × Nat × Nat × Bool × FMap Nat :=
  (s.pending, s.seals, s.power.on, s.boot.phase, s.boot.wipeDone, s.security.state, s.security.count, s.security.minSvn,
    s.security.gradeS, s.security.fusedPos)

/-- The same with what only boundaries and step starts change: the boundary count and stamp, STEP_COUNTER, the scalar bank
in use. -/
def coreOf (s : State) :
    (List Instr × BitVec 6 × Bool × BootPhase × Bool × LifeCycle × Nat × Nat × Bool × FMap Nat) × Nat × Nat × Nat × Nat :=
  (lifeOf s, s.boundary, s.stamp, s.stepCounter, s.activeBank)

/-- Nothing of `lifeOf` changed, a FATAL fault stays, and a well-formed state stays well formed. -/
def Lived (s t : State) : Prop :=
  lifeOf t = lifeOf s ∧ (s.faults.fatal = true → t.faults.fatal = true) ∧ (Formed s → Formed t)

/-- Nothing of `coreOf` changed, a FATAL fault stays, and a well-formed state stays well formed. -/
def Kept (s t : State) : Prop :=
  coreOf t = coreOf s ∧ (s.faults.fatal = true → t.faults.fatal = true) ∧ (Formed s → Formed t)

theorem Kept.lived {s t : State} (h : Kept s t) : Lived s t := ⟨congrArg Prod.fst h.1, h.2.1, h.2.2⟩

theorem Lived.refl (s : State) : Lived s s := ⟨rfl, id, id⟩

theorem Lived.trans {r s t : State} (h : Lived r s) (k : Lived s t) : Lived r t :=
  ⟨k.1.trans h.1, fun f => k.2.1 (h.2.1 f), fun f => k.2.2 (h.2.2 f)⟩

/-- An operation that `Kept` covers, after one that `Lived` covers. -/
theorem Lived.kept {r s t : State} (h : Lived r s) (k : Kept s t) : Lived r t := h.trans k.lived

theorem Kept.refl (s : State) : Kept s s := ⟨rfl, id, id⟩

theorem Kept.trans {r s t : State} (h : Kept r s) (k : Kept s t) : Kept r t :=
  ⟨k.1.trans h.1, fun f => k.2.1 (h.2.1 f), fun f => k.2.2 (h.2.2 f)⟩

/-- An update of fields that none of this is about. -/
theorem Kept.same {r s t : State} (h : Kept r s) (e1 : coreOf t = coreOf s := by unfold coreOf lifeOf; rfl)
    (e2 : t.faults.fatal = s.faults.fatal := by rfl) (e3 : t.mem = s.mem := by rfl) (e4 : t.bank = s.bank := by rfl)
    (e5 : t.host.mem = s.host.mem := by rfl) (e6 : t.clock.count = s.clock.count := by rfl)
    (e7 : t.clock.phase = s.clock.phase := by rfl) : Kept r t := by
  refine h.trans ⟨e1, fun f => e2 ▸ f, fun f => ?_⟩
  obtain ⟨⟨a, b, c⟩, d, e⟩ := f
  exact ⟨⟨e3 ▸ a, e4 ▸ b, e5 ▸ c⟩, e6 ▸ d, e7 ▸ e⟩

/-- An update of memories that keeps their canonical form. -/
theorem Kept.memory {r s t : State} (h : Kept r s) (m : MemoryForm s → MemoryForm t) (e1 : coreOf t = coreOf s := by unfold coreOf lifeOf; rfl)
    (e2 : t.faults.fatal = s.faults.fatal := by rfl) (e6 : t.clock.count = s.clock.count := by rfl)
    (e7 : t.clock.phase = s.clock.phase := by rfl) : Kept r t :=
  h.trans ⟨e1, fun f => e2 ▸ f, fun f => ⟨m f.1, e6 ▸ f.2.1, e7 ▸ f.2.2⟩⟩

/-- A clock set to a count inside the counter. -/
theorem clockSet_kept {r s : State} {c : Clock} (h : Kept r s) (k : c.count < 2 ^ 112 ∧ c.phase < 6) :
    Kept r { s with clock := c } := h.trans ⟨rfl, id, fun f => ⟨f.1, k⟩⟩

/-- A clock whose count and phase stay. -/
theorem clockSame_kept {r s : State} {c : Clock} (h : Kept r s) (k : c.count = s.clock.count)
    (l : c.phase = s.clock.phase) : Kept r { s with clock := c } :=
  h.trans ⟨rfl, id, fun f => ⟨f.1, k ▸ f.2.1, l ▸ f.2.2⟩⟩

theorem ite_kept {r s t : State} {c : Prop} [Decidable c] (h : Kept r s) (k : Kept r t) : Kept r (if c then s else t) := by
  split <;> assumption

theorem iteP_kept {α : Type} {r : State} {x y : α × State} {c : Prop} [Decidable c] (h : Kept r x.2) (k : Kept r y.2) :
    Kept r (if c then x else y).2 := by
  split <;> assumption

theorem iteP2_kept {α β : Type} {r : State} {x y : α × β × State} {c : Prop} [Decidable c] (h : Kept r x.2.2)
    (k : Kept r y.2.2) : Kept r (if c then x else y).2.2 := by
  split <;> assumption

theorem forEach_kept {α : Type} {r s : State} {l : List α} {f : α → State → State}
    (hf : ∀ a s, Kept r s → Kept r (f a s)) (h : Kept r s) : Kept r (forEach l f s) := by
  unfold forEach
  induction l generalizing s with
  | nil => exact h
  | cons a l ih => exact ih (hf a s h)

theorem foldl_kept {α : Type} {r s : State} {l : List α} {f : State → α → State}
    (hf : ∀ s a, Kept r s → Kept r (f s a)) (h : Kept r s) : Kept r (l.foldl f s) := by
  induction l generalizing s with
  | nil => exact h
  | cons a l ih => exact ih (hf s a h)

theorem foldlP_kept {α β : Type} {r : State} {l : List α} {f : β × State → α → β × State} {x : β × State}
    (hf : ∀ x a, Kept r x.2 → Kept r (f x a).2) (h : Kept r x.2) : Kept r (l.foldl f x).2 := by
  induction l generalizing x with
  | nil => exact h
  | cons a l ih => exact ih (hf x a h)

theorem foldlP2_kept {α β γ : Type} {r : State} {l : List α} {f : β × γ × State → α → β × γ × State} {x : β × γ × State}
    (hf : ∀ x a, Kept r x.2.2 → Kept r (f x a).2.2) (h : Kept r x.2.2) : Kept r (l.foldl f x).2.2 := by
  induction l generalizing x with
  | nil => exact h
  | cons a l ih => exact ih (hf x a h)

theorem pair_kept {α : Type} {r s : State} {a : α} (h : Kept r s) : Kept r (a, s).2 := h

theorem pair2_kept {α β : Type} {r s : State} {a : α} {b : β} (h : Kept r s) : Kept r (a, b, s).2.2 := h

theorem pair3_kept {α β : Type} {r : State} {a : α} {b : β × State} (h : Kept r b.2) : Kept r (a, b).2.2 := h

/-- An operation that may find nothing: what it finds is kept. -/
def KeptO (r : State) (o : Option State) : Prop := ∀ t, o = some t → Kept r t

theorem KeptO.none {r : State} : KeptO r Option.none := by intro t h; cases h

theorem KeptO.some {r s : State} (h : Kept r s) : KeptO r (Option.some s) := by intro t e; cases e; exact h

theorem KeptO.elim {r t : State} {o : Option State} (h : KeptO r o) (e : o = Option.some t) : Kept r t := h t e

theorem KeptO.ite {r : State} {x y : Option State} {c : Prop} [Decidable c] (h : KeptO r x) (k : KeptO r y) :
    KeptO r (if c then x else y) := by
  split <;> assumption

theorem getD_kept {r s : State} {o : Option State} (h : KeptO r o) (k : Kept r s) : Kept r (o.getD s) := by
  cases o with
  | none => exact k
  | some t => exact h t rfl

/-- The same where it finds a value beside the state. -/
def KeptOP {α : Type} (r : State) (o : Option (α × State)) : Prop := ∀ t, o = some t → Kept r t.2

theorem KeptOP.none {α : Type} {r : State} : KeptOP r (Option.none : Option (α × State)) := by intro t h; cases h

theorem KeptOP.some {α : Type} {r : State} {s : α × State} (h : Kept r s.2) : KeptOP r (Option.some s) := by
  intro t e; cases e; exact h

theorem KeptOP.elim {α : Type} {r t : State} {a : α} {o : Option (α × State)} (h : KeptOP r o)
    (e : o = Option.some (a, t)) : Kept r t := h (a, t) e

theorem KeptOP.ite {α : Type} {r : State} {x y : Option (α × State)} {c : Prop} [Decidable c] (h : KeptOP r x)
    (k : KeptOP r y) : KeptOP r (if c then x else y) := by
  split <;> assumption

/-- The same for the preparation of pages. -/
def KeptS (r : State) : PageStep → Prop
  | .ready s => Kept r s
  | .wait s => Kept r s

theorem KeptS.ready {r s : State} (h : Kept r s) : KeptS r (PageStep.ready s) := h

theorem KeptS.wait {r s : State} (h : Kept r s) : KeptS r (PageStep.wait s) := h

theorem KeptS.ite {r : State} {x y : PageStep} {c : Prop} [Decidable c] (h : KeptS r x) (k : KeptS r y) :
    KeptS r (if c then x else y) := by
  split <;> assumption

/-- The state of a preparation, ready or not. -/
def stepState : PageStep → State
  | .ready s => s
  | .wait s => s

theorem KeptS.elim {r s : State} {x y : PageStep} (h : KeptS r x) (e : x = y) (k : stepState y = s := by rfl) : Kept r s := by
  subst e k
  cases x <;> exact h

theorem takeFree_kept {r s : State} (h : Kept r s) : Kept r (takeFree s).2 := h.same

end Sys2Proof.Laws
end

