-- ==== Sys2Proof/Laws/KeptBase.lean ====
section
/-! SUPPORT. Every named operation, the map of units and the tiers keep what `Kept` says. -/

set_option Elab.async false

namespace Sys2Proof.Laws

open Sys2Proof.Machine

theorem modCtx_kept {r : State} {c : Nat} {f} {s} (hs : Kept r s) : Kept r (modCtx c f s) := by
  unfold modCtx
  exact hs.same

theorem modTenant_kept {r : State} {t : Nat} {f} {s} (hs : Kept r s) : Kept r (modTenant t f s) := by
  unfold modTenant
  exact hs.same

theorem whenServing_kept {r : State} {f : State → State} {s} (hf : ∀ s, Kept r s → Kept r (f s)) (hs : Kept r s) : Kept r (whenServing f s) := by
  unfold whenServing
  exact ite_kept (hf _ hs) hs

/-- The clock stays inside its counter. -/
theorem advance_form {c : Clock} (n : Nat) : (c.advance n).count < 2 ^ 112 ∧ (c.advance n).phase < 6 :=
  ⟨Nat.mod_lt _ (by decide), Nat.mod_lt _ (by decide)⟩

theorem passAclk_kept {r : State} {n : Nat} {s} (hs : Kept r s) : Kept r (passAclk n s) := by
  unfold passAclk
  split
  · exact hs.trans ⟨rfl, id, fun f => ⟨f.1, advance_form n⟩⟩
  · exact hs

theorem whenOn_kept {r : State} {f : State → State} {s} (hf : ∀ s, Kept r s → Kept r (f s)) (hs : Kept r s) : Kept r (whenOn f s) := by
  unfold whenOn
  exact ite_kept (hf _ hs) hs

theorem completeFetched_kept {r : State} {d} {status : Nat} {detail : Nat} {handle : Nat} {result} {s} (hs : Kept r s) : Kept r (completeFetched d status detail handle result s) := by
  unfold completeFetched
  exact hs.same

theorem hostChange_kept {r : State} {u s} (hs : Kept r s) : Kept r (hostChange u s) := by
  unfold hostChange
  exact hs.memory fun f => ⟨f.1, f.2.1, hostWrites_wf _ f.2.2⟩

theorem modPort_kept {r : State} {p : Nat} {f} {s} (hs : Kept r s) : Kept r (modPort p f s) := by
  unfold modPort
  exact hs.same

theorem reply_kept {r : State} {a1} {s} (hs : Kept r s) : Kept r (reply a1 s) := by
  unfold reply
  exact hs.same

theorem sendMsix_kept {r : State} {t : Nat} {v : Nat} {s} (hs : Kept r s) : Kept r (sendMsix t v s) := by
  unfold sendMsix
  extract_lets -merge -underBinder +onlyGivenNames y0
  exact hs.same

theorem writeHost_kept {r : State} {s t a bs} (hs : Kept r s) : KeptO r (writeHost s t a bs) := by
  unfold writeHost
  split
  · exact KeptO.some (hs.memory fun f => ⟨f.1, f.2.1, hostPut_wf _ _ _ f.2.2⟩)
  · exact KeptO.none

theorem whenAnswering_kept {r : State} {f : State → State} {s} (hf : ∀ s, Kept r s → Kept r (f s)) (hs : Kept r s) : Kept r (whenAnswering f s) := by
  unfold whenAnswering
  exact ite_kept (hf _ hs) hs

theorem whenExposed_kept {r : State} {f : State → State} {s} (hf : ∀ s, Kept r s → Kept r (f s)) (hs : Kept r s) : Kept r (whenExposed f s) := by
  unfold whenExposed
  exact ite_kept (hf _ hs) hs

theorem setReg_kept {r : State} {off : Nat} {lsb : Nat} {v : Nat} {s} (hs : Kept r s) : Kept r (setReg off lsb v s) := by
  unfold setReg
  exact hs.same

theorem modBlock_kept {r : State} {b : Nat} {f} {s} (hs : Kept r s) : Kept r (modBlock b f s) := by
  unfold modBlock
  exact hs.same

theorem modSlot_kept {r : State} {k : Nat} {f} {s} (hs : Kept r s) : Kept r (modSlot k f s) := by
  unfold modSlot
  exact hs.same

theorem modQp_kept {r : State} {t : Nat} {q : Nat} {f} {s} (hs : Kept r s) : Kept r (modQp t q f s) := by
  unfold modQp
  exact hs.same

theorem startRunning_kept {r : State} {d} {s} (hs : Kept r s) : Kept r (startRunning d s) := by
  unfold startRunning
  exact modQp_kept hs

theorem complete_kept {r : State} {d} {status : Nat} {detail : Nat} {s} (hs : Kept r s) : Kept r (complete d status detail s) := by
  unfold complete
  exact completeFetched_kept hs

theorem count_kept {r : State} {t : Nat} {f} {s} (hs : Kept r s) : Kept r (count t f s) := by
  unfold count
  exact modTenant_kept hs

theorem sendMsg_kept {r : State} {m s} (hs : Kept r s) : Kept r (sendMsg m s) := by
  unfold sendMsg
  extract_lets n put
  have hp : ∀ s, Kept r s → Kept r (put s) := fun s h => h.same
  split
  · exact hp _ hs
  · split
    · exact hp _ (modPort_kept hs)
    · exact hs.same

theorem modVector_kept {r : State} {t : Nat} {v : Nat} {f} {s} (hs : Kept r s) : Kept r (modVector t v f s) := by
  unfold modVector
  exact modTenant_kept hs

theorem completeRun_kept {r : State} {a1} {status : Nat} {detail : Nat} {handle : Nat} {result} {s} (hs : Kept r s) : Kept r (completeRun a1 status detail handle result s) := by
  unfold completeRun
  extract_lets -merge -underBinder +onlyGivenNames x0
  have h1 : Kept r x0 := modQp_kept hs
  try clear_value x0
  exact h1.same

theorem passSlots_kept {r : State} {n : Nat} {s} (hs : Kept r s) : Kept r (passSlots n s) := by
  unfold passSlots
  exact passAclk_kept hs

theorem sendOwed_kept {r : State} {t : Nat} {s} (hs : Kept r s) : Kept r (sendOwed t s) := by
  unfold sendOwed
  exact foldl_kept (fun s a h0 => ite_kept (modVector_kept (sendMsix_kept h0)) h0) hs

theorem idle_kept {r : State} {s} (hs : Kept r s) : Kept r (idle s) := by
  unfold idle
  exact passSlots_kept hs

theorem fireVector_kept {r : State} {t : Nat} {v : Nat} {s} (hs : Kept r s) : Kept r (fireVector t v s) := by
  unfold fireVector
  exact ite_kept (modVector_kept (sendMsix_kept hs)) (modVector_kept hs)

theorem answerStatus_kept {r : State} {dest : Nat} {tag : Nat} {status : Nat} {s} (hs : Kept r s) : Kept r (answerStatus dest tag status s) := by
  unfold answerStatus
  exact sendMsg_kept hs

theorem raiseVector_kept {r : State} {t : Nat} {v : Nat} {s} (hs : Kept r s) : Kept r (raiseVector t v s) := by
  unfold raiseVector
  extract_lets -merge -underBinder +onlyGivenNames y0 x1
  have h2 : Kept r x1 := modVector_kept hs
  try clear_value x1
  exact ite_kept (fireVector_kept h2) h2

theorem qpError_kept {r : State} {t : Nat} {q : Nat} {reason : Nat} {s} (hs : Kept r s) : Kept r (qpError t q reason s) := by
  unfold qpError
  exact ite_kept (raiseVector_kept (modQp_kept hs)) hs

theorem writeCompletion_kept {r : State} {c} {s} (hs : Kept r s) : Kept r (writeCompletion c s) := by
  unfold writeCompletion
  extract_lets -merge -underBinder +onlyGivenNames y0 y1 y2 y3 y4 y5
  split
  · rename_i z6 heq
    have h7 : Kept r z6 := KeptO.elim (writeHost_kept hs) heq
    extract_lets -merge -underBinder +onlyGivenNames x8
    have h9 : Kept r x8 := modQp_kept h7
    try clear_value x8
    exact count_kept h9
  · exact qpError_kept hs

theorem voidStep_kept {r : State} {s} (hs : Kept r s) : Kept r (voidStep s) := by
  unfold voidStep
  split
  · exact ite_kept hs.same hs
  · exact hs

theorem checkPrompt_kept {r : State} {q : Nat} {s} (hs : Kept r s) : Kept r (checkPrompt q s) := by
  unfold checkPrompt
  exact ite_kept hs.same hs

theorem setNbu_kept {r : State} {q : Nat} {l : Nat} {g : Nat} {p : Nat} {v : Nat} {s} (hs : Kept r s) : Kept r (setNbu q l g p v s) := by
  unfold setNbu
  exact hs.same

theorem record_kept {r : State} {e} {s} (hs : Kept r s) : Kept r (record e s) := by
  unfold record
  exact hs.same

theorem shedPhase_kept {r : State} {p : Nat} {s} (hs : Kept r s) : Kept r (shedPhase p s) := by
  unfold shedPhase
  exact ite_kept hs hs.same

theorem dropDomain_kept {r : State} {d} {s} (hs : Kept r s) : Kept r (dropDomain d s) := by
  unfold dropDomain
  exact hs.same

theorem modChannel_kept {r : State} {tier : Nat} {c : Nat} {f} {s} (hs : Kept r s) : Kept r (modChannel tier c f s) := by
  unfold modChannel
  exact hs.same

theorem closeWindows_kept {r : State} {stepRan} {s} (hs : Kept r s) : Kept r (closeWindows stepRan s) := by
  unfold closeWindows
  exact ite_kept hs.same hs

theorem setTile_kept {r : State} {q : Nat} {pa} {i : Nat} {v : Nat} {s} (hs : Kept r s) : Kept r (setTile q pa i v s) := by
  unfold setTile
  exact hs.same

theorem newMap_kept {r : State} {s} (hs : Kept r s) : Kept r (newMap s) := by
  unfold newMap
  exact hs.same

theorem setDomain_kept {r : State} {x} {s} (hs : Kept r s) : Kept r (setDomain x s) := by
  unfold setDomain
  exact hs.same

theorem writeLog_kept {r : State} {e} {s} (hs : Kept r s) : Kept r (writeLog e s) := by
  unfold writeLog
  extract_lets -merge -underBinder +onlyGivenNames y0
  exact ite_kept hs.same hs.same

theorem setCore_kept {r : State} {c : Nat} {v : Nat} {s} (hs : Kept r s) : Kept r (setCore c v s) := by
  unfold setCore
  exact hs.same

theorem noteFault_kept {r : State} {d} {unit : Nat} {s} (hs : Kept r s) : Kept r (noteFault d unit s) := by
  unfold noteFault
  extract_lets -merge -underBinder +onlyGivenNames y0 y1 y2 x3
  have h4 : Kept r x3 := hs.same
  try clear_value x3
  exact ite_kept h4.same h4

theorem retireFrame_kept {r : State} {tier : Nat} {f : Nat} {s} (hs : Kept r s) : Kept r (retireFrame tier f s) := by
  unfold retireFrame
  refine ite_kept hs ?_
  · extract_lets -merge -underBinder +onlyGivenNames y0 y1 x2
    have h3 : Kept r x2 := hs.same
    try clear_value x2
    exact ite_kept (record_kept h3) h3

theorem retireNbu_kept {r : State} {d} {p : Nat} {s} (hs : Kept r s) : Kept r (retireNbu d p s).2 := by
  unfold retireNbu
  extract_lets -merge -underBinder +onlyGivenNames y0 y1 y2
  refine iteP_kept (pair_kept hs) ?_
  · extract_lets -merge -underBinder +onlyGivenNames x3
    have h4 : Kept r x3 := record_kept hs
    try clear_value x3
    exact iteP_kept (pair_kept (newMap_kept (setNbu_kept h4))) (iteP_kept (pair_kept (newMap_kept (setNbu_kept (setNbu_kept (setNbu_kept h4))))) (pair_kept (newMap_kept (setNbu_kept h4))))

theorem repairRow_kept {r : State} {d} {row : Nat} {s} (hs : Kept r s) : Kept r (repairRow d row s).2 := by
  unfold repairRow
  extract_lets -merge -underBinder +onlyGivenNames y0
  exact iteP_kept (pair_kept (record_kept hs.same)) (pair_kept (retireFrame_kept hs))

theorem retest_kept {r : State} {failed} {x} {s} (hs : Kept r s) : Kept r (retest failed x s) := by
  unfold retest
  refine ite_kept hs ?_
  · refine ite_kept (setDomain_kept hs) ?_
    · extract_lets -merge -underBinder +onlyGivenNames x0
      have h1 : Kept r x0.2 := iteP_kept (repairRow_kept hs) (pair_kept hs)
      try clear_value x0
      extract_lets -merge -underBinder +onlyGivenNames x2
      have h3 : Kept r x2 := by
        unfold x2
        split
        · exact writeLog_kept h1
        · exact h1
      try clear_value x2
      exact setDomain_kept h3

theorem checkSpares_kept {r : State} {s} (hs : Kept r s) : Kept r (checkSpares s) := by
  unfold checkSpares
  exact ite_kept (raiseVector_kept hs.same) hs

theorem fatal_kept {r : State} {cause : Nat} {d} {s} (hs : Kept r s) : Kept r (fatal cause d s) := by
  unfold fatal
  split
  · exact hs
  · extract_lets -merge -underBinder +onlyGivenNames x0
    have h1 : Kept r x0 := forEach_kept (fun a s h => writeLog_kept h) hs
    extract_lets -merge -underBinder +onlyGivenNames x3
    have h4 : Kept r x3 := writeLog_kept h1
    exact raiseVector_kept (h4.trans ⟨rfl, fun _ => rfl, id⟩)

theorem retireLane_kept {r : State} {d} {s} (hs : Kept r s) : Kept r (retireLane d s).2 := by
  unfold retireLane
  extract_lets -merge -underBinder +onlyGivenNames y0 y1
  refine iteP_kept (pair_kept (fatal_kept hs)) ?_
  · extract_lets -merge -underBinder +onlyGivenNames x2
    have h3 : Kept r x2 := record_kept hs
    try clear_value x2
    exact pair_kept (ite_kept h3.same h3.same)

theorem checkArray_kept {r : State} {d} {s} (hs : Kept r s) : Kept r (checkArray d s) := by
  unfold checkArray
  exact ite_kept (fatal_kept hs) hs

theorem retireTile_kept {r : State} {d} {pa} {s} (hs : Kept r s) : Kept r (retireTile d pa s).2 := by
  unfold retireTile
  extract_lets -merge -underBinder +onlyGivenNames y0 y1
  refine iteP_kept (pair_kept hs) ?_
  · extract_lets -merge -underBinder +onlyGivenNames x2
    have h3 : Kept r x2 := record_kept (setTile_kept hs)
    try clear_value x2
    extract_lets -merge -underBinder +onlyGivenNames x4
    have h5 : Kept r x4.2 := by
      unfold x4
      split
      · exact iteP_kept (pair_kept h3) (pair_kept (newMap_kept (setTile_kept h3)))
      · exact pair_kept (newMap_kept h3)
    try clear_value x4
    exact pair_kept (ite_kept (checkPrompt_kept h5) (checkArray_kept h5))

theorem goOffline_kept {r : State} {d} {unit : Nat} {s} (hs : Kept r s) : Kept r (goOffline d unit s).2 := by
  unfold goOffline
  exact iteP_kept (retireNbu_kept hs) (iteP_kept (retireTile_kept hs) (iteP_kept (retireTile_kept hs) (iteP_kept (retireLane_kept hs) (iteP_kept (repairRow_kept hs) (iteP_kept (pair_kept (fatal_kept hs)) (iteP_kept (pair_kept (record_kept (modChannel_kept hs))) (iteP_kept (pair_kept (record_kept (modChannel_kept hs))) (iteP_kept (pair_kept (shedPhase_kept hs)) (iteP_kept (iteP_kept (pair_kept (setCore_kept hs)) (pair_kept (fatal_kept hs))) (pair_kept hs))))))))))

theorem escalate_kept {r : State} {x} {s} (hs : Kept r s) : Kept r (escalate x s) := by
  unfold escalate
  extract_lets -merge -underBinder +onlyGivenNames x0
  have h1 : Kept r x0.2 := goOffline_kept hs
  try clear_value x0
  extract_lets -merge -underBinder +onlyGivenNames x2
  have h3 : Kept r x2 := by
    unfold x2
    split
    · exact writeLog_kept h1
    · exact h1
  try clear_value x2
  exact setDomain_kept h3

theorem retireNamed_kept {r : State} {u} {s} (hs : Kept r s) : Kept r (retireNamed u s) := by
  unfold retireNamed
  exact ite_kept hs (goOffline_kept hs)

theorem chargeFault_kept {r : State} {cls : Nat} {d} {unit : Nat} {cause : Nat} {slot : Nat} {detail : Nat} {s} (hs : Kept r s) : Kept r (chargeFault cls d unit cause slot detail s) := by
  unfold chargeFault
  extract_lets -merge -underBinder +onlyGivenNames y0 x1
  have h2 : Kept r x1 := noteFault_kept hs
  try clear_value x1
  split
  · refine ite_kept (writeLog_kept h2) ?_
    · refine ite_kept ?_ ?_
      · extract_lets -merge -underBinder +onlyGivenNames x4
        have h5 : Kept r x4 := by
          unfold x4
          split
          · exact writeLog_kept h2
          · exact h2
        try clear_value x4
        exact setDomain_kept h5
      · extract_lets -merge -underBinder +onlyGivenNames x8
        have h9 : Kept r x8.2 := goOffline_kept h2
        try clear_value x8
        exact writeLog_kept (setDomain_kept h9)
  · exact ite_kept (setDomain_kept h2) (writeLog_kept (setDomain_kept h2))

theorem stepFault_kept {r : State} {d} {unit : Nat} {cause : Nat} {slot : Nat} {detail : Nat} {s} (hs : Kept r s) : Kept r (stepFault d unit cause slot detail s) := by
  unfold stepFault
  exact chargeFault_kept (voidStep_kept hs)

theorem unitFault_kept {r : State} {d} {unit : Nat} {cause : Nat} {slot : Nat} {detail : Nat} {s} (hs : Kept r s) : Kept r (unitFault d unit cause slot detail s) := by
  unfold unitFault
  exact chargeFault_kept hs

theorem swapSpares_kept {r : State} {failed} {s} (hs : Kept r s) : Kept r (swapSpares failed s) := by
  unfold swapSpares
  extract_lets -merge -underBinder +onlyGivenNames y0 x1
  have h2 : Kept r x1 := forEach_kept (fun a s h3 => ite_kept (escalate_kept h3) (retest_kept h3)) hs
  try clear_value x1
  extract_lets -merge -underBinder +onlyGivenNames y4 y5 x6
  have h7 : Kept r x6 := forEach_kept (fun a s h8 => retireNamed_kept h8) h2.same
  try clear_value x6
  exact checkSpares_kept h7

theorem countErr_kept {r : State} {e} {s} (hs : Kept r s) : Kept r (countErr e s) := by
  unfold countErr
  extract_lets -merge -underBinder +onlyGivenNames y0
  split
  · exact hs.same
  · exact hs.same
  · exact hs.same
  · exact hs.same
  · exact hs

theorem noteDecoded_kept {r : State} {n : Nat} {a : Nat} {s} (hs : Kept r s) : Kept r (noteDecoded n a s) := by
  unfold noteDecoded
  extract_lets -merge -underBinder +onlyGivenNames y0 y1
  exact hs.same

theorem queueSluice_kept {r : State} {op} {n : Nat} {s} (hs : Kept r s) : Kept r (queueSluice op n s) := by
  unfold queueSluice
  exact ite_kept hs.same hs.same

theorem addTransfer_kept {r : State} {t} {s} (hs : Kept r s) : Kept r (addTransfer t s) := by
  unfold addTransfer
  exact hs.same

theorem dropTransfers_kept {r : State} {p} {s} (hs : Kept r s) : Kept r (dropTransfers p s) := by
  unfold dropTransfers
  extract_lets -merge -underBinder +onlyGivenNames y0
  exact hs.same

theorem releaseLater_kept {r : State} {g} {s} (hs : Kept r s) : Kept r (releaseLater g s) := by
  unfold releaseLater
  exact hs.same

theorem finishCommand_kept {r : State} {block : Nat} {result : Nat} {s} (hs : Kept r s) : Kept r (finishCommand block result s) := by
  unfold finishCommand
  exact hs.same

theorem issuePromotion_kept {r : State} {cls : Nat} {n : Nat} {s} (hs : Kept r s) : Kept r (issuePromotion cls n s) := by
  unfold issuePromotion
  extract_lets -merge -underBinder +onlyGivenNames y0
  refine ite_kept ?_ hs
  · split
    · exact addTransfer_kept (modBlock_kept hs)
    · exact hs

theorem mapFresh_kept {r : State} {n q f : Nat} {s} (hs : Kept r s) : Kept r (mapFresh n q f s) := by
  unfold mapFresh
  exact modBlock_kept (hs.memory fun f => ⟨memClear_wf _ _ f.1, f.2⟩)

theorem issueDemotion_kept {r : State} {n : Nat} {s} (hs : Kept r s) : Kept r (issueDemotion n s) := by
  unfold issueDemotion
  extract_lets -merge -underBinder +onlyGivenNames y0
  refine ite_kept ?_ hs
  · extract_lets -merge -underBinder +onlyGivenNames y1 y2
    split
    · unfold y2
      try beta_reduce
      exact addTransfer_kept (modBlock_kept hs)
    · split
      · unfold y2
        try beta_reduce
        exact addTransfer_kept (modBlock_kept hs)
      · exact hs

theorem writeImage_kept {r : State} {n : Nat} {s} (hs : Kept r s) : Kept r (writeImage n s) := by
  unfold writeImage
  extract_lets -merge -underBinder +onlyGivenNames y0
  refine ite_kept (modBlock_kept hs) ?_
  · split
    · exact modBlock_kept hs
    · extract_lets -merge -underBinder +onlyGivenNames y5
      exact ite_kept (modBlock_kept hs) (modBlock_kept hs.same)

theorem releaseCopies_kept {r : State} {b} {s} (hs : Kept r s) : Kept r (releaseCopies b s) := by
  unfold releaseCopies
  extract_lets -merge -underBinder +onlyGivenNames x0
  have h1 : Kept r x0 := by
    unfold x0
    split
    · exact releaseLater_kept hs
    · exact hs
  try clear_value x0
  extract_lets -merge -underBinder +onlyGivenNames x4
  have h5 : Kept r x4 := by
    unfold x4
    split
    · exact releaseLater_kept h1
    · exact h1
  try clear_value x4
  extract_lets -merge -underBinder +onlyGivenNames x8
  have h9 : Kept r x8 := by
    unfold x8
    split
    · exact releaseLater_kept h5
    · exact h5
  try clear_value x8
  split
  · exact releaseLater_kept h9
  · exact h9

theorem noteLost_kept {r : State} {n : Nat} {s} (hs : Kept r s) : Kept r (noteLost n s) := by
  unfold noteLost
  extract_lets -merge -underBinder +onlyGivenNames y0 y1 x2
  have h3 : Kept r x2 := hs.same
  try clear_value x2
  extract_lets -merge -underBinder +onlyGivenNames x4
  have h5 : Kept r x4 := ite_kept (modSlot_kept h3) h3
  try clear_value x4
  exact h5.same

theorem unmapBlock_kept {r : State} {n : Nat} {s} (hs : Kept r s) : Kept r (unmapBlock n s) := by
  unfold unmapBlock
  split
  · exact hs
  · extract_lets -merge -underBinder +onlyGivenNames y0 y1 x2
    have h3 : Kept r x2 := hs.same
    extract_lets -merge -underBinder +onlyGivenNames x4
    have h5 : Kept r x4 := dropTransfers_kept (releaseCopies_kept h3)
    exact h5.memory fun f => ⟨memClear_wf _ _ f.1, f.2⟩

theorem evictBlock_kept {r : State} {n : Nat} {s} (hs : Kept r s) : Kept r (evictBlock n s) := by
  unfold evictBlock
  extract_lets -merge -underBinder +onlyGivenNames y0
  refine ite_kept ?_ (issueDemotion_kept hs)
  · split
    · exact releaseLater_kept (modBlock_kept hs)
    · exact hs

theorem loseBlock_kept {r : State} {n : Nat} {s} (hs : Kept r s) : Kept r (loseBlock n s) := by
  unfold loseBlock
  exact dropTransfers_kept (noteLost_kept (modBlock_kept hs))

theorem refetchOk_kept {r : State} {n : Nat} {s} (hs : Kept r s) : Kept r (refetchOk n s) := by
  unfold refetchOk
  extract_lets -merge -underBinder +onlyGivenNames y0
  split
  · exact ite_kept (modBlock_kept (dropTransfers_kept hs)) hs
  · extract_lets -merge -underBinder +onlyGivenNames x3
    have h4 : Kept r x3 := dropTransfers_kept hs
    try clear_value x3
    exact ite_kept (modBlock_kept h4) (writeImage_kept (modBlock_kept h4))

theorem issueRefetch_kept {r : State} {n : Nat} {a2 : Nat} {s} (hs : Kept r s) : Kept r (issueRefetch n a2 s) := by
  unfold issueRefetch
  extract_lets -merge -underBinder +onlyGivenNames y0 y1
  refine ite_kept (loseBlock_kept hs) ?_
  · extract_lets -merge -underBinder +onlyGivenNames y2
    exact addTransfer_kept (modBlock_kept hs.same)

theorem keepFree_kept {r : State} {s} (hs : Kept r s) : Kept r (keepFree s) := by
  unfold keepFree
  refine forEach_kept ?_ hs
  · intro a s h0
    extract_lets -merge -underBinder +onlyGivenNames y1 y2
    exact forEach_kept (fun a s h3 => evictBlock_kept h3) h0

theorem sluiceCommand_kept {r : State} {op} {n : Nat} {s} (hs : Kept r s) : Kept r (sluiceCommand op n s) := by
  unfold sluiceCommand
  extract_lets -merge -underBinder +onlyGivenNames y0
  refine ite_kept (finishCommand_kept hs) ?_
  · split
    · exact ite_kept (finishCommand_kept hs) (finishCommand_kept (modBlock_kept hs))
    · refine ite_kept (issuePromotion_kept hs.same) ?_
      · extract_lets -merge -underBinder +onlyGivenNames x3
        have h4 : Kept r x3 := by
          unfold x3
          split
          · exact releaseLater_kept hs
          · exact hs
        try clear_value x3
        extract_lets -merge -underBinder +onlyGivenNames x7
        have h8 : Kept r x7 := by
          unfold x7
          split
          · exact releaseLater_kept h4
          · exact h4
        try clear_value x7
        extract_lets -merge -underBinder +onlyGivenNames x11
        have h12 : Kept r x11 := ite_kept h8 (modBlock_kept h8)
        try clear_value x11
        exact finishCommand_kept h12
    · exact finishCommand_kept (unmapBlock_kept hs)

theorem sluiceCommands_kept {r : State} {s} (hs : Kept r s) : Kept r (sluiceCommands s) := by
  unfold sluiceCommands
  extract_lets -merge -underBinder +onlyGivenNames y0 y1 x2
  have h3 : Kept r x2 := hs.same
  try clear_value x2
  extract_lets -merge -underBinder +onlyGivenNames x4
  have h5 : Kept r x4 := forEach_kept (fun a s h6 => sluiceCommand_kept h6) h3
  try clear_value x4
  extract_lets -merge -underBinder +onlyGivenNames y7
  exact forEach_kept (fun a s h8 => sluiceCommand_kept h8) h5.same

theorem refetchFailed_kept {r : State} {n : Nat} {s} (hs : Kept r s) : Kept r (refetchFailed n s) := by
  unfold refetchFailed
  extract_lets -merge -underBinder +onlyGivenNames y0 x1
  have h2 : Kept r x1 := dropTransfers_kept hs.same
  try clear_value x1
  extract_lets -merge -underBinder +onlyGivenNames x3
  have h4 : Kept r x3 := modBlock_kept h2
  try clear_value x3
  exact ite_kept (loseBlock_kept h4) (issueRefetch_kept h4)

theorem packageError_kept {r : State} {n : Nat} {e} {s} (hs : Kept r s) : Kept r (packageError n e s) := by
  unfold packageError
  extract_lets -merge -underBinder +onlyGivenNames y0 x1
  have h2 : Kept r x1 := countErr_kept hs
  try clear_value x1
  extract_lets -merge -underBinder +onlyGivenNames y3 x4
  have h5 : Kept r x4 := writeLog_kept h2
  try clear_value x4
  refine ite_kept h5 ?_
  · refine ite_kept (refetchFailed_kept h5) ?_
    · extract_lets -merge -underBinder +onlyGivenNames y6 x7
      have h8 : Kept r x7 := dropTransfers_kept h5
      try clear_value x7
      refine ite_kept (issueRefetch_kept (modBlock_kept h8)) ?_
      · refine ite_kept ?_ ?_
        · extract_lets -merge -underBinder +onlyGivenNames x9
          have h10 : Kept r x9 := by
            unfold x9
            split
            · exact retireFrame_kept h8
            · exact h8
          try clear_value x9
          exact issueRefetch_kept (modBlock_kept h10)
        · extract_lets -merge -underBinder +onlyGivenNames x13
          have h14 : Kept r x13 := by
            unfold x13
            split
            · exact retireFrame_kept h8
            · exact h8
          try clear_value x13
          exact issueRefetch_kept (modBlock_kept h14)

end Sys2Proof.Laws
end

