-- ==== Sys2Proof/Laws/KeptPages.lean ====
section
/-! SUPPORT. Pages, sequences and weirs keep what `Kept` says. -/

set_option Elab.async false

namespace Sys2Proof.Laws

open Sys2Proof.Machine

theorem modPool_kept {r : State} {k : Nat} {f} {s} (hs : Kept r s) : Kept r (modPool k f s) := by
  unfold modPool
  split
  · exact hs.same
  · exact hs

theorem addUsable_kept {r : State} {k n : Nat} : ∀ {s}, Kept r s → Kept r (addUsable k n s).2 := by
  induction n with
  | zero => intro s h; exact h
  | succ n ih =>
    intro s h
    unfold addUsable
    split
    · exact h
    · split
      · exact ih (modPool_kept h)
      · exact h

theorem lackSet_kept {r : State} {slot : Nat} {n : Nat} {s} (hs : Kept r s) : Kept r (lackSet slot n s) := by
  unfold lackSet
  exact modPool_kept hs

theorem allocGroup_kept {r : State} {slot : Nat} {owner : Nat} {adapter : Nat} {s} (hs : Kept r s) : KeptOP r (allocGroup slot owner adapter s) := by
  unfold allocGroup
  split
  · split
    · exact KeptOP.some (pair_kept (modPool_kept hs.same))
    · exact KeptOP.none
  · exact KeptOP.none

theorem modGroup_kept {r : State} {g : Nat} {f} {s} (hs : Kept r s) : Kept r (modGroup g f s) := by
  unfold modGroup
  exact hs.same

theorem dropRef_kept {r : State} {g : Nat} {s} (hs : Kept r s) : Kept r (dropRef g s) := by
  unfold dropRef
  exact modGroup_kept hs

theorem startCopy_kept {r : State} {i : Nat} {k : Nat} {old : Nat} {s} (hs : Kept r s) : Kept r (startCopy i k old s) := by
  unfold startCopy
  extract_lets -merge -underBinder +onlyGivenNames y0
  refine ite_kept hs ?_
  · split
    · rename_i z1 z2 heq
      have h3 : Kept r z2 := KeptOP.elim (allocGroup_kept hs) heq
      exact addTransfer_kept (modCtx_kept h3)
    · exact lackSet_kept hs

theorem preparePage_kept {r : State} {i : Nat} {k : Nat} {s} (hs : Kept r s) : KeptS r (preparePage i k s) := by
  unfold preparePage
  extract_lets -merge -underBinder +onlyGivenNames y0 y1
  split
  · unfold y1
    try beta_reduce
    extract_lets -merge -underBinder +onlyGivenNames y3
    refine KeptS.ite (KeptS.wait hs) ?_
    · split
      · exact KeptS.wait (lackSet_kept hs)
      · rename_i z5 z6 heq
        have h7 : Kept r z6 := KeptOP.elim (allocGroup_kept hs) heq
        extract_lets -merge -underBinder +onlyGivenNames x8
        have h9 : Kept r x8 := modCtx_kept h7.same
        try clear_value x8
        split
        · refine KeptS.ite ?_ (KeptS.ready h9)
          · split
            · exact KeptS.ready (dropRef_kept (modCtx_kept h9))
            · exact KeptS.ready h9
        · exact KeptS.ready h9
  · extract_lets -merge -underBinder +onlyGivenNames y15
    refine KeptS.ite (KeptS.ready hs) ?_
    · refine KeptS.ite ?_ (KeptS.wait (startCopy_kept hs))
      · refine KeptS.ite ?_ ?_
        · split
          · exact KeptS.wait hs
          · split
            · exact KeptS.ready (modPool_kept (modGroup_kept hs))
            · exact KeptS.wait (lackSet_kept hs)
        · unfold y1
          try beta_reduce
          extract_lets -merge -underBinder +onlyGivenNames y21
          refine KeptS.ite (KeptS.wait (dropRef_kept (modCtx_kept hs))) ?_
          · split
            · exact KeptS.wait (lackSet_kept (dropRef_kept (modCtx_kept hs)))
            · rename_i z23 z24 heq
              have h25 : Kept r z24 := KeptOP.elim (allocGroup_kept (dropRef_kept (modCtx_kept hs))) heq
              extract_lets -merge -underBinder +onlyGivenNames x26
              have h27 : Kept r x26 := modCtx_kept h25.same
              try clear_value x26
              split
              · refine KeptS.ite ?_ (KeptS.ready h27)
                · split
                  · exact KeptS.ready (dropRef_kept (modCtx_kept h27))
                  · exact KeptS.ready h27
              · exact KeptS.ready h27

theorem preparePages_kept {r : State} {i : Nat} {l : List Nat} : ∀ {s}, Kept r s → KeptS r (preparePages i l s) := by
  induction l with
  | nil => intro s h; exact KeptS.ready h
  | cons k l ih =>
    intro s h
    unfold preparePages
    split
    · rename_i heq
      exact ih (KeptS.elim (preparePage_kept h) heq)
    · rename_i heq
      exact KeptS.wait (KeptS.elim (preparePage_kept h) heq)

theorem takeExtents_kept {r : State} {k : Nat} {l : List Nat} : ∀ {s}, Kept r s → KeptO r (takeExtents k l s) := by
  induction l with
  | nil => intro s h; exact KeptO.some h
  | cons q l ih =>
    intro s h
    unfold takeExtents
    split
    · exact KeptO.none
    · split
      · exact KeptO.none
      · exact ih (modPool_kept h)

theorem extendPool_kept {r : State} {k n : Nat} : ∀ {short s}, Kept r s → Kept r (extendPool k n short s).2 := by
  induction n with
  | zero => intro short s h; exact h
  | succ n ih =>
    intro short s h
    unfold extendPool
    split
    · exact h
    · split
      · exact h
      · split
        · exact h
        · rename_i heq
          exact ih (addUsable_kept (KeptO.elim (takeExtents_kept h) heq))

theorem removeNode_kept {r : State} {n} {s} (hs : Kept r s) : Kept r (removeNode n s) := by
  unfold removeNode
  exact dropRef_kept hs.same

theorem releaseNodes_kept {r : State} {slot n : Nat} : ∀ {short s}, Kept r s → Kept r (releaseNodes slot n short s).2 := by
  induction n with
  | zero => intro short s h; exact h
  | succ n ih =>
    intro short s h
    unfold releaseNodes
    split
    · exact h
    · split
      · split
        · exact ih (removeNode_kept h)
        · exact h
      · exact h

theorem reclaimItem_kept {r : State} {i} {s} (hs : Kept r s) : Kept r (reclaimItem i s) := by
  unfold reclaimItem
  split
  · extract_lets -merge -underBinder +onlyGivenNames y1
    exact hs.same
  · exact modPool_kept hs
  · exact hs.same
  · exact hs
  · exact hs

theorem addRef_kept {r : State} {g : Nat} {s} (hs : Kept r s) : Kept r (addRef g s) := by
  unfold addRef
  exact modGroup_kept hs

theorem graceSet_kept {r : State} {slot : Nat} {f : Nat} {s} (hs : Kept r s) : Kept r (graceSet slot f s) := by
  unfold graceSet
  exact releaseLater_kept hs

theorem startSpill_kept {r : State} {tiers} {g : Nat} {s} (hs : Kept r s) : KeptO r (startSpill tiers g s) := by
  unfold startSpill
  extract_lets -merge -underBinder +onlyGivenNames y0
  split
  · exact KeptO.none
  · split
    · extract_lets -merge -underBinder +onlyGivenNames y6 x7
      have h8 : Kept r x7 := hs.same
      try clear_value x7
      exact KeptO.some (addTransfer_kept (modGroup_kept h8))
    · exact KeptO.none

theorem graceImage_kept {r : State} {a1 : Nat} {s} (hs : Kept r s) : Kept r (graceImage a1 s) := by
  unfold graceImage
  exact releaseLater_kept hs

theorem abandonSpill_kept {r : State} {g : Nat} {s} (hs : Kept r s) : Kept r (abandonSpill g s) := by
  unfold abandonSpill
  extract_lets -merge -underBinder +onlyGivenNames y0
  refine ite_kept ?_ hs
  · extract_lets -merge -underBinder +onlyGivenNames x1
    have h2 : Kept r x1 := dropTransfers_kept hs.same
    try clear_value x1
    exact modGroup_kept h2

theorem sealGroup_kept {r : State} {g : Nat} {tokens} {s} (hs : Kept r s) : Kept r (sealGroup g tokens s) := by
  unfold sealGroup
  extract_lets -merge -underBinder +onlyGivenNames y0
  refine ite_kept hs ?_
  · extract_lets -merge -underBinder +onlyGivenNames x1
    have h2 : Kept r x1 := ite_kept hs hs.same
    try clear_value x1
    exact addTransfer_kept (modGroup_kept h2)

theorem pendAgain_kept {r : State} {i : Nat} {s} (hs : Kept r s) : Kept r (pendAgain i s) := by
  unfold pendAgain
  exact modCtx_kept hs

theorem shrinkPool_kept {r : State} {slot : Nat} {q : Nat} {s} (hs : Kept r s) : Kept r (shrinkPool slot q s) := by
  unfold shrinkPool
  split
  · exact hs
  · extract_lets -merge -underBinder +onlyGivenNames y2 y3 y4
    exact ite_kept (modPool_kept hs) (modPool_kept hs)

theorem copyRows_kept {r : State} {l s} (hs : Kept r s) : Kept r (copyRows l s) := by
  unfold copyRows
  exact forEach_kept (fun a s h => h.memory fun f => ⟨f.1, memCopy_wf _ _ _ _ f.2.1, f.2.2⟩) hs

theorem reclaim_kept {r : State} {s} (hs : Kept r s) : Kept r (reclaim s) := by
  unfold reclaim
  extract_lets -merge -underBinder +onlyGivenNames y0 x1
  have h2 : Kept r x1 := hs.same
  try clear_value x1
  exact forEach_kept (fun a s h3 => reclaimItem_kept h3) h2

theorem sealTail_kept {r : State} {i : Nat} {s} (hs : Kept r s) : Kept r (sealTail i s) := by
  unfold sealTail
  extract_lets -merge -underBinder +onlyGivenNames y0
  refine ite_kept hs ?_
  · split
    · exact sealGroup_kept (modGroup_kept hs)
    · exact hs

theorem releasePages_kept {r : State} {i : Nat} {s} (hs : Kept r s) : Kept r (releasePages i s) := by
  unfold releasePages
  extract_lets -merge -underBinder +onlyGivenNames x0
  have h1 : Kept r x0 := forEach_kept (fun a s h2 => dropRef_kept h2) hs
  try clear_value x0
  exact modCtx_kept h1

theorem finishCopy_kept {r : State} {i : Nat} {s} (hs : Kept r s) : Kept r (finishCopy i s) := by
  unfold finishCopy
  split
  · exact hs
  · refine ite_kept hs ?_
    · extract_lets -merge -underBinder +onlyGivenNames y2 y3 x4
      have h5 : Kept r x4 := by
        unfold x4
        split
        · exact hs
        · split
          · split
            · exact copyRows_kept hs
            · exact hs
          · split
            · exact copyRows_kept hs
            · exact hs
          · exact copyRows_kept hs
      try clear_value x4
      exact dropTransfers_kept (modCtx_kept h5)

theorem finishPrefetch_kept {r : State} {g : Nat} {s} (hs : Kept r s) : Kept r (finishPrefetch g s) := by
  unfold finishPrefetch
  extract_lets -merge -underBinder +onlyGivenNames y0
  refine ite_kept ?_ hs
  · extract_lets -merge -underBinder +onlyGivenNames x1
    have h2 : Kept r x1 := by
      unfold x1
      split
      · exact copyRows_kept hs
      · exact hs
    try clear_value x1
    exact dropTransfers_kept (modGroup_kept h2)

theorem startPrefetch_kept {r : State} {g : Nat} {s} (hs : Kept r s) : Kept r (startPrefetch g s) := by
  unfold startPrefetch
  extract_lets -merge -underBinder +onlyGivenNames y0
  refine ite_kept ?_ hs
  · split
    · exact hs
    · split
      · exact addTransfer_kept (modPool_kept (modGroup_kept hs))
      · exact lackSet_kept hs

theorem releaseGroupData_kept {r : State} {g : Nat} {s} (hs : Kept r s) : Kept r (releaseGroupData g s) := by
  unfold releaseGroupData
  extract_lets -merge -underBinder +onlyGivenNames y0
  split
  · exact graceSet_kept hs
  · exact graceImage_kept (graceSet_kept hs)
  · exact graceImage_kept (graceSet_kept hs)
  · exact graceImage_kept hs
  · exact graceImage_kept hs
  · exact hs

theorem settleTransfers_kept {r : State} {s} (hs : Kept r s) : Kept r (settleTransfers s) := by
  unfold settleTransfers
  refine forEach_kept ?_ hs
  · intro a s h0
    extract_lets -merge -underBinder +onlyGivenNames y1
    refine ite_kept ?_ (ite_kept (graceImage_kept (modGroup_kept h0)) (modGroup_kept h0))
    · extract_lets -merge -underBinder +onlyGivenNames y2
      exact graceSet_kept (modGroup_kept h0)

theorem installCopies_kept {r : State} {s} (hs : Kept r s) : Kept r (installCopies s) := by
  unfold installCopies
  refine forEach_kept ?_ hs
  · intro a s h0
    split
    · exact h0
    · extract_lets -merge -underBinder +onlyGivenNames y3 x4
      have h5 : Kept r x4 := modGroup_kept h0
      try clear_value x4
      exact ite_kept (dropRef_kept (modCtx_kept h5)) (dropRef_kept (modCtx_kept h5))

theorem spillCategory_kept {r : State} {tiers} {rung : Nat} {l} {acc} (hacc : Kept r acc.2) : Kept r (spillCategory tiers rung l acc).2 := by
  unfold spillCategory
  refine foldlP_kept ?_ hacc
  · intro s a h0
    refine foldlP_kept ?_ h0
    · intro s a h1
      extract_lets -merge -underBinder +onlyGivenNames y2
      refine iteP_kept h1 ?_
      · split
        · rename_i z3 heq
          have h4 : Kept r z3 := KeptO.elim (startSpill_kept h1) heq
          exact pair_kept h4
        · exact h1

theorem spillDormant_kept {r : State} {s} (hs : Kept r s) : Kept r (spillDormant s) := by
  unfold spillDormant
  refine forEach_kept ?_ hs
  · intro a s h0
    refine forEach_kept ?_ h0
    · intro a s h1
      extract_lets -merge -underBinder +onlyGivenNames y2
      exact ite_kept (getD_kept (startSpill_kept h1) h1) h1

theorem editCtx_kept {r : State} {i : Nat} {s} (hs : Kept r s) : Kept r (editCtx i s) := by
  unfold editCtx
  extract_lets -merge -underBinder +onlyGivenNames y0 y1
  refine forEach_kept ?_ hs
  · intro a s h2
    extract_lets -merge -underBinder +onlyGivenNames y3
    split
    · exact h2
    · refine ite_kept (dropRef_kept (modCtx_kept h2)) ?_
      · extract_lets -merge -underBinder +onlyGivenNames y6
        refine ite_kept ?_ h2
        · extract_lets -merge -underBinder +onlyGivenNames y7 x8
          have h9 : Kept r x8 := modGroup_kept h2
          try clear_value x8
          exact ite_kept (sealGroup_kept h9) h9

theorem finishSpill_kept {r : State} {g : Nat} {s} (hs : Kept r s) : Kept r (finishSpill g s) := by
  unfold finishSpill
  extract_lets -merge -underBinder +onlyGivenNames y0
  refine ite_kept ?_ hs
  · extract_lets -merge -underBinder +onlyGivenNames x1
    have h2 : Kept r x1 := by
      unfold x1
      split
      · exact copyRows_kept hs
      · exact hs
    try clear_value x1
    exact dropTransfers_kept (modGroup_kept h2)

theorem dropGroup_kept {r : State} {g : Nat} {s} (hs : Kept r s) : Kept r (dropGroup g s) := by
  unfold dropGroup
  extract_lets -merge -underBinder +onlyGivenNames y0
  refine ite_kept hs ?_
  · extract_lets -merge -underBinder +onlyGivenNames y1 x2
    have h3 : Kept r x2 := dropTransfers_kept (releaseGroupData_kept hs)
    try clear_value x2
    extract_lets -merge -underBinder +onlyGivenNames x4
    have h5 : Kept r x4 := modGroup_kept h3
    try clear_value x4
    refine forEach_kept ?_ h5
    · intro a s h6
      split
      · exact pendAgain_kept (modCtx_kept h6)
      · exact h6

theorem enterGrace_kept {r : State} {g : Nat} {s} (hs : Kept r s) : Kept r (enterGrace g s) := by
  unfold enterGrace
  extract_lets -merge -underBinder +onlyGivenNames x0
  have h1 : Kept r x0 := dropTransfers_kept (releaseGroupData_kept hs)
  try clear_value x0
  exact releaseLater_kept (modGroup_kept h1)

theorem graceGroups_kept {r : State} {s} (hs : Kept r s) : Kept r (graceGroups s) := by
  unfold graceGroups
  exact forEach_kept (fun a s h0 => enterGrace_kept h0) hs

theorem dropCategory_kept {r : State} {l} {acc} (hacc : Kept r acc.2) : Kept r (dropCategory l acc).2 := by
  unfold dropCategory
  refine foldlP_kept ?_ hacc
  · intro s a h0
    refine iteP_kept h0 ?_
    · refine foldlP_kept ?_ h0
      · intro s a h1
        extract_lets -merge -underBinder +onlyGivenNames y2
        exact iteP_kept (pair_kept (dropGroup_kept h1)) h1

theorem reclaimPool_kept {r : State} {slot : Nat} {s} (hs : Kept r s) : Kept r (reclaimPool slot s) := by
  unfold reclaimPool
  split
  · exact hs
  · extract_lets -merge -underBinder +onlyGivenNames y2 x3
    have h4 : Kept r x3 := modPool_kept hs
    try clear_value x3
    extract_lets -merge -underBinder +onlyGivenNames x5
    have h6 : Kept r x5.2 := extendPool_kept h4
    try clear_value x5
    extract_lets -merge -underBinder +onlyGivenNames x7
    have h8 : Kept r x7.2 := releaseNodes_kept h6
    try clear_value x7
    extract_lets -merge -underBinder +onlyGivenNames x9
    have h10 : Kept r x9.2 := spillCategory_kept h8
    try clear_value x9
    extract_lets -merge -underBinder +onlyGivenNames x11
    have h12 : Kept r x11.2 := spillCategory_kept h10
    try clear_value x11
    extract_lets -merge -underBinder +onlyGivenNames x13
    have h14 : Kept r x13.2 := spillCategory_kept h12
    try clear_value x13
    extract_lets -merge -underBinder +onlyGivenNames x15
    have h16 : Kept r x15.2 := spillCategory_kept h14
    try clear_value x15
    extract_lets -merge -underBinder +onlyGivenNames y17
    refine ite_kept ?_ h16
    · extract_lets -merge -underBinder +onlyGivenNames x18
      have h19 : Kept r x18.2 := dropCategory_kept h16
      try clear_value x18
      extract_lets -merge -underBinder +onlyGivenNames x20
      have h21 : Kept r x20.2 := dropCategory_kept h19
      try clear_value x20
      extract_lets -merge -underBinder +onlyGivenNames x22
      have h23 : Kept r x22.2 := dropCategory_kept h21
      try clear_value x22
      exact dropCategory_kept h23

theorem reclaimPools_kept {r : State} {s} (hs : Kept r s) : Kept r (reclaimPools s) := by
  unfold reclaimPools
  extract_lets -merge -underBinder +onlyGivenNames x0
  have h1 : Kept r x0 := forEach_kept (fun a s h2 => reclaimPool_kept h2) hs
  try clear_value x0
  exact forEach_kept (fun a s h3 => forEach_kept (fun a s h4 => shrinkPool_kept h4) h3) h1

theorem nextUse_kept {r : State} {s} (hs : Kept r s) : Kept r (nextUse s) := by
  unfold nextUse
  exact hs.same

theorem refreshFinal_kept {r : State} {i : Nat} {s} (hs : Kept r s) : Kept r (refreshFinal i s) := by
  unfold refreshFinal
  extract_lets -merge -underBinder +onlyGivenNames y0
  exact hs.same

theorem queueFinal_kept {r : State} {i : Nat} {status : Nat} {detail : Nat} {s} (hs : Kept r s) : Kept r (queueFinal i status detail s) := by
  unfold queueFinal
  extract_lets -merge -underBinder +onlyGivenNames y0
  exact hs.same

theorem queueEnd_kept {r : State} {i : Nat} {reason : Nat} {stop : Nat} {s} (hs : Kept r s) : Kept r (queueEnd i reason stop s) := by
  unfold queueEnd
  exact hs.same

theorem dropOutput_kept {r : State} {i : Nat} {s} (hs : Kept r s) : Kept r (dropOutput i s) := by
  unfold dropOutput
  extract_lets -merge -underBinder +onlyGivenNames x0
  have h1 : Kept r x0 := hs.same
  try clear_value x0
  exact modCtx_kept h1

theorem queueHistory_kept {r : State} {g : Nat} {tokens} {s} (hs : Kept r s) : Kept r (queueHistory g tokens s) := by
  unfold queueHistory
  exact ite_kept hs (addTransfer_kept (modGroup_kept hs.same))

theorem drainSeq_kept {r : State} {i : Nat} {d} {s} (hs : Kept r s) : Kept r (drainSeq i d s) := by
  unfold drainSeq
  exact ite_kept (modCtx_kept hs) hs

theorem removeNodes_kept {r : State} {p} {s} (hs : Kept r s) : Kept r (removeNodes p s) := by
  unfold removeNodes
  extract_lets -merge -underBinder +onlyGivenNames y0
  exact forEach_kept (fun a s h1 => dropRef_kept h1) hs.same

theorem unbind_kept {r : State} {b} {s} (hs : Kept r s) : Kept r (unbind b s) := by
  unfold unbind
  extract_lets -merge -underBinder +onlyGivenNames x0
  have h1 : Kept r x0 := hs.same
  try clear_value x0
  extract_lets -merge -underBinder +onlyGivenNames x2
  have h3 : Kept r x2 := forEach_kept (fun a s h4 => dropRef_kept h4) h1
  try clear_value x2
  extract_lets -merge -underBinder +onlyGivenNames y5 x6
  have h7 : Kept r x6 := h3.same
  try clear_value x6
  exact forEach_kept (fun a s h8 => completeRun_kept (forEach_kept (fun a s h9 => modGroup_kept h9) h8)) h7

theorem releaseDrafts_kept {r : State} {k : Nat} {s} (hs : Kept r s) : Kept r (releaseDrafts k s) := by
  unfold releaseDrafts
  refine forEach_kept ?_ hs
  · intro a s h0
    extract_lets -merge -underBinder +onlyGivenNames y1
    exact ite_kept (modCtx_kept (forEach_kept (fun a s h2 => dropRef_kept h2) h0)) h0

theorem freeCtx_kept {r : State} {i : Nat} {s} (hs : Kept r s) : Kept r (freeCtx i s) := by
  unfold freeCtx
  extract_lets -merge -underBinder +onlyGivenNames x0
  have h1 : Kept r x0 := releasePages_kept hs
  try clear_value x0
  extract_lets -merge -underBinder +onlyGivenNames x2
  have h3 : Kept r x2 := h1.same
  try clear_value x2
  exact modCtx_kept h3

theorem bindPrefix_kept {r : State} {t : Nat} {v} {i : Nat} {n : Nat} {s} (hs : Kept r s) : KeptO r (bindPrefix t v i n s) := by
  unfold bindPrefix
  extract_lets -merge -underBinder +onlyGivenNames y0 y1 y2 y3 x4
  have h5 : Kept r x4 := by
    unfold x4
    split
    · exact unbind_kept hs
    · refine ite_kept ?_ hs
      · split
        · exact unbind_kept hs
        · exact hs
  try clear_value x4
  refine KeptO.ite KeptO.none ?_
  · extract_lets -merge -underBinder +onlyGivenNames x10
    have h11 : Kept r x10 := nextUse_kept (forEach_kept (fun a s h12 => addRef_kept h12) h5)
    try clear_value x10
    extract_lets -merge -underBinder +onlyGivenNames x13
    have h14 : Kept r x13 := h11.same
    try clear_value x13
    refine KeptO.some ?_
    · refine ite_kept h14 ?_
      · split
        · exact queueHistory_kept h14
        · exact h14

theorem unmapRange_kept {r : State} {first : Nat} {n : Nat} {s} (hs : Kept r s) : Kept r (unmapRange first n s) := by
  unfold unmapRange
  exact forEach_kept (fun a s h0 => unmapBlock_kept h0) hs

theorem emptyCtx_kept {r : State} {i : Nat} {s} (hs : Kept r s) : Kept r (emptyCtx i s) := by
  unfold emptyCtx
  extract_lets -merge -underBinder +onlyGivenNames x0
  have h1 : Kept r x0 := releasePages_kept hs
  try clear_value x0
  extract_lets -merge -underBinder +onlyGivenNames y2
  exact modCtx_kept h1.same

theorem endSeq_kept {r : State} {state} {status : Nat} {i : Nat} {s} (hs : Kept r s) : Kept r (endSeq state status i s) := by
  unfold endSeq
  extract_lets -merge -underBinder +onlyGivenNames y0 y1 x2
  have h3 : Kept r x2 := ite_kept hs (queueFinal_kept (queueEnd_kept hs))
  try clear_value x2
  exact ite_kept (freeCtx_kept h3) (emptyCtx_kept (modCtx_kept h3))

theorem releasePool_kept {r : State} {k : Nat} {s} (hs : Kept r s) : Kept r (releasePool k s) := by
  unfold releasePool
  extract_lets -merge -underBinder +onlyGivenNames x0
  have h1 : Kept r x0 := forEach_kept (fun a s h2 => emptyCtx_kept h2) hs
  try clear_value x0
  extract_lets -merge -underBinder +onlyGivenNames x3
  have h4 : Kept r x3 := forEach_kept (fun a s h5 => unbind_kept h5) h1
  try clear_value x3
  exact releaseDrafts_kept (removeNodes_kept h4)

theorem finishExports_kept {r : State} {s} (hs : Kept r s) : Kept r (finishExports s) := by
  unfold finishExports
  extract_lets -merge -underBinder +onlyGivenNames y0
  refine forEach_kept ?_ hs
  · intro a s h1
    refine ite_kept ?_ h1
    · split
      · rename_i z2 heq
        have h3 : Kept r z2 := KeptO.elim (bindPrefix_kept h1) heq
        exact completeRun_kept h3.same
      · exact h1

theorem endJobs_kept {r : State} {k : Nat} {s} (hs : Kept r s) : Kept r (endJobs k s) := by
  unfold endJobs
  extract_lets -merge -underBinder +onlyGivenNames y0 x1
  have h2 : Kept r x1 := hs.same
  try clear_value x1
  extract_lets -merge -underBinder +onlyGivenNames x3
  have h4 : Kept r x3 := forEach_kept (fun a s h5 => completeRun_kept h5) h2
  try clear_value x3
  refine forEach_kept ?_ h4
  · intro a s h6
    split
    · exact freeCtx_kept (completeRun_kept h6)
    · exact h6

theorem finishDraining_kept {r : State} {i : Nat} {s} (hs : Kept r s) : Kept r (finishDraining i s) := by
  unfold finishDraining
  split
  · exact hs
  · extract_lets -merge -underBinder +onlyGivenNames x2
    have h3 : Kept r x2 := dropOutput_kept hs
    try clear_value x2
    extract_lets -merge -underBinder +onlyGivenNames x4
    have h5 : Kept r x4 := ite_kept h3 (queueFinal_kept (queueEnd_kept h3))
    try clear_value x4
    exact ite_kept (freeCtx_kept h5) (modCtx_kept h5)

theorem emptyModel_kept {r : State} {k : Nat} {s} (hs : Kept r s) : Kept r (emptyModel k s) := by
  unfold emptyModel
  extract_lets -merge -underBinder +onlyGivenNames y0 y1 x2
  have h3 : Kept r x2 := endJobs_kept (forEach_kept (fun a s h4 => endSeq_kept h4) hs)
  try clear_value x2
  extract_lets -merge -underBinder +onlyGivenNames x5
  have h6 : Kept r x5 := releasePool_kept h3
  try clear_value x5
  extract_lets -merge -underBinder +onlyGivenNames x7
  have h8 : Kept r x7 := unmapRange_kept h6
  try clear_value x7
  exact modSlot_kept h8.same

theorem snoop_kept {r : State} {point : Nat} {filter} {bs} {s} (hs : Kept r s) : Kept r (snoop point filter bs s) := by
  unfold snoop
  exact hs.same

theorem passWeir_kept {r : State} {w : Nat} {b : Nat} {bytes : Nat} {s} (hs : Kept r s) : Kept r (passWeir w b bytes s) := by
  unfold passWeir
  extract_lets -merge -underBinder +onlyGivenNames y0
  exact hs.same

theorem passPieces_kept {r : State} {w b : Nat} {l : List Nat} : ∀ {s}, Kept r s → Kept r (passPieces w b l s).2 := by
  induction l with
  | nil => intro s h; exact h
  | cons n l ih =>
    intro s h
    unfold passPieces
    dsimp only
    split
    · exact ih (passWeir_kept h)
    · exact passWeir_kept h

theorem refillBucket_kept {r : State} {w : Nat} {b : Nat} {s} (hs : Kept r s) : Kept r (refillBucket w b s) := by
  unfold refillBucket
  extract_lets -merge -underBinder +onlyGivenNames y0 y1 y2
  exact hs.same

theorem refillWeirs_kept {r : State} {s} (hs : Kept r s) : Kept r (refillWeirs s) := by
  unfold refillWeirs
  exact forEach_kept (fun a s h0 => forEach_kept (fun a s h1 => refillBucket_kept h1) h0) hs

theorem latchUnits_kept {r : State} {s} (hs : Kept r s) : Kept r (latchUnits s) := by
  unfold latchUnits
  extract_lets -merge -underBinder +onlyGivenNames x0
  have h1 : Kept r x0.2 := takeFree_kept hs
  try clear_value x0
  extract_lets -merge -underBinder +onlyGivenNames y2 x3
  have h4 : Kept r x3 := forEach_kept (fun a s h5 => h5.same) h1
  try clear_value x3
  exact h4.same

theorem snoopRows_kept {r : State} {filter} {rows} {s} (hs : Kept r s) : Kept r (snoopRows filter rows s) := by
  unfold snoopRows
  exact ite_kept (forEach_kept (fun a s h0 => snoop_kept h0) hs) hs

theorem joinLookup_kept {r : State} {l} {s} (hs : Kept r s) : Kept r (joinLookup l s) := by
  unfold joinLookup
  extract_lets -merge -underBinder +onlyGivenNames x0
  have h1 : Kept r x0 := snoop_kept hs
  try clear_value x0
  exact h1.same

theorem serveWaiters_kept {r : State} {s} (hs : Kept r s) : Kept r (serveWaiters s) := by
  unfold serveWaiters
  refine forEach_kept ?_ hs
  · intro a s h0
    split
    · exact h0
    · extract_lets -merge -underBinder +onlyGivenNames x3
      have h4 : Kept r x3.2 := passPieces_kept h0
      try clear_value x3
      extract_lets -merge -underBinder +onlyGivenNames x5
      have h6 : Kept r x5 := h4
      exact h6.same

theorem startGoverned_kept {r : State} {who} {w : Nat} {b : Nat} {bytes} {s} (hs : Kept r s) : Kept r (startGoverned who w b bytes s) := by
  unfold startGoverned
  extract_lets -merge -underBinder +onlyGivenNames x0
  have h1 : Kept r x0.2 := passPieces_kept hs
  try clear_value x0
  extract_lets -merge -underBinder +onlyGivenNames x2
  have h3 : Kept r x2 := h1
  exact h3.same

theorem armUnits_kept {r : State} {s} (hs : Kept r s) : Kept r (armUnits s) := by
  unfold armUnits
  refine forEach_kept ?_ hs
  · intro a s h0
    extract_lets -merge -underBinder +onlyGivenNames y1 y2
    exact h0.same

theorem snoopBlock_kept {r : State} {filter} {n : Nat} {s} (hs : Kept r s) : Kept r (snoopBlock filter n s) := by
  unfold snoopBlock
  exact ite_kept (snoop_kept hs) hs

theorem govern_kept {r : State} {who} {w : Nat} {b : Nat} {bytes} {s} (hs : Kept r s) : Kept r (govern who w b bytes s).2 := by
  unfold govern
  extract_lets -merge -underBinder +onlyGivenNames x0
  have h1 : Kept r x0 := ite_kept hs (startGoverned_kept hs)
  try clear_value x0
  exact iteP_kept (pair_kept h1.same) (pair_kept h1)

theorem joinServed_kept {r : State} {s} (hs : Kept r s) : Kept r (joinServed s) := by
  unfold joinServed
  refine forEach_kept ?_ hs
  · intro a s h0
    extract_lets -merge -underBinder +onlyGivenNames y1
    split
    · exact ite_kept (joinLookup_kept h0.same) h0
    · exact h0

theorem weirSlot_kept {r : State} {s} (hs : Kept r s) : Kept r (weirSlot s) := by
  unfold weirSlot
  exact joinServed_kept (serveWaiters_kept (refillWeirs_kept hs))

end Sys2Proof.Laws
end

