-- ==== Sys2Proof/Laws/KeptDescriptors.lean ====
section
/-! SUPPORT. Descriptors, the loader and the queues keep what `Kept` says. -/

set_option Elab.async false

namespace Sys2Proof.Laws

open Sys2Proof.Machine

theorem consume_kept {r : State} {d} {s} (hs : Kept r s) : Kept r (consume d s) := by
  unfold consume
  exact modQp_kept hs

theorem takeEffect_kept {r : State} {f : Fetched → State → State} {d} {s} (hf : ∀ b0 s, Kept r s → Kept r (f b0 s)) (hs : Kept r s) : Kept r (takeEffect f d s) := by
  unfold takeEffect
  extract_lets -merge -underBinder +onlyGivenNames x0
  have h1 : Kept r x0 := consume_kept hs
  try clear_value x0
  split
  · exact complete_kept h1
  · exact hf _ _ h1

theorem resumeCtx_kept {r : State} {i : Nat} {d} {s} (hs : Kept r s) : Kept r (resumeCtx i d s) := by
  unfold resumeCtx
  split
  · exact complete_kept hs
  · exact complete_kept (ite_kept (modCtx_kept hs) (modCtx_kept hs))
  · exact complete_kept hs

theorem appendCtx_kept {r : State} {i : Nat} {d} {s} (hs : Kept r s) : Kept r (appendCtx i d s) := by
  unfold appendCtx
  extract_lets -merge -underBinder +onlyGivenNames y0 y1
  split
  · exact complete_kept hs
  · exact complete_kept hs
  · exact complete_kept hs
  · exact complete_kept hs
  · exact complete_kept hs
  · refine ite_kept (complete_kept hs) ?_
    · split
      · exact complete_kept hs
      · exact complete_kept (modCtx_kept hs)

theorem cancelCtx_kept {r : State} {i : Nat} {d} {s} (hs : Kept r s) : Kept r (cancelCtx i d s) := by
  unfold cancelCtx
  exact ite_kept (complete_kept (drainSeq_kept hs)) (complete_kept hs)

theorem onSeq_kept {r : State} {f : Nat → Fetched → State → State} {d} {s} (hf : ∀ b0 b1 s, Kept r s → Kept r (f b0 b1 s)) (hs : Kept r s) : Kept r (onSeq f d s) := by
  unfold onSeq
  split
  · exact complete_kept hs
  · exact ite_kept (complete_kept hs) (hf _ _ _ hs)

theorem holdGroup_kept {r : State} {g : Nat} {s} (hs : Kept r s) : Kept r (holdGroup g s) := by
  unfold holdGroup
  exact modGroup_kept (abandonSpill_kept hs)

theorem pauseCtx_kept {r : State} {i : Nat} {d} {s} (hs : Kept r s) : Kept r (pauseCtx i d s) := by
  unfold pauseCtx
  extract_lets -merge -underBinder +onlyGivenNames y0
  split
  · exact complete_kept hs
  · exact complete_kept hs
  · exact complete_kept hs
  · exact complete_kept hs
  · exact complete_kept hs
  · exact complete_kept (modCtx_kept hs)
  · exact complete_kept (modCtx_kept hs)

theorem fenceEffect_kept {r : State} {d} {s} (hs : Kept r s) : Kept r (fenceEffect d s) := by
  unfold fenceEffect
  exact startRunning_kept hs

theorem admitSequence_kept {r : State} {d} {a2} {allowed} {p} {b} {i : Nat} {s} (hs : Kept r s) : Kept r (admitSequence d a2 allowed p b i s) := by
  unfold admitSequence
  extract_lets -merge -underBinder +onlyGivenNames y0 y1 y2 y3 x4
  have h5 : Kept r x4.2 := takeFree_kept hs
  try clear_value x4
  extract_lets -merge -underBinder +onlyGivenNames y6 x7
  have h8 : Kept r x7 := ite_kept hs h5
  try clear_value x7
  extract_lets -merge -underBinder +onlyGivenNames y9 y10 y11 y12 x13
  have h14 : Kept r x13 := forEach_kept (fun a s h15 => addRef_kept h15) h8.same
  try clear_value x13
  extract_lets -merge -underBinder +onlyGivenNames x16
  have h17 : Kept r x16 := forEach_kept (fun a s h18 => modGroup_kept h18) h14
  try clear_value x16
  extract_lets -merge -underBinder +onlyGivenNames x19
  have h20 : Kept r x19 := by
    unfold x19
    split
    · extract_lets -merge -underBinder +onlyGivenNames x22
      have h23 : Kept r x22 := nextUse_kept h17
      try clear_value x22
      exact count_kept h23.same
    · exact h17
  try clear_value x19
  exact completeFetched_kept h20

theorem queryEffect_kept {r : State} {d} {s} (hs : Kept r s) : Kept r (queryEffect d s) := by
  unfold queryEffect
  extract_lets -merge -underBinder +onlyGivenNames y0 y1
  refine ite_kept ?_ ?_
  · split
    · exact complete_kept hs
    · refine ite_kept (complete_kept hs) ?_
      · extract_lets -merge -underBinder +onlyGivenNames y4
        exact completeFetched_kept hs
  · refine ite_kept ?_ ?_
    · refine ite_kept (complete_kept hs) ?_
      · extract_lets -merge -underBinder +onlyGivenNames y5
        exact completeFetched_kept hs
    · extract_lets -merge -underBinder +onlyGivenNames y6 y7 y8
      exact completeFetched_kept hs

theorem endExports_kept {r : State} {i : Nat} {s} (hs : Kept r s) : Kept r (endExports i s) := by
  unfold endExports
  extract_lets -merge -underBinder +onlyGivenNames y0
  exact forEach_kept (fun a s h1 => completeRun_kept h1) hs.same

theorem settleFence_kept {r : State} {t : Nat} {q : Nat} {s} (hs : Kept r s) : Kept r (settleFence t q s) := by
  unfold settleFence
  extract_lets -merge -underBinder +onlyGivenNames y0
  split
  · exact hs
  · exact ite_kept hs (completeRun_kept hs)

theorem dropEffect_kept {r : State} {d} {s} (hs : Kept r s) : Kept r (dropEffect d s) := by
  unfold dropEffect
  extract_lets -merge -underBinder +onlyGivenNames y0
  split
  · exact complete_kept hs
  · exact ite_kept (complete_kept hs) (complete_kept (unbind_kept hs))

theorem pauseEffect_kept {r : State} {a1} {a2} (ha2 : Kept r a2) : Kept r (pauseEffect a1 a2) := by
  unfold pauseEffect
  exact onSeq_kept (fun a a s h0 => pauseCtx_kept h0) ha2

theorem resumeEffect_kept {r : State} {a1} {a2} (ha2 : Kept r a2) : Kept r (resumeEffect a1 a2) := by
  unfold resumeEffect
  exact onSeq_kept (fun a a s h0 => resumeCtx_kept h0) ha2

theorem importEffect_kept {r : State} {d} {s} (hs : Kept r s) : Kept r (importEffect d s) := by
  unfold importEffect
  extract_lets -merge -underBinder +onlyGivenNames y0
  split
  · exact complete_kept hs
  · refine ite_kept (complete_kept hs) ?_
    · extract_lets -merge -underBinder +onlyGivenNames x3
      have h4 : Kept r x3 := nextUse_kept (forEach_kept (fun a s h5 => holdGroup_kept h5) hs)
      try clear_value x3
      extract_lets -merge -underBinder +onlyGivenNames x6
      have h7 : Kept r x6 := h4.same
      try clear_value x6
      exact ite_kept (completeFetched_kept h7) (startRunning_kept h7.same)

theorem lookupEffect_kept {r : State} {d} {s} (hs : Kept r s) : Kept r (lookupEffect d s) := by
  unfold lookupEffect
  extract_lets -merge -underBinder +onlyGivenNames y0 y1
  split
  · exact complete_kept hs
  · refine ite_kept (complete_kept hs) ?_
    · split
      · exact complete_kept hs
      · extract_lets -merge -underBinder +onlyGivenNames y6
        split
        · exact complete_kept hs
        · extract_lets -merge -underBinder +onlyGivenNames y9
          refine ite_kept (complete_kept hs) ?_
          · extract_lets -merge -underBinder +onlyGivenNames y10 y11
            refine ite_kept (complete_kept hs) ?_
            · refine ite_kept (complete_kept hs) ?_
              · extract_lets -merge -underBinder +onlyGivenNames y12 y13
                refine ite_kept (complete_kept hs) ?_
                · extract_lets -merge -underBinder +onlyGivenNames y14 x15
                  have h16 : Kept r x15.2 := govern_kept (startRunning_kept hs.same)
                  try clear_value x15
                  exact ite_kept (joinLookup_kept h16) h16

theorem appendEffect_kept {r : State} {a1} {a2} (ha2 : Kept r a2) : Kept r (appendEffect a1 a2) := by
  unfold appendEffect
  exact onSeq_kept (fun a a s h0 => appendCtx_kept h0) ha2

theorem openAdmitted_kept {r : State} {d} {a2} {p} {b} {i : Nat} {s} (hs : Kept r s) : Kept r (openAdmitted d a2 p b i s) := by
  unfold openAdmitted
  extract_lets -merge -underBinder +onlyGivenNames y0 y1
  refine ite_kept ?_ ?_
  · split
    · exact complete_kept hs
    · unfold y1
      try beta_reduce
      split
      · exact complete_kept hs
      · exact admitSequence_kept hs
  · unfold y1
    try beta_reduce
    split
    · exact complete_kept hs
    · exact admitSequence_kept hs

theorem cancelEffect_kept {r : State} {a1} {a2} (ha2 : Kept r a2) : Kept r (cancelEffect a1 a2) := by
  unfold cancelEffect
  exact onSeq_kept (fun a a s h0 => cancelCtx_kept h0) ha2

theorem closeCtx_kept {r : State} {i : Nat} {d} {s} (hs : Kept r s) : Kept r (closeCtx i d s) := by
  unfold closeCtx
  extract_lets -merge -underBinder +onlyGivenNames y0
  exact ite_kept (complete_kept (drainSeq_kept hs)) (ite_kept (complete_kept (modCtx_kept hs)) (complete_kept (endExports_kept (freeCtx_kept hs))))

theorem openResources_kept {r : State} {d} {a2} {b} {s} (hs : Kept r s) : Kept r (openResources d a2 b s) := by
  unfold openResources
  extract_lets -merge -underBinder +onlyGivenNames y0 y1
  split
  · exact complete_kept hs
  · refine ite_kept (complete_kept hs) ?_
    · refine ite_kept (complete_kept hs) ?_
      · split
        · exact openAdmitted_kept hs
        · exact complete_kept hs

theorem exportCtx_kept {r : State} {i : Nat} {d} {s} (hs : Kept r s) : Kept r (exportCtx i d s) := by
  unfold exportCtx
  extract_lets -merge -underBinder +onlyGivenNames y0 y1 y2 y3
  refine ite_kept (complete_kept hs) ?_
  · split
    · exact complete_kept hs
    · exact complete_kept hs
    · exact complete_kept hs
    · exact complete_kept hs
    · refine ite_kept (complete_kept hs) ?_
      · split
        · rename_i z9 heq
          have h10 : Kept r z9 := KeptO.elim (KeptO.ite (bindPrefix_kept hs) KeptO.none) heq
          exact complete_kept h10
        · exact startRunning_kept hs.same

theorem exportEffect_kept {r : State} {a1} {a2} (ha2 : Kept r a2) : Kept r (exportEffect a1 a2) := by
  unfold exportEffect
  exact onSeq_kept (fun a a s h0 => exportCtx_kept h0) ha2

theorem openEffect_kept {r : State} {d} {s} (hs : Kept r s) : Kept r (openEffect d s) := by
  unfold openEffect
  split
  · exact hs
  · extract_lets -merge -underBinder +onlyGivenNames y2 y3 y4 y5
    refine ite_kept (complete_kept hs) ?_
    · extract_lets -merge -underBinder +onlyGivenNames y6 y7
      exact ite_kept (complete_kept hs) (ite_kept (complete_kept hs) (openResources_kept hs))

theorem closeEffect_kept {r : State} {a1} {a2} (ha2 : Kept r a2) : Kept r (closeEffect a1 a2) := by
  unfold closeEffect
  exact onSeq_kept (fun a a s h0 => closeCtx_kept h0) ha2

theorem modHead_kept {r : State} {f} {s} (hs : Kept r s) : Kept r (modHead f s) := by
  unfold modHead
  split
  · exact hs
  · exact hs.same

theorem createPool_kept {r : State} {k : Nat} {p} {s} (hs : Kept r s) : Kept r (createPool k p s) := by
  unfold createPool
  extract_lets -merge -underBinder +onlyGivenNames y0 y1 x2
  have h3 : Kept r x2 := hs.same
  try clear_value x2
  exact ite_kept h3.same h3.same

theorem placeBlocks_kept {r : State} {j p} {l : List (Nat × Nat)} : ∀ {s}, Kept r s → KeptO r (placeBlocks j p l s) := by
  induction l with
  | nil => intro s h; exact KeptO.some h
  | cons x l ih =>
    intro s h
    unfold placeBlocks
    split
    · exact KeptO.none
    · dsimp only
      split
      · split
        · exact KeptO.none
        · exact ih (modBlock_kept (modBlock_kept h))
      · exact ih (modBlock_kept h)

theorem markRemoved_kept {r : State} {j} {id : Nat} {s} (hs : Kept r s) : Kept r (markRemoved j id s) := by
  unfold markRemoved
  exact ite_kept hs.same (completeRun_kept hs)

theorem loadFailed_kept {r : State} {j} {reason : Nat} {offset : Nat} {s} (hs : Kept r s) : Kept r (loadFailed j reason offset s) := by
  unfold loadFailed
  extract_lets -merge -underBinder +onlyGivenNames y0 x1
  have h2 : Kept r x1 := completeRun_kept hs
  try clear_value x1
  extract_lets -merge -underBinder +onlyGivenNames x3
  have h4 : Kept r x3 := h2.same
  try clear_value x3
  split
  · exact modSlot_kept h4
  · exact h4.same
  · exact h4

theorem loadPassed_kept {r : State} {j} {p} {s} (hs : Kept r s) : Kept r (loadPassed j p s) := by
  unfold loadPassed
  extract_lets -merge -underBinder +onlyGivenNames x0
  have h1 : Kept r x0 := completeRun_kept hs
  try clear_value x0
  split
  · exact createPool_kept (modSlot_kept h1)
  · exact h1.same
  · extract_lets -merge -underBinder +onlyGivenNames y6
    exact h1.same
  · exact h1

theorem settleLoads_kept {r : State} {n : Nat} : ∀ {s}, Kept r s → Kept r (settleLoads n s) := by
  induction n with
  | zero => intro s h; exact h
  | succ n ih =>
    intro s h
    unfold settleLoads
    split
    · exact h
    · split
      · split
        · exact ih (markRemoved_kept h.same)
        · exact h
      · split
        · exact h
        · exact ih (loadFailed_kept h.same)
        · split
          · split
            · exact ih (completeRun_kept h.same)
            · split
              · exact ih (loadFailed_kept h.same)
              · exact h
          · exact ih (loadPassed_kept h.same)

theorem withCodecs_kept {r : State} {j} {p} {s} (hs : Kept r s) : Kept r (withCodecs j p s) := by
  unfold withCodecs
  split
  · exact modSlot_kept hs
  · exact hs

theorem failLoad_kept {r : State} {a1} {s} (hs : Kept r s) : Kept r (failLoad a1 s) := by
  unfold failLoad
  exact modHead_kept hs.same

theorem setCodecSlots_kept {r : State} {slot : Nat} {tensor : Nat} {c} {s} (hs : Kept r s) : Kept r (setCodecSlots slot tensor c s) := by
  unfold setCodecSlots
  exact modSlot_kept hs

theorem applyParams_kept {r : State} {t : Nat} {p} {s} (hs : Kept r s) : Kept r (applyParams t p s) := by
  unfold applyParams
  extract_lets -merge -underBinder +onlyGivenNames y0 y1 y2 y3 y4 x5
  have h6 : Kept r x5 := ite_kept hs.same hs
  try clear_value x5
  exact modTenant_kept h6

theorem idleTables_kept {r : State} {s} (hs : Kept r s) : Kept r (idleTables s) := by
  unfold idleTables
  refine forEach_kept ?_ hs
  · intro a s h0
    refine forEach_kept ?_ h0
    · intro a s h1
      extract_lets -merge -underBinder +onlyGivenNames y2
      exact ite_kept (setCodecSlots_kept h1) h1

theorem joinLoads_kept {r : State} {d} {target} {mirror} {s} (hs : Kept r s) : Kept r (joinLoads d target mirror s) := by
  unfold joinLoads
  exact startRunning_kept hs.same

theorem sweepBlock_kept {r : State} {n : Nat} {s} (hs : Kept r s) : Kept r (sweepBlock n s) := by
  unfold sweepBlock
  extract_lets -merge -underBinder +onlyGivenNames y0 y1 x2
  have h3 : Kept r x2 := by
    unfold x2
    split
    · split
      · exact releaseLater_kept (writeImage_kept (modBlock_kept hs))
      · exact hs
    · exact hs
  try clear_value x2
  split
  · split
    · exact releaseLater_kept (writeImage_kept (modBlock_kept h3))
    · exact h3
  · exact h3

theorem installTable_kept {r : State} {s} (hs : Kept r s) : Kept r (installTable s) := by
  unfold installTable
  split
  · exact hs
  · split
    · extract_lets -merge -underBinder +onlyGivenNames y6 y7 y8
      split
      · refine ite_kept hs ?_
        · extract_lets -merge -underBinder +onlyGivenNames y10 y11
          exact addTransfer_kept (modHead_kept (setCodecSlots_kept hs))
      · exact hs
    · exact hs

theorem sealBlocks_kept {r : State} {j} {bytes} {s} (hs : Kept r s) : Kept r (sealBlocks j bytes s) := by
  unfold sealBlocks
  extract_lets -merge -underBinder +onlyGivenNames y0 x1
  have h2 : Kept r x1 := (hs.memory fun f => ⟨memWrite_wf _ _ (memClear_wf _ _ f.1), f.2⟩)
  try clear_value x1
  refine forEach_kept ?_ h2
  · intro a s h3
    extract_lets -merge -underBinder +onlyGivenNames y4 x5
    have h6 : Kept r x5 := modBlock_kept h3
    try clear_value x5
    exact ite_kept (writeImage_kept h6) h6

theorem setTenantEffect_kept {r : State} {d} {s} (hs : Kept r s) : Kept r (setTenantEffect d s) := by
  unfold setTenantEffect
  extract_lets -merge -underBinder +onlyGivenNames y0
  split
  · exact complete_kept hs
  · extract_lets -merge -underBinder +onlyGivenNames y3 y4
    exact ite_kept (complete_kept hs) (ite_kept (complete_kept hs) (complete_kept (applyParams_kept hs)))

theorem beginStream_kept {r : State} {j} {s} (hs : Kept r s) : Kept r (beginStream j s) := by
  unfold beginStream
  exact ite_kept hs (startGoverned_kept hs)

theorem unloadAdapterEffect_kept {r : State} {d} {s} (hs : Kept r s) : Kept r (unloadAdapterEffect d s) := by
  unfold unloadAdapterEffect
  extract_lets -merge -underBinder +onlyGivenNames y0
  split
  · exact complete_kept hs
  · exact ite_kept (complete_kept hs) (startRunning_kept hs.same)

theorem loadTableEffect_kept {r : State} {d} {s} (hs : Kept r s) : Kept r (loadTableEffect d s) := by
  unfold loadTableEffect
  extract_lets -merge -underBinder +onlyGivenNames y0
  refine ite_kept ?_ ?_
  · extract_lets -merge -underBinder +onlyGivenNames y1
    refine ite_kept ?_ (joinLoads_kept hs)
    · refine ite_kept (joinLoads_kept hs) ?_
      · refine ite_kept ?_ (complete_kept hs)
        · extract_lets -merge -underBinder +onlyGivenNames y2
          exact startRunning_kept (markRemoved_kept hs)
  · extract_lets -merge -underBinder +onlyGivenNames y3 y4
    exact ite_kept (complete_kept hs) (ite_kept (complete_kept hs) (joinLoads_kept hs))

theorem streamBody_kept {r : State} {j} {s} (hs : Kept r s) : Kept r (streamBody j s).2 := by
  unfold streamBody
  exact iteP_kept (pair_kept hs) (govern_kept hs)

theorem beginLoad_kept {r : State} {s} (hs : Kept r s) : Kept r (beginLoad s) := by
  unfold beginLoad
  split
  · exact hs
  · refine ite_kept hs ?_
    · extract_lets -merge -underBinder +onlyGivenNames y3
      refine ite_kept (failLoad_kept hs) ?_
      · split
        · exact failLoad_kept hs
        · split
          · exact failLoad_kept hs
          · extract_lets -merge -underBinder +onlyGivenNames y8
            split
            · exact beginStream_kept (modHead_kept hs)
            · exact failLoad_kept hs

theorem finishSweep_kept {r : State} {slot : Nat} {tensor : Nat} {s} (hs : Kept r s) : Kept r (finishSweep slot tensor s) := by
  unfold finishSweep
  extract_lets -merge -underBinder +onlyGivenNames y0
  refine ite_kept ?_ hs
  · extract_lets -merge -underBinder +onlyGivenNames y1 x2
    have h3 : Kept r x2 := forEach_kept (fun a s h4 => sweepBlock_kept h4) hs
    try clear_value x2
    exact ite_kept h3 (dropTransfers_kept (setCodecSlots_kept h3))

theorem loadAdapterEffect_kept {r : State} {d} {s} (hs : Kept r s) : Kept r (loadAdapterEffect d s) := by
  unfold loadAdapterEffect
  extract_lets -merge -underBinder +onlyGivenNames y0 y1
  exact ite_kept (complete_kept hs) (joinLoads_kept hs.same)

theorem loadModelEffect_kept {r : State} {d} {s} (hs : Kept r s) : Kept r (loadModelEffect d s) := by
  unfold loadModelEffect
  extract_lets -merge -underBinder +onlyGivenNames y0
  exact ite_kept (complete_kept hs) (joinLoads_kept (modSlot_kept hs))

theorem releaseSets_kept {r : State} {s} (hs : Kept r s) : Kept r (releaseSets s) := by
  unfold releaseSets
  extract_lets -merge -underBinder +onlyGivenNames y0
  refine forEach_kept ?_ hs.same
  · intro a s h1
    extract_lets -merge -underBinder +onlyGivenNames x2
    have h3 : Kept r x2 := unmapRange_kept h1
    try clear_value x2
    split
    · exact completeRun_kept h3
    · exact h3

theorem finishLoad_kept {r : State} {s} (hs : Kept r s) : Kept r (finishLoad s) := by
  unfold finishLoad
  extract_lets -merge -underBinder +onlyGivenNames x0
  have h1 : Kept r x0 := beginLoad_kept hs
  try clear_value x0
  split
  · exact h1
  · refine ite_kept h1 ?_
    · extract_lets -merge -underBinder +onlyGivenNames y5
      split
      · exact failLoad_kept h1
      · extract_lets -merge -underBinder +onlyGivenNames x8
        have h9 : Kept r x8 := h1
        extract_lets -merge -underBinder +onlyGivenNames x10
        have h11 : Kept r x10.2 := streamBody_kept h1
        try clear_value x10
        extract_lets -merge -underBinder +onlyGivenNames x12
        have h13 : Kept r x12 := h11
        refine ite_kept h13 ?_
        · extract_lets -merge -underBinder +onlyGivenNames y14
          split
          · exact failLoad_kept h13
          · split
            · exact failLoad_kept h13
            · extract_lets -merge -underBinder +onlyGivenNames y19
              split
              · exact h9
              · rename_i z21 heq
                have h22 : Kept r z21 := KeptO.elim (placeBlocks_kept h13) heq
                extract_lets -merge -underBinder +onlyGivenNames y23 y24 x25
                have h26 : Kept r x25 := ite_kept h22 (snoop_kept h22)
                try clear_value x25
                extract_lets -merge -underBinder +onlyGivenNames x27
                have h28 : Kept r x27 := snoop_kept h26
                try clear_value x27
                extract_lets -merge -underBinder +onlyGivenNames x29
                have h30 : Kept r x29 := sealBlocks_kept (withCodecs_kept h28)
                try clear_value x29
                exact modHead_kept h30

theorem releaseAdapters_kept {r : State} {s} (hs : Kept r s) : Kept r (releaseAdapters s) := by
  unfold releaseAdapters
  refine forEach_kept ?_ hs
  · intro a s h0
    refine ite_kept h0 ?_
    · extract_lets -merge -underBinder +onlyGivenNames x1
      have h2 : Kept r x1 := unmapRange_kept h0.same
      try clear_value x1
      exact forEach_kept (fun a s h3 => completeRun_kept h3) h2

theorem finishRunning_kept {r : State} {s} (hs : Kept r s) : Kept r (finishRunning s) := by
  unfold finishRunning
  extract_lets -merge -underBinder +onlyGivenNames x0
  have h1 : Kept r x0 := finishLoad_kept hs.same
  try clear_value x0
  exact h1.same

theorem unloadModelEffect_kept {r : State} {d} {s} (hs : Kept r s) : Kept r (unloadModelEffect d s) := by
  unfold unloadModelEffect
  extract_lets -merge -underBinder +onlyGivenNames y0
  split
  · exact complete_kept hs
  · exact complete_kept hs
  · exact complete_kept (emptyModel_kept hs)
  · exact complete_kept (emptyModel_kept hs)

theorem fetchOne_kept {r : State} {t : Nat} {q : Nat} {s} (hs : Kept r s) : Kept r (fetchOne t q s) := by
  unfold fetchOne
  extract_lets -merge -underBinder +onlyGivenNames y0 y1
  split
  · exact qpError_kept hs
  · extract_lets -merge -underBinder +onlyGivenNames y4 y5 y6
    exact count_kept (modQp_kept hs)

theorem fetchSome_kept {r : State} {t q n : Nat} : ∀ {s}, Kept r s → Kept r (fetchSome t q n s) := by
  induction n with
  | zero => intro s h; exact h
  | succ n ih =>
    intro s h
    unfold fetchSome
    dsimp only
    split
    · exact ih (fetchOne_kept h)
    · exact h

theorem fetchReady_kept {r : State} {t : Nat} {q : Nat} {s} (hs : Kept r s) : Kept r (fetchReady t q s) := by
  unfold fetchReady
  exact ite_kept (fetchSome_kept hs) hs

theorem refuseWrite_kept {r : State} {path} {off : Nat} {kind : Nat} {s} (hs : Kept r s) : Kept r (refuseWrite path off kind s) := by
  unfold refuseWrite
  split
  · exact hs.same
  · exact modTenant_kept hs

theorem disableQp_kept {r : State} {path} {t : Nat} {q : Nat} {s} (hs : Kept r s) : Kept r (disableQp path t q s) := by
  unfold disableQp
  extract_lets -merge -underBinder +onlyGivenNames y0
  refine ite_kept hs ?_
  · refine ite_kept (refuseWrite_kept hs) ?_
    · refine ite_kept (refuseWrite_kept hs) ?_
      · extract_lets -merge -underBinder +onlyGivenNames y1
        exact ite_kept (modQp_kept hs) hs

theorem readDoorbell_kept {r : State} {t : Nat} {q : Nat} {s} (hs : Kept r s) : Kept r (readDoorbell t q s) := by
  unfold readDoorbell
  refine ite_kept hs ?_
  · refine ite_kept (modQp_kept hs) ?_
    · split
      · exact qpError_kept hs
      · extract_lets -merge -underBinder +onlyGivenNames x2
        have h3 : Kept r x2 := modQp_kept hs
        try clear_value x2
        extract_lets -merge -underBinder +onlyGivenNames y4 y5
        exact ite_kept (qpError_kept h3) (ite_kept (qpError_kept h3) (fetchReady_kept h3))

theorem enableQp_kept {r : State} {path} {t : Nat} {q : Nat} {s} (hs : Kept r s) : Kept r (enableQp path t q s) := by
  unfold enableQp
  extract_lets -merge -underBinder +onlyGivenNames y0
  refine ite_kept hs ?_
  · refine ite_kept (refuseWrite_kept hs) ?_
    · extract_lets -merge -underBinder +onlyGivenNames y1
      refine ite_kept (refuseWrite_kept hs) ?_
      · refine ite_kept hs ?_
        · extract_lets -merge -underBinder +onlyGivenNames y2
          refine ite_kept (modQp_kept hs) ?_
          · extract_lets -merge -underBinder +onlyGivenNames y3 y4 x5
            have h6 : Kept r x5 := modQp_kept hs
            try clear_value x5
            exact ite_kept h6 (readDoorbell_kept h6)

theorem takeSnapshot_kept {r : State} {s} (hs : Kept r s) : Kept r (takeSnapshot s) := by
  unfold takeSnapshot
  exact hs.same

end Sys2Proof.Laws
end

