-- ==== Sys2Proof/Laws/KeptRows.lean ====
section
/-! SUPPORT. The rows of a boundary and the engines keep what `Kept` says. -/

set_option Elab.async false

namespace Sys2Proof.Laws

open Sys2Proof.Machine

theorem enrollPending_kept {r : State} {s} (hs : Kept r s) : Kept r (enrollPending s) := by
  unfold enrollPending
  extract_lets -merge -underBinder +onlyGivenNames y0
  exact hs.same

theorem applyDescriptor_kept {r : State} {replay : Fetched → State → State} {d} {s} (hreplay : ∀ b0 s, Kept r s → Kept r (replay b0 s)) (hs : Kept r s) : Kept r (applyDescriptor replay d s) := by
  unfold applyDescriptor
  split
  · exact takeEffect_kept (fun a s h1 => openEffect_kept h1) hs
  · exact takeEffect_kept (fun a s h3 => appendEffect_kept h3) hs
  · exact takeEffect_kept (fun a s h5 => pauseEffect_kept h5) hs
  · exact takeEffect_kept (fun a s h7 => resumeEffect_kept h7) hs
  · exact takeEffect_kept (fun a s h9 => cancelEffect_kept h9) hs
  · exact takeEffect_kept (fun a s h11 => closeEffect_kept h11) hs
  · exact takeEffect_kept (fun a s h13 => exportEffect_kept h13) hs
  · exact takeEffect_kept (fun a s h15 => importEffect_kept h15) hs
  · exact takeEffect_kept (fun a s h17 => dropEffect_kept h17) hs
  · exact takeEffect_kept (fun a s h19 => lookupEffect_kept h19) hs
  · exact takeEffect_kept (fun a s h21 => queryEffect_kept h21) hs
  · exact takeEffect_kept (fun a s h23 => fenceEffect_kept h23) hs
  · exact takeEffect_kept (fun a s h25 => loadModelEffect_kept h25) hs
  · exact takeEffect_kept (fun a s h27 => unloadModelEffect_kept h27) hs
  · exact takeEffect_kept (fun a s h29 => loadAdapterEffect_kept h29) hs
  · exact takeEffect_kept (fun a s h31 => unloadAdapterEffect_kept h31) hs
  · exact takeEffect_kept (fun a s h33 => loadTableEffect_kept h33) hs
  · exact takeEffect_kept (fun a s h35 => hreplay _ _ h35) hs
  · exact takeEffect_kept (fun a s h37 => setTenantEffect_kept h37) hs
  · exact takeEffect_kept (fun a s h39 => complete_kept h39) hs

theorem drainQueue_kept {r : State} {replay : Fetched → State → State} {t q n : Nat}
    (hr : ∀ d s, Kept r s → Kept r (replay d s)) : ∀ {s}, Kept r s → Kept r (drainQueue replay t q n s) := by
  induction n with
  | zero => intro s h; exact h
  | succ n ih =>
    intro s h
    unfold drainQueue
    split
    · exact h
    · split
      · exact h
      · exact ih (applyDescriptor_kept hr h)

theorem dropLostWaits_kept {r : State} {s} (hs : Kept r s) : Kept r (dropLostWaits s) := by
  unfold dropLostWaits
  exact hs.same

theorem sampleSensors_kept {r : State} {s} (hs : Kept r s) : Kept r (sampleSensors s) := by
  unfold sampleSensors
  exact hs.same

theorem countStep_kept {r : State} {x} {s} (hs : Kept r s) : Kept r (countStep x s) := by
  unfold countStep
  exact ite_kept hs (forEach_kept (fun a s h0 => modCtx_kept h0) hs)

theorem passDescriptors_kept {r : State} {replay : Fetched → State → State} {s} (hreplay : ∀ b0 s, Kept r s → Kept r (replay b0 s)) (hs : Kept r s) : Kept r (passDescriptors replay s) := by
  unfold passDescriptors
  exact forEach_kept (fun a s h0 => drainQueue_kept (fun a s h1 => hreplay _ _ h1) h0) hs

theorem commitDrafts_kept {r : State} {x} {s} (hs : Kept r s) : Kept r (commitDrafts x s) := by
  unfold commitDrafts
  exact ite_kept hs (forEach_kept (fun a s h0 => modCtx_kept h0) hs)

theorem resumeDecode_kept {r : State} {x} {s} (hs : Kept r s) : Kept r (resumeDecode x s) := by
  unfold resumeDecode
  exact ite_kept hs (forEach_kept (fun a s h0 => modCtx_kept h0) hs)

theorem commitRow_kept {r : State} {x} {a2} {s} (hs : Kept r s) : Kept r (commitRow x a2 s) := by
  unfold commitRow
  extract_lets -merge -underBinder +onlyGivenNames y0
  refine ite_kept hs ?_
  · extract_lets -merge -underBinder +onlyGivenNames x1
    have h2 : Kept r x1 := modCtx_kept hs
    try clear_value x1
    refine ite_kept h2 ?_
    · extract_lets -merge -underBinder +onlyGivenNames y3 y4 y5 y6
      refine ite_kept (modCtx_kept h2) ?_
      · clear_value y6
        split
        · exact modCtx_kept h2
        · exact modCtx_kept h2

theorem finishImports_kept {r : State} {s} (hs : Kept r s) : Kept r (finishImports s) := by
  unfold finishImports
  extract_lets -merge -underBinder +onlyGivenNames y0
  exact forEach_kept (fun a s h1 => completeRun_kept h1) hs.same

theorem deliverSeq_kept {r : State} {x} {y} {acc} (hacc : Kept r acc.2) : Kept r (deliverSeq x y acc).2 := by
  unfold deliverSeq
  extract_lets -merge -underBinder +onlyGivenNames x0
  have h1 : Kept r x0 := hacc
  extract_lets -merge -underBinder +onlyGivenNames y2 y3 y4 y5 x6
  have h7 : Kept r x6 := count_kept h1
  try clear_value x6
  extract_lets -merge -underBinder +onlyGivenNames x8
  have h9 : Kept r x8 := refreshFinal_kept (modCtx_kept h7)
  try clear_value x8
  extract_lets -merge -underBinder +onlyGivenNames y10 x11
  have h12 : Kept r x11 := ite_kept h9 (ite_kept (queueFinal_kept (queueEnd_kept (modCtx_kept h9))) (ite_kept (modCtx_kept h9) h9))
  try clear_value x11
  exact pair_kept h12

theorem playOut_kept {r : State} {s} (hs : Kept r s) : Kept r (playOut s) := by
  unfold playOut
  split
  · exact passSlots_kept hs
  · exact hs

theorem adoptMatch_kept {r : State} {i : Nat} {s} (hs : Kept r s) : Kept r (adoptMatch i s) := by
  unfold adoptMatch
  extract_lets -merge -underBinder +onlyGivenNames y0
  refine ite_kept (modCtx_kept hs) ?_
  · extract_lets -merge -underBinder +onlyGivenNames y1 y2 x3
    have h4 : Kept r x3 := forEach_kept (fun a s h5 => addRef_kept h5) hs
    try clear_value x3
    extract_lets -merge -underBinder +onlyGivenNames y6 y7 x8
    have h9 : Kept r x8 := modCtx_kept h4.same
    try clear_value x8
    exact count_kept h9

theorem recordTelemetry_kept {r : State} {b} {s} (hs : Kept r s) : Kept r (recordTelemetry b s) := by
  unfold recordTelemetry
  extract_lets -merge -underBinder +onlyGivenNames x0
  have h1 : Kept r x0 := sampleSensors_kept hs
  try clear_value x0
  exact h1.same

theorem undeliver_kept {r : State} {e} {s} (hs : Kept r s) : Kept r (undeliver e s) := by
  unfold undeliver
  refine ite_kept hs ?_
  · extract_lets -merge -underBinder +onlyGivenNames y0
    exact count_kept (refreshFinal_kept (modCtx_kept hs))

theorem commitRowOne_kept {r : State} {s} (hs : Kept r s) : Kept r (commitRowOne s) := by
  unfold commitRowOne
  extract_lets -merge -underBinder +onlyGivenNames x0
  have h1 : Kept r x0 := hs.same
  try clear_value x0
  split
  · exact h1
  · split
    · extract_lets -merge -underBinder +onlyGivenNames y5 x6
      have h7 : Kept r x6 := h1.same
      try clear_value x6
      exact forEach_kept (fun a s h8 => commitRow_kept h8) h7
    · exact commitDrafts_kept h1
    · exact h1

theorem faultExports_kept {r : State} {s} (hs : Kept r s) : Kept r (faultExports s) := by
  unfold faultExports
  extract_lets -merge -underBinder +onlyGivenNames y0
  exact forEach_kept (fun a s h1 => completeRun_kept h1) hs.same

theorem adoptMatches_kept {r : State} {s} (hs : Kept r s) : Kept r (adoptMatches s) := by
  unfold adoptMatches
  exact forEach_kept (fun a s h0 => adoptMatch_kept h0) hs

/-- A boundary is counted and stamped; nothing else of `coreOf` changes. -/
def Beaten (s t : State) : Prop :=
  Lived s t ∧ t.boundary = s.boundary + 1 ∧ t.stamp = s.now ∧ t.stepCounter = s.stepCounter ∧ t.activeBank = s.activeBank

theorem Beaten.kept {r s t : State} (h : Beaten r s) (k : Kept s t) : Beaten r t := by
  have e := k.1
  unfold coreOf at e
  simp only [Prod.mk.injEq] at e
  obtain ⟨-, a, b, c, d⟩ := e
  exact ⟨h.1.kept k, a.trans h.2.1, b.trans h.2.2.1, c.trans h.2.2.2.1, d.trans h.2.2.2.2⟩

theorem hostChange_now (u : HostUpdate) (s : State) : (hostChange u s).now = s.now := rfl

theorem beginBoundary_beaten (b : BoundaryInput) (s : State) : Beaten s (beginBoundary b s) := by
  have h1 : Kept s (hostChange b.host s) := hostChange_kept (Kept.refl s)
  have h2 : Beaten s { hostChange b.host s with boundary := (hostChange b.host s).boundary + 1, stamp := (hostChange b.host s).now, latched := (hostChange b.host s).regs } :=
    ⟨⟨h1.lived.1, h1.2.1, h1.2.2⟩, rfl, hostChange_now b.host s, rfl, rfl⟩
  exact h2.kept (enrollPending_kept (armUnits_kept (recordTelemetry_kept (takeSnapshot_kept (Kept.refl _)))))

theorem writeRing_kept {r : State} {e} {s} (hs : Kept r s) : Kept r (writeRing e s) := by
  unfold writeRing
  extract_lets -merge -underBinder +onlyGivenNames y0 y1 y2 y3
  split
  · rename_i z4 heq
    have h5 : Kept r z4 := KeptO.elim (KeptO.ite KeptO.none (writeHost_kept hs)) heq
    exact modCtx_kept h5
  · exact drainSeq_kept (undeliver_kept hs)

theorem stopQp_kept {r : State} {t : Nat} {q : Nat} {s} (hs : Kept r s) : Kept r (stopQp t q s) := by
  unfold stopQp
  extract_lets -merge -underBinder +onlyGivenNames y0
  refine ite_kept hs ?_
  · extract_lets -merge -underBinder +onlyGivenNames y1 x2
    have h3 : Kept r x2 := modQp_kept hs
    try clear_value x2
    refine forEach_kept ?_ h3
    · intro a s h4
      extract_lets -merge -underBinder +onlyGivenNames y5
      exact ite_kept (drainSeq_kept h4) (ite_kept (endExports_kept (freeCtx_kept h4)) h4)

theorem resetTenant_kept {r : State} {t : Nat} {s} (hs : Kept r s) : Kept r (resetTenant t s) := by
  unfold resetTenant
  extract_lets -merge -underBinder +onlyGivenNames y0 x1
  have h2 : Kept r x1 := hs.same
  try clear_value x1
  extract_lets -merge -underBinder +onlyGivenNames x3
  have h4 : Kept r x3 := forEach_kept (fun a s h5 => freeCtx_kept h5) h2
  try clear_value x3
  extract_lets -merge -underBinder +onlyGivenNames x6
  have h7 : Kept r x6 := h4.same
  try clear_value x6
  extract_lets -merge -underBinder +onlyGivenNames x8
  have h9 : Kept r x8 := forEach_kept (fun a s h10 => unbind_kept h10) h7
  try clear_value x8
  extract_lets -merge -underBinder +onlyGivenNames x11
  have h12 : Kept r x11 := h9.same
  try clear_value x11
  extract_lets -merge -underBinder +onlyGivenNames x13
  have h14 : Kept r x13 := removeNodes_kept h12
  try clear_value x13
  exact modTenant_kept h14

theorem ringEvents_kept {r : State} {entries} {s} (hs : Kept r s) : Kept r (ringEvents entries s) := by
  unfold ringEvents
  refine forEach_kept ?_ hs
  · intro a s h0
    extract_lets -merge -underBinder +onlyGivenNames y1 y2 y3
    exact ite_kept h0 (ite_kept (raiseVector_kept h0) h0)

theorem resetTenants_kept {r : State} {s} (hs : Kept r s) : Kept r (resetTenants s) := by
  unfold resetTenants
  exact forEach_kept (fun a s h0 => resetTenant_kept h0) hs

theorem expireDormant_kept {r : State} {s} (hs : Kept r s) : Kept r (expireDormant s) := by
  unfold expireDormant
  exact forEach_kept (fun a s h0 => endSeq_kept h0) hs

theorem endDamaged_kept {r : State} {s} (hs : Kept r s) : Kept r (endDamaged s) := by
  unfold endDamaged
  extract_lets -merge -underBinder +onlyGivenNames y0
  refine forEach_kept ?_ hs.same
  · intro a s h1
    extract_lets -merge -underBinder +onlyGivenNames y2
    exact ite_kept (endSeq_kept h1) h1

theorem finishDrains_kept {r : State} {s} (hs : Kept r s) : Kept r (finishDrains s) := by
  unfold finishDrains
  refine forEach_kept ?_ hs
  · intro a s h0
    extract_lets -merge -underBinder +onlyGivenNames x1
    have h2 : Kept r x1 := finishDraining_kept h0
    try clear_value x1
    exact ite_kept (endExports_kept h2) h2

theorem stopQps_kept {r : State} {s} (hs : Kept r s) : Kept r (stopQps s) := by
  unfold stopQps
  exact forEach_kept (fun a s h0 => stopQp_kept h0) hs

theorem markLost_kept {r : State} {k : Nat} {s} (hs : Kept r s) : Kept r (markLost k s) := by
  unfold markLost
  extract_lets -merge -underBinder +onlyGivenNames y0
  refine ite_kept ?_ (modSlot_kept hs)
  · extract_lets -merge -underBinder +onlyGivenNames y1 x2
    have h3 : Kept r x2 := forEach_kept (fun a s h4 => endSeq_kept h4) hs
    try clear_value x2
    exact modSlot_kept (endJobs_kept h3)

theorem settleQp_kept {r : State} {t : Nat} {q : Nat} {s} (hs : Kept r s) : Kept r (settleQp t q s) := by
  unfold settleQp
  extract_lets -merge -underBinder +onlyGivenNames y0
  refine ite_kept ?_ (ite_kept (readDoorbell_kept hs) (fetchReady_kept hs))
  · extract_lets -merge -underBinder +onlyGivenNames y1
    exact ite_kept hs (modQp_kept hs)

theorem writeOut_kept {r : State} {s} (hs : Kept r s) : Kept r (writeOut s) := by
  unfold writeOut
  refine ite_kept hs ?_
  · extract_lets -merge -underBinder +onlyGivenNames y0 x1
    have h2 : Kept r x1 := forEach_kept (fun a s h3 => writeRing_kept h3) hs.same
    try clear_value x1
    extract_lets -merge -underBinder +onlyGivenNames x4
    have h5 : Kept r x4 := forEach_kept (fun a s h6 => settleFence_kept h6) h2
    try clear_value x4
    extract_lets -merge -underBinder +onlyGivenNames y7 x8
    have h9 : Kept r x8 := forEach_kept (fun a s h10 => writeCompletion_kept h10) h5.same
    try clear_value x8
    extract_lets -merge -underBinder +onlyGivenNames x11
    have h12 : Kept r x11 := forEach_kept (fun a s h13 => ite_kept h13 (raiseVector_kept h13)) h9
    try clear_value x11
    exact ringEvents_kept h12

theorem markLosses_kept {r : State} {s} (hs : Kept r s) : Kept r (markLosses s) := by
  unfold markLosses
  extract_lets -merge -underBinder +onlyGivenNames x0
  have h1 : Kept r x0 := dropLostWaits_kept hs
  try clear_value x0
  extract_lets -merge -underBinder +onlyGivenNames x2
  have h3 : Kept r x2 := forEach_kept (fun a s h4 => markLost_kept h4) h1
  try clear_value x2
  extract_lets -merge -underBinder +onlyGivenNames y5 y6
  exact forEach_kept (fun a s h7 => endSeq_kept h7) h3

theorem settleQps_kept {r : State} {s} (hs : Kept r s) : Kept r (settleQps s) := by
  unfold settleQps
  exact forEach_kept (fun a s h0 => settleQp_kept h0) hs

theorem passRow_kept {r : State} {replay : Fetched → State → State} {s} (hreplay : ∀ b0 s, Kept r s → Kept r (replay b0 s)) (hs : Kept r s) : Kept r (passRow replay s) := by
  unfold passRow
  extract_lets -merge -underBinder +onlyGivenNames x0
  have h1 : Kept r x0 := settleLoads_kept hs
  try clear_value x0
  extract_lets -merge -underBinder +onlyGivenNames x2
  have h3 : Kept r x2 := endDamaged_kept (markLosses_kept (finishImports_kept (adoptMatches_kept h1)))
  try clear_value x2
  extract_lets -merge -underBinder +onlyGivenNames x4
  have h5 : Kept r x4 := resetTenants_kept (stopQps_kept h3)
  try clear_value x4
  extract_lets -merge -underBinder +onlyGivenNames x6
  have h7 : Kept r x6 := passDescriptors_kept (fun a s h8 => hreplay _ _ h8) h5
  try clear_value x6
  extract_lets -merge -underBinder +onlyGivenNames x9
  have h10 : Kept r x9 := finishDrains_kept (expireDormant_kept h7)
  try clear_value x9
  exact releaseAdapters_kept (releaseSets_kept (finishExports_kept (faultExports_kept h10)))

theorem deliverRow_kept {r : State} {old : Nat} {other : Step → State → State} {s} (hother : ∀ b0 s, Kept r s → Kept r (other b0 s)) (hs : Kept r s) : Kept r (deliverRow old other s) := by
  unfold deliverRow
  extract_lets -merge -underBinder +onlyGivenNames x0
  have h1 : Kept r x0 := by
    unfold x0
    split
    · exact hs
    · split
      · extract_lets -merge -underBinder +onlyGivenNames x5
        have h6 : Kept r x5.2 := foldlP_kept (fun s a h7 => deliverSeq_kept h7) (pair_kept hs)
        try clear_value x5
        extract_lets -merge -underBinder +onlyGivenNames x8
        have h9 : Kept r x8 := h6
        exact resumeDecode_kept h9.same
      · exact hs
      · exact hother _ _ hs
  try clear_value x0
  extract_lets -merge -underBinder +onlyGivenNames x12
  have h13 : Kept r x12 := writeOut_kept h1
  try clear_value x12
  refine settleQps_kept ?_
  · split
    · exact ite_kept (countStep_kept h13) h13
    · exact h13

theorem markArrivals_kept {r : State} {s} (hs : Kept r s) : Kept r (markArrivals s) := by
  unfold markArrivals
  exact hs.same

theorem touchBlocks_kept {r : State} {s} (hs : Kept r s) : Kept r (touchBlocks s) := by
  unfold touchBlocks
  split
  · exact hs
  · refine ite_kept hs ?_
    · extract_lets -merge -underBinder +onlyGivenNames y2
      exact hs.same

theorem expireHolds_kept {r : State} {s} (hs : Kept r s) : Kept r (expireHolds s) := by
  unfold expireHolds
  exact hs.same

theorem replaceKeys_kept {r : State} {s} (hs : Kept r s) : Kept r (replaceKeys s) := by
  unfold replaceKeys
  refine forEach_kept ?_ hs
  · intro a s h0
    extract_lets -merge -underBinder +onlyGivenNames y1
    exact modTenant_kept h0.same

theorem leaveDraft_kept {r : State} {i : Nat} {c} {s} (hs : Kept r s) : Kept r (leaveDraft i c s) := by
  unfold leaveDraft
  exact modCtx_kept hs

theorem enterDraft_kept {r : State} {i : Nat} {k : Nat} {s} (hs : Kept r s) : Kept r (enterDraft i k s) := by
  unfold enterDraft
  exact modCtx_kept hs

theorem clearSets_kept {r : State} {s} (hs : Kept r s) : Kept r (clearSets s) := by
  unfold clearSets
  extract_lets -merge -underBinder +onlyGivenNames y0 y1
  refine forEach_kept ?_ hs
  · intro a s h2
    split
    · exact h2
    · exact forEach_kept (fun a s h5 => (h5.memory fun f => ⟨f.1, memClear_wf _ _ f.2.1, f.2.2⟩)) h2

theorem onDraft_kept {r : State} {i : Nat} {f : State → State} {s} (hf : ∀ s, Kept r s → Kept r (f s)) (hs : Kept r s) : Kept r (onDraft i f s) := by
  unfold onDraft
  split
  · exact hs
  · exact leaveDraft_kept (hf _ (enterDraft_kept hs))

theorem editTables_kept {r : State} {s} (hs : Kept r s) : Kept r (editTables s) := by
  unfold editTables
  refine forEach_kept ?_ hs
  · intro a s h0
    extract_lets -merge -underBinder +onlyGivenNames x1
    have h2 : Kept r x1 := editCtx_kept h0
    try clear_value x1
    extract_lets -merge -underBinder +onlyGivenNames x3
    have h4 : Kept r x3 := ite_kept h2 (onDraft_kept (fun s h5 => editCtx_kept h5) h2)
    try clear_value x3
    exact ite_kept (sealTail_kept h4) h4

theorem insertNode_kept {r : State} {i : Nat} {k : Nat} {s} (hs : Kept r s) : Kept r (insertNode i k s) := by
  unfold insertNode
  extract_lets -merge -underBinder +onlyGivenNames y0
  split
  · refine ite_kept ?_ hs
    · extract_lets -merge -underBinder +onlyGivenNames x3
      have h4 : Kept r x3 := by
        unfold x3
        refine ite_kept ?_ hs
        · split
          · exact removeNode_kept hs
          · exact hs
      try clear_value x3
      extract_lets -merge -underBinder +onlyGivenNames x7
      have h8 : Kept r x7 := nextUse_kept (addRef_kept h4)
      try clear_value x7
      exact h8.same
  · exact hs

theorem reclaimRow_kept {r : State} {s} (hs : Kept r s) : Kept r (reclaimRow s) := by
  unfold reclaimRow
  exact reclaim_kept (clearSets_kept hs)

theorem insertNodes_kept {r : State} {s} (hs : Kept r s) : Kept r (insertNodes s) := by
  unfold insertNodes
  refine forEach_kept ?_ hs
  · intro a s h0
    extract_lets -merge -underBinder +onlyGivenNames y1 x2
    have h3 : Kept r x2 := forEach_kept (fun a s h4 => insertNode_kept h4) h0
    try clear_value x2
    exact modCtx_kept h3

theorem dropDamaged_kept {r : State} {g : Nat} {s} (hs : Kept r s) : Kept r (dropDamaged g s) := by
  unfold dropDamaged
  extract_lets -merge -underBinder +onlyGivenNames y0 y1 y2 y3 x4
  have h5 : Kept r x4 := dropGroup_kept (modGroup_kept hs)
  try clear_value x4
  extract_lets -merge -underBinder +onlyGivenNames x6
  have h7 : Kept r x6 := removeNodes_kept h5
  try clear_value x6
  extract_lets -merge -underBinder +onlyGivenNames x8
  have h9 : Kept r x8 := forEach_kept (fun a s h10 => unbind_kept h10) h7
  try clear_value x8
  refine ite_kept ?_ h9
  · refine forEach_kept ?_ h9
    · intro a s h11
      extract_lets -merge -underBinder +onlyGivenNames y12
      exact ite_kept (endSeq_kept h11) h11

theorem dropDamages_kept {r : State} {s} (hs : Kept r s) : Kept r (dropDamages s) := by
  unfold dropDamages
  exact forEach_kept (fun a s h0 => dropDamaged_kept h0) hs

theorem editRow_kept {r : State} {s} (hs : Kept r s) : Kept r (editRow s) := by
  unfold editRow
  extract_lets -merge -underBinder +onlyGivenNames x0
  have h1 : Kept r x0 := installCopies_kept (dropDamages_kept (touchBlocks_kept hs))
  try clear_value x0
  extract_lets -merge -underBinder +onlyGivenNames x2
  have h3 : Kept r x2 := insertNodes_kept (editTables_kept h1)
  try clear_value x2
  extract_lets -merge -underBinder +onlyGivenNames x4
  have h5 : Kept r x4 := markArrivals_kept (settleTransfers_kept h3)
  try clear_value x4
  extract_lets -merge -underBinder +onlyGivenNames x6
  have h7 : Kept r x6 := keepFree_kept (idleTables_kept (installTable_kept (idleTables_kept (sluiceCommands_kept h5))))
  try clear_value x6
  extract_lets -merge -underBinder +onlyGivenNames x8
  have h9 : Kept r x8 := replaceKeys_kept (graceGroups_kept (spillDormant_kept h7))
  try clear_value x8
  extract_lets -merge -underBinder +onlyGivenNames x10
  have h11 : Kept r x10 := expireHolds_kept (graceGroups_kept (reclaimPools_kept h9))
  try clear_value x10
  extract_lets -merge -underBinder +onlyGivenNames x12
  have h13 : Kept r x12 := latchUnits_kept (beginLoad_kept h11)
  try clear_value x12
  exact h13.same

theorem parkSeqs_kept {r : State} {s} (hs : Kept r s) : Kept r (parkSeqs s) := by
  unfold parkSeqs
  exact hs.same

theorem showCounters_kept {r : State} {s} (hs : Kept r s) : Kept r (showCounters s) := by
  unfold showCounters
  exact hs.same

theorem chargeTenant_kept {r : State} {t : Nat} {s} (hs : Kept r s) : Kept r (chargeTenant t s) := by
  unfold chargeTenant
  extract_lets -merge -underBinder +onlyGivenNames y0
  split
  · exact hs
  · refine ite_kept hs ?_
    · extract_lets -merge -underBinder +onlyGivenNames y3 y4
      exact modTenant_kept hs

theorem decideSiding_kept {r : State} {s} (hs : Kept r s) : Kept r (decideSiding s) := by
  unfold decideSiding
  refine ite_kept ?_ ?_
  · extract_lets -merge -underBinder +onlyGivenNames y0
    exact forEach_kept (fun a s h1 => modCtx_kept h1) hs.same
  · extract_lets -merge -underBinder +onlyGivenNames x2
    have h3 : Kept r x2 := hs.same
    try clear_value x2
    refine ite_kept ?_ h3
    · extract_lets -merge -underBinder +onlyGivenNames y4
      exact forEach_kept (fun a s h5 => modCtx_kept h5) h3

theorem countHeld_kept {r : State} {s} (hs : Kept r s) : Kept r (countHeld s) := by
  unfold countHeld
  refine forEach_kept ?_ hs
  · intro a s h0
    split
    · exact count_kept h0
    · exact count_kept h0
    · exact h0

theorem cancelMissed_kept {r : State} {s} (hs : Kept r s) : Kept r (cancelMissed s) := by
  unfold cancelMissed
  extract_lets -merge -underBinder +onlyGivenNames x0
  have h1 : Kept r x0 := forEach_kept (fun a s h2 => drainSeq_kept h2) hs
  try clear_value x0
  exact h1.same

theorem chargeRow_kept {r : State} {s} (hs : Kept r s) : Kept r (chargeRow s) := by
  unfold chargeRow
  extract_lets -merge -underBinder +onlyGivenNames x0
  have h1 : Kept r x0 := forEach_kept (fun a s h2 => chargeTenant_kept h2) hs
  try clear_value x0
  extract_lets -merge -underBinder +onlyGivenNames x3
  have h4 : Kept r x3 := showCounters_kept (countHeld_kept (parkSeqs_kept h1))
  try clear_value x3
  exact decideSiding_kept (cancelMissed_kept h4)

theorem bankSet_kept {r : State} {q l quad bank row col i : Nat} {b s} (hs : Kept r s) :
    Kept r (bankSet q l quad bank row col i b s) := by
  unfold bankSet
  dsimp only
  split
  · exact hs.memory fun f => ⟨memSet_wf _ _ f.1, f.2⟩
  · exact hs.memory fun f => ⟨f.1, memSet_wf _ _ f.2.1, f.2.2⟩

theorem kvRoundTrip_kept {r : State} {q : Nat} {int4} {l} {s} (hs : Kept r s) : Kept r (kvRoundTrip q int4 l s).2 := by
  unfold kvRoundTrip
  extract_lets -merge -underBinder +onlyGivenNames y0 y1 y2
  exact pair_kept hs.same

theorem setBuffer_kept {r : State} {b : Nat} {l} {s} (hs : Kept r s) : Kept r (setBuffer b l s) := by
  unfold setBuffer
  exact hs.same

theorem promptAttend_kept {r : State} {q : Nat} {l : Nat} {quad : Nat} {j} {input} {output : Nat} {s} (hs : Kept r s) : Kept r (promptAttend q l quad j input output s) := by
  unfold promptAttend
  extract_lets -merge -underBinder +onlyGivenNames y0
  exact foldl_kept (fun s a h1 => setBuffer_kept h1) hs

theorem bankWrite_kept {r : State} {q : Nat} {l : Nat} {quad : Nat} {bank : Nat} {row : Nat} {col : Nat} {bs} {s} (hs : Kept r s) : Kept r (bankWrite q l quad bank row col bs s) := by
  unfold bankWrite
  exact foldl_kept (fun s a h0 => bankSet_kept h0) hs

theorem projectRow_kept {r : State} {prompt} {q : Nat} {slot : Nat} {tensor : Nat} {input : Nat} {output : Nat} {rowBlock : Nat} {s} (hs : Kept r s) : Kept r (projectRow prompt q slot tensor input output rowBlock s) := by
  unfold projectRow
  split
  · exact hs
  · split
    · exact hs
    · extract_lets -merge -underBinder +onlyGivenNames y4 y5 y6 y7 y8
      exact setBuffer_kept hs

theorem runJob_kept {r : State} {q : Nat} {l : Nat} {quad : Nat} {j} {input} {s} (hs : Kept r s) : Kept r (runJob q l quad j input s) := by
  unfold runJob
  refine ite_kept (stepFault_kept hs.same) ?_
  · refine ite_kept (stepFault_kept hs.same) ?_
    · extract_lets -merge -underBinder +onlyGivenNames y0 y1 y2 y3
      refine ite_kept ?_ ?_
      · extract_lets -merge -underBinder +onlyGivenNames y4
        refine ite_kept ?_ ?_
        · unfold y3
          try beta_reduce
          exact hs.same
        · unfold y3
          try beta_reduce
          exact hs.same
      · refine ite_kept ?_ ?_
        · unfold y3
          try beta_reduce
          exact hs.same
        · refine ite_kept ?_ ?_
          · extract_lets -merge -underBinder +onlyGivenNames y5 y6 y7 y8 y9 x10
            have h11 : Kept r x10 := by
              unfold x10
              unfold y3
              try beta_reduce
              exact hs.same
            try clear_value x10
            refine foldl_kept ?_ h11
            · intro s a h12
              extract_lets -merge -underBinder +onlyGivenNames y13 y14
              exact foldl_kept (fun s a h15 => bankWrite_kept h15) h12
          · refine ite_kept ?_ ?_
            · extract_lets -merge -underBinder +onlyGivenNames y16 y17
              refine bankWrite_kept ?_
              · unfold y3
                try beta_reduce
                exact hs.same
            · refine ite_kept ?_ ?_
              · unfold y3
                try beta_reduce
                exact hs.same
              · refine ite_kept ?_ ?_
                · extract_lets -merge -underBinder +onlyGivenNames y18
                  refine bankWrite_kept ?_
                  · unfold y3
                    try beta_reduce
                    exact hs.same
                · unfold y3
                  try beta_reduce
                  exact hs.same

theorem runOp_kept {r : State} {op} {s} (hs : Kept r s) : Kept r (runOp op s) := by
  unfold runOp
  split
  · exact ite_kept (runJob_kept hs) hs
  · exact projectRow_kept hs
  · exact ite_kept (promptAttend_kept hs) hs
  · extract_lets -merge -underBinder +onlyGivenNames y20
    exact setBuffer_kept hs
  · exact setBuffer_kept hs
  · extract_lets -merge -underBinder +onlyGivenNames y25
    exact setBuffer_kept hs
  · extract_lets -merge -underBinder +onlyGivenNames x30
    have h31 : Kept r x30.2 := kvRoundTrip_kept hs
    try clear_value x30
    exact setBuffer_kept h31
  · exact setBuffer_kept hs
  · exact setBuffer_kept hs
  · exact setBuffer_kept hs
  · exact setBuffer_kept hs
  · split
    · exact setBuffer_kept hs
    · exact hs
  · exact setBuffer_kept hs
  · exact setBuffer_kept hs
  · exact setBuffer_kept hs
  · exact setBuffer_kept hs
  · exact setBuffer_kept hs
  · exact hs.same

theorem noteLookupRead_kept {r : State} {n : Nat} {s} (hs : Kept r s) : Kept r (noteLookupRead n s) := by
  unfold noteLookupRead
  extract_lets -merge -underBinder +onlyGivenNames y0
  refine ite_kept (modBlock_kept hs) ?_
  · extract_lets -merge -underBinder +onlyGivenNames y1 x2
    have h3 : Kept r x2 := modBlock_kept hs
    try clear_value x2
    exact ite_kept (issuePromotion_kept h3) h3

theorem finishOutput_kept {r : State} {o} {s} (hs : Kept r s) : Kept r (finishOutput o s) := by
  unfold finishOutput
  extract_lets -merge -underBinder +onlyGivenNames y0
  split
  · rename_i z1 heq
    have h2 : Kept r z1 := KeptO.elim (writeHost_kept hs) heq
    unfold y0
    try beta_reduce
    split
    · exact freeCtx_kept (completeRun_kept h2)
    · exact completeRun_kept h2
  · unfold y0
    try beta_reduce
    split
    · exact freeCtx_kept (completeRun_kept hs)
    · exact completeRun_kept hs

theorem sendWaiting_kept {r : State} {s} (hs : Kept r s) : Kept r (sendWaiting s) := by
  unfold sendWaiting
  refine ite_kept hs ?_
  · refine forEach_kept ?_ hs
    · intro a s h0
      extract_lets -merge -underBinder +onlyGivenNames y1
      exact ite_kept h0 (finishOutput_kept h0.same)

theorem sendOutput_kept {r : State} {o} {s} (hs : Kept r s) : Kept r (sendOutput o s) := by
  unfold sendOutput
  extract_lets -merge -underBinder +onlyGivenNames x0
  have h1 : Kept r x0.2 := govern_kept hs
  try clear_value x0
  refine ite_kept (finishOutput_kept h1) ?_
  · extract_lets -merge -underBinder +onlyGivenNames x2
    have h3 : Kept r x2 := h1
    exact h3.same

theorem finishLookup_kept {r : State} {l} {s} (hs : Kept r s) : Kept r (finishLookup l s) := by
  unfold finishLookup
  split
  · exact completeRun_kept hs
  · split
    · exact completeRun_kept hs
    · extract_lets -merge -underBinder +onlyGivenNames y4
      refine ite_kept (completeRun_kept hs) ?_
      · extract_lets -merge -underBinder +onlyGivenNames y5 x6
        have h7 : Kept r x6 := forEach_kept (fun a s h8 => noteLookupRead_kept h8) hs
        try clear_value x6
        exact sendOutput_kept h7

theorem deliverLookups_kept {r : State} {x} {s} (hs : Kept r s) : Kept r (deliverLookups x s) := by
  unfold deliverLookups
  refine ite_kept ?_ (forEach_kept (fun a s h3 => finishLookup_kept h3) hs)
  · extract_lets -merge -underBinder +onlyGivenNames x0
    have h1 : Kept r x0 := forEach_kept (fun a s h2 => completeRun_kept h2) hs
    try clear_value x0
    exact h1.same

theorem draftResults_kept {r : State} {n : Nat} {depth : Nat} {round} {s} (hs : Kept r s) : Kept r (draftResults n depth round s) := by
  unfold draftResults
  split
  · exact hs
  · exact hs.same

theorem mainResults_kept {r : State} {n : Nat} {x} {s} (hs : Kept r s) : Kept r (mainResults n x s) := by
  unfold mainResults
  split
  · exact hs
  · extract_lets -merge -underBinder +onlyGivenNames y2 y3
    exact hs.same

theorem takeReplay_kept {r : State} {i : Nat} {j : Nat} {d} {a4} {s} (hs : Kept r s) : Kept r (takeReplay i j d a4 s) := by
  unfold takeReplay
  extract_lets -merge -underBinder +onlyGivenNames y0 y1 y2 y3 y4 y5 y6 y7 y8 y9 y10 y11
  exact forEach_kept (fun a s h12 => addRef_kept h12) (startRunning_kept hs.same)

theorem replayCtx_kept {r : State} {j : Nat} {d} {s} (hs : Kept r s) : Kept r (replayCtx j d s) := by
  unfold replayCtx
  extract_lets -merge -underBinder +onlyGivenNames y0
  split
  · refine ite_kept (complete_kept hs) ?_
    · split
      · exact complete_kept hs
      · refine ite_kept (complete_kept hs) ?_
        · split
          · exact complete_kept hs
          · exact ite_kept (complete_kept hs) (ite_kept (complete_kept hs) (takeReplay_kept hs))
  · exact complete_kept hs

theorem replayEffect_kept {r : State} {d} {s} (hs : Kept r s) : Kept r (replayEffect d s) := by
  unfold replayEffect
  split
  · exact complete_kept hs
  · exact replayCtx_kept hs

theorem deliverReplay_kept {r : State} {i : Nat} {x} {s} (hs : Kept r s) : Kept r (deliverReplay i x s) := by
  unfold deliverReplay
  extract_lets -merge -underBinder +onlyGivenNames y0
  split
  · refine ite_kept hs ?_
    · extract_lets -merge -underBinder +onlyGivenNames x3
      have h4 : Kept r x3.2 := takeFree_kept hs
      try clear_value x3
      extract_lets -merge -underBinder +onlyGivenNames y5 y6
      exact sendOutput_kept h4
  · exact hs

end Sys2Proof.Laws
end

