-- ==== Sys2Proof/Laws/KeptLinks.lean ====
section
/-! SUPPORT. Admission, host access, device time, ports, remote access and roles keep what `Kept` says. -/

set_option Elab.async false

namespace Sys2Proof.Laws

open Sys2Proof.Machine

theorem discardStale_kept {r : State} {s} (hs : Kept r s) : Kept r (discardStale s) := by
  unfold discardStale
  exact hs.same

theorem retireRequest_kept {r : State} {o} {s} (hs : Kept r s) : Kept r (retireRequest o s) := by
  unfold retireRequest
  exact hs.same

theorem holdRequest_kept {r : State} {dest : Nat} {op : Nat} {retried} {s} (hs : Kept r s) : KeptOP r (holdRequest dest op retried s) := by
  unfold holdRequest
  extract_lets -merge -underBinder +onlyGivenNames y0
  exact KeptOP.ite KeptOP.none (KeptOP.some (pair_kept hs.same))

theorem refuseStale_kept {r : State} {h} {s} (hs : Kept r s) : Kept r (refuseStale h s) := by
  unfold refuseStale
  exact answerStatus_kept hs.same

theorem unbuilt_kept {r : State} {s} (hs : Kept r s) : Kept r (unbuilt s) := by
  unfold unbuilt
  split
  · exact ite_kept hs hs.same
  · exact hs

theorem lookupChoice_kept {r : State} {s} (hs : Kept r s) : Kept r (lookupChoice s).2.2 := by
  unfold lookupChoice
  extract_lets -merge -underBinder +onlyGivenNames y0
  exact pair2_kept hs.same

theorem fitAdapter_kept {r : State} {b} {a : Nat} {s} (hs : Kept r s) : Kept r (fitAdapter b a s).2 := by
  unfold fitAdapter
  refine iteP_kept (pair_kept hs) ?_
  · split
    · exact pair_kept hs
    · exact iteP_kept (pair_kept hs) (iteP_kept (pair_kept hs) (pair_kept (forEach_kept (fun a s h2 => issuePromotion_kept h2) hs)))

theorem keepGroups_kept {r : State} {i : Nat} {s} (hs : Kept r s) : Kept r (keepGroups i s) := by
  unfold keepGroups
  exact forEach_kept (fun a s h0 => abandonSpill_kept h0) hs

theorem joinBatch_kept {r : State} {b} {a2} {s} (hs : Kept r s) : Kept r (joinBatch b a2 s).2 := by
  unfold joinBatch
  extract_lets -merge -underBinder +onlyGivenNames y0 x1
  have h2 : Kept r x1 := modCtx_kept hs
  try clear_value x1
  exact pair_kept (keepGroups_kept h2)

theorem takeDecode_kept {r : State} {b} {i : Nat} {s} (hs : Kept r s) : Kept r (takeDecode b i s).2 := by
  unfold takeDecode
  extract_lets -merge -underBinder +onlyGivenNames y0 y1
  refine iteP_kept (pair_kept hs) ?_
  · refine iteP_kept (pair_kept hs) ?_
    · extract_lets -merge -underBinder +onlyGivenNames y2
      refine iteP_kept (pair_kept hs) ?_
      · split
        · rename_i z3 heq
          have h4 : Kept r z3 := KeptS.elim (preparePages_kept hs) heq
          exact pair_kept h4
        · rename_i z5 heq
          have h6 : Kept r z5 := KeptS.elim (preparePages_kept hs) heq
          exact joinBatch_kept h6

theorem takeChunk_kept {r : State} {b} {i : Nat} {s} (hs : Kept r s) : Kept r (takeChunk b i s).2 := by
  unfold takeChunk
  extract_lets -merge -underBinder +onlyGivenNames y0 y1 y2 y3 y4 y5 y6
  refine iteP_kept (pair_kept hs) ?_
  · refine iteP_kept (pair_kept hs) ?_
    · refine iteP_kept (pair_kept hs) ?_
      · refine iteP_kept (pair_kept (drainSeq_kept hs)) ?_
        · split
          · rename_i z7 heq
            have h8 : Kept r z7 := KeptS.elim (preparePages_kept hs) heq
            exact pair_kept h8
          · rename_i z9 heq
            have h10 : Kept r z9 := KeptS.elim (preparePages_kept hs) heq
            exact joinBatch_kept h10

theorem takeCandidate_kept {r : State} {i : Nat} {x} (hx : Kept r x.2) : Kept r (takeCandidate i x).2 := by
  unfold takeCandidate
  extract_lets -merge -underBinder +onlyGivenNames y0 x1
  have h2 : Kept r x1 := hx
  extract_lets -merge -underBinder +onlyGivenNames y3
  refine iteP_kept hx ?_
  · refine iteP_kept (pair_kept h2) ?_
    · extract_lets -merge -underBinder +onlyGivenNames x4
      have h5 : Kept r x4.2 := fitAdapter_kept h2
      try clear_value x4
      exact iteP_kept (pair_kept h5) (iteP_kept (takeDecode_kept h5) (takeChunk_kept h5))

theorem formBatch_kept {r : State} {k : Nat} {s} (hs : Kept r s) : Kept r (formBatch k s).2 := by
  unfold formBatch
  exact foldlP_kept (fun s a h0 => takeCandidate_kept h0) (pair_kept hs)

theorem mainChoice_kept {r : State} {k : Nat} {s} (hs : Kept r s) : Kept r (mainChoice k s).2.2 := by
  unfold mainChoice
  extract_lets -merge -underBinder +onlyGivenNames x0
  have h1 : Kept r x0.2 := formBatch_kept hs
  try clear_value x0
  exact iteP2_kept (pair2_kept h1) (pair2_kept h1)

theorem prepareDraft_kept {r : State} {i : Nat} {a : Nat} {b : Nat} {s} (hs : Kept r s) : Kept r (prepareDraft i a b s).2 := by
  unfold prepareDraft
  split
  · exact pair_kept hs
  · extract_lets -merge -underBinder +onlyGivenNames y2
    split
    · rename_i z3 heq
      have h4 : Kept r z3 := KeptS.elim (preparePages_kept (enterDraft_kept hs)) heq
      exact pair_kept (leaveDraft_kept h4)
    · rename_i z5 heq
      have h6 : Kept r z5 := KeptS.elim (preparePages_kept (enterDraft_kept hs)) heq
      exact pair_kept (leaveDraft_kept h6)

theorem takeCatchUp_kept {r : State} {i : Nat} {x} (hx : Kept r x.2) : Kept r (takeCatchUp i x).2 := by
  unfold takeCatchUp
  extract_lets -merge -underBinder +onlyGivenNames y0 x1
  have h2 : Kept r x1 := hx
  extract_lets -merge -underBinder +onlyGivenNames y3 y4 y5
  refine iteP_kept (pair_kept h2) ?_
  · extract_lets -merge -underBinder +onlyGivenNames x6
    have h7 : Kept r x6.2 := prepareDraft_kept h2
    try clear_value x6
    exact iteP_kept (pair_kept h7) (pair_kept h7)

theorem takeRound_kept {r : State} {k : Nat} {i : Nat} {x} (hx : Kept r x.2) : Kept r (takeRound k i x).2 := by
  unfold takeRound
  extract_lets -merge -underBinder +onlyGivenNames y0 x1
  have h2 : Kept r x1 := modCtx_kept hx
  try clear_value x1
  extract_lets -merge -underBinder +onlyGivenNames y3 y4 y5
  refine iteP_kept (pair_kept h2) ?_
  · refine iteP_kept (pair_kept h2) ?_
    · extract_lets -merge -underBinder +onlyGivenNames x6
      have h7 : Kept r x6.2 := prepareDraft_kept h2
      try clear_value x6
      exact iteP_kept (pair_kept h7) (pair_kept h7)

theorem roundOrMain_kept {r : State} {k : Nat} {s} (hs : Kept r s) : Kept r (roundOrMain k s).2.2 := by
  unfold roundOrMain
  split
  · exact mainChoice_kept hs
  · extract_lets -merge -underBinder +onlyGivenNames y2 x3
    have h4 : Kept r x3.2 := foldlP_kept (fun s a h5 => takeRound_kept h5) (pair_kept hs)
    try clear_value x3
    refine iteP2_kept ?_ ?_
    · extract_lets -merge -underBinder +onlyGivenNames x6
      have h7 : Kept r x6.2.2 := mainChoice_kept h4
      try clear_value x6
      exact pair2_kept h7
    · extract_lets -merge -underBinder +onlyGivenNames x8 x10
      have h9 : Kept r x8 := h4
      have h11 : Kept r x10 := h9.same
      try clear_value x10
      exact pair2_kept h11

theorem modelTurn_kept {r : State} {k : Nat} {s} (hs : Kept r s) : Kept r (modelTurn k s).2.2 := by
  unfold modelTurn
  split
  · extract_lets -merge -underBinder +onlyGivenNames y1 y2
    exact pair2_kept hs.same
  · split
    · exact mainChoice_kept hs
    · extract_lets -merge -underBinder +onlyGivenNames x6
      have h7 : Kept r x6.2 := foldlP_kept (fun s a h8 => takeCatchUp_kept h8) (pair_kept hs)
      try clear_value x6
      refine iteP2_kept (roundOrMain_kept h7) ?_
      · refine pair2_kept ?_
        · extract_lets -merge -underBinder +onlyGivenNames x9
          have h10 : Kept r x9 := h7
          exact h10.same

theorem firstTurn_kept {r : State} {l : List Nat} : ∀ {late s}, Kept r s → Kept r (firstTurn l late s).2.2 := by
  induction l with
  | nil => intro late s h; exact h
  | cons k l ih =>
    intro late s h
    unfold firstTurn
    dsimp only
    split
    · exact modelTurn_kept h
    · exact ih (modelTurn_kept h)

theorem countWait_kept {r : State} {i : Nat} {s} (hs : Kept r s) : Kept r (countWait i s) := by
  unfold countWait
  extract_lets -merge -underBinder +onlyGivenNames y0
  exact ite_kept (count_kept hs) hs

theorem readRingHead_kept {r : State} {i : Nat} {s} (hs : Kept r s) : Kept r (readRingHead i s) := by
  unfold readRingHead
  extract_lets -merge -underBinder +onlyGivenNames y0
  refine ite_kept hs ?_
  · split
    · exact drainSeq_kept hs
    · extract_lets -merge -underBinder +onlyGivenNames y3
      exact ite_kept (modCtx_kept hs) (drainSeq_kept hs)

theorem prefetchCtx_kept {r : State} {i : Nat} {s} (hs : Kept r s) : Kept r (prefetchCtx i s) := by
  unfold prefetchCtx
  exact forEach_kept (fun a s h0 => startPrefetch_kept h0) hs

theorem readRingHeads_kept {r : State} {s} (hs : Kept r s) : Kept r (readRingHeads s) := by
  unfold readRingHeads
  exact ite_kept hs (forEach_kept (fun a s h0 => countWait_kept (readRingHead_kept h0)) hs)

theorem issuePrefetches_kept {r : State} {late} {held} {s} (hs : Kept r s) : Kept r (issuePrefetches late held s) := by
  unfold issuePrefetches
  extract_lets -merge -underBinder +onlyGivenNames y0 x1
  have h2 : Kept r x1 := forEach_kept (fun a s h3 => prefetchCtx_kept h3) (forEach_kept (fun a s h4 => prefetchCtx_kept h4) hs)
  try clear_value x1
  exact forEach_kept (fun a s h5 => forEach_kept (fun a s h6 => startPrefetch_kept h6) h5) h2

theorem continueRound_kept {r : State} {m} {done} {s} (hs : Kept r s) : Kept r (continueRound m done s).2.2 := by
  unfold continueRound
  extract_lets -merge -underBinder +onlyGivenNames y0
  split
  · exact mainChoice_kept hs.same
  · split
    · exact roundOrMain_kept hs.same
    · extract_lets -merge -underBinder +onlyGivenNames y6
      exact iteP2_kept (pair2_kept hs.same) (mainChoice_kept (forEach_kept (fun a s h7 => modCtx_kept h7) hs.same))
    · exact modelTurn_kept hs.same

theorem chooseStep_kept {r : State} {s} (hs : Kept r s) : Kept r (chooseStep s).2.2 := by
  unfold chooseStep
  split
  · exact iteP2_kept (continueRound_kept hs) (firstTurn_kept hs.same)
  · extract_lets -merge -underBinder +onlyGivenNames y2
    refine iteP2_kept (lookupChoice_kept hs) ?_
    · extract_lets -merge -underBinder +onlyGivenNames x3
      have h4 : Kept r x3.2.2 := firstTurn_kept hs
      try clear_value x3
      split
      · refine pair3_kept ?_
        exact h4
      · refine iteP2_kept ?_ h4
        · extract_lets -merge -underBinder +onlyGivenNames x7
          have h8 : Kept r x7.2.2 := lookupChoice_kept h4
          try clear_value x7
          exact pair2_kept h8

theorem admitRow_kept {r : State} {held} {s} (hs : Kept r s) : Kept r (admitRow held s).2 := by
  unfold admitRow
  extract_lets -merge -underBinder +onlyGivenNames x0
  have h1 : Kept r x0 := unbuilt_kept (readRingHeads_kept hs)
  try clear_value x0
  extract_lets -merge -underBinder +onlyGivenNames x2
  have h3 : Kept r x2.2.2 := iteP2_kept (pair2_kept h1) (chooseStep_kept h1)
  try clear_value x2
  refine pair_kept ?_
  · refine issuePrefetches_kept ?_
    · extract_lets -merge -underBinder +onlyGivenNames x4
      have h5 : Kept r x4 := h3
      exact h5.same

theorem applyWrite_kept {r : State} {a : Nat} {bs} {s} (hs : Kept r s) : Kept r (applyWrite a bs s) := by
  unfold applyWrite
  exact (hs.memory fun f => ⟨memWrite_wf _ _ f.1, f.2⟩)

theorem joinQueue_kept {r : State} {l : Nat} {x} {s} (hs : Kept r s) : Kept r (joinQueue l x s) := by
  unfold joinQueue
  exact hs.same

theorem cacheLines_kept {r : State} {a : Nat} {n : Nat} {s} (hs : Kept r s) : Kept r (cacheLines a n s) := by
  unfold cacheLines
  split
  · exact hs
  · extract_lets -merge -underBinder +onlyGivenNames y2
    refine ite_kept ?_ hs
    · extract_lets -merge -underBinder +onlyGivenNames y3
      exact hs.same

theorem applyAtomic_kept {r : State} {a : Nat} {ty : Nat} {data} {s} (hs : Kept r s) : Kept r (applyAtomic a ty data s) := by
  unfold applyAtomic
  refine ite_kept hs ?_
  · extract_lets -merge -underBinder +onlyGivenNames y0
    exact cacheLines_kept (hs.memory fun f => ⟨memWrite_wf _ _ f.1, f.2⟩)

theorem noteRead_kept {r : State} {a : Nat} {bs} {s} (hs : Kept r s) : Kept r (noteRead a bs s) := by
  unfold noteRead
  extract_lets -merge -underBinder +onlyGivenNames y0 y1
  exact ite_kept hs (snoop_kept (ite_kept hs (noteDecoded_kept hs)))

theorem memRead_kept {r : State} {a : Nat} {n : Nat} {tenantKeys} {s} (hs : Kept r s) : KeptOP r (memRead a n tenantKeys s) := by
  unfold memRead
  extract_lets -merge -underBinder +onlyGivenNames y0 y1 x2
  have h3 : KeptOP r x2 := KeptOP.ite KeptOP.none (KeptOP.some (pair_kept (noteRead_kept hs)))
  try clear_value x2
  split
  · exact KeptOP.some (pair_kept hs)
  · exact h3
  · exact h3
  · extract_lets -merge -underBinder +onlyGivenNames y8
    exact KeptOP.ite h3 KeptOP.none

theorem memStore_kept {r : State} {a : Nat} {bs} {s} (hs : Kept r s) : KeptO r (memStore a bs s) := by
  unfold memStore
  extract_lets -merge -underBinder +onlyGivenNames y0
  split
  · exact KeptO.some (applyWrite_kept hs)
  · split
    · exact KeptO.some (applyWrite_kept (mapFresh_kept hs))
    · exact KeptO.none
  · exact KeptO.none

theorem writeAck_kept {r : State} {dest : Nat} {tag : Nat} {status : Nat} {s} (hs : Kept r s) : Kept r (writeAck dest tag status s) := by
  unfold writeAck
  exact sendMsg_kept hs

theorem serveAtomic_kept {r : State} {a : Nat} {ty : Nat} {data} {ack} {s} (hs : Kept r s) : Kept r (serveAtomic a ty data ack s) := by
  unfold serveAtomic
  extract_lets -merge -underBinder +onlyGivenNames y0 x1
  have h2 : Kept r x1 := ite_kept (applyAtomic_kept hs) hs
  try clear_value x1
  split
  · exact writeAck_kept h2
  · exact h2

theorem serveWrite_kept {r : State} {a : Nat} {bs} {s} (hs : Kept r s) : Kept r (serveWrite a bs s) := by
  unfold serveWrite
  split
  · rename_i z0 heq
    have h1 : Kept r z0 := KeptO.elim (memStore_kept hs) heq
    exact reply_kept h1
  · exact reply_kept hs

theorem serveRead_kept {r : State} {a : Nat} {s} (hs : Kept r s) : Kept r (serveRead a s) := by
  unfold serveRead
  split
  · rename_i z0 z1 heq
    have h2 : Kept r z1 := KeptOP.elim (memRead_kept hs) heq
    exact reply_kept h2
  · exact reply_kept hs

theorem hostRead_kept {r : State} {a : Nat} {s} (hs : Kept r s) : Kept r (hostRead a s) := by
  unfold hostRead
  refine ite_kept (reply_kept hs) ?_
  · refine ite_kept ?_ (serveRead_kept hs)
    · split
      · exact joinQueue_kept hs
      · exact serveRead_kept hs

theorem serveAccess_kept {r : State} {x} {s} (hs : Kept r s) : Kept r (serveAccess x s) := by
  unfold serveAccess
  split
  · exact serveRead_kept hs
  · exact serveWrite_kept hs
  · exact serveAtomic_kept hs

theorem hostWrite_kept {r : State} {a : Nat} {bs} {s} (hs : Kept r s) : Kept r (hostWrite a bs s) := by
  unfold hostWrite
  refine ite_kept (reply_kept hs) ?_
  · refine ite_kept ?_ (serveWrite_kept hs)
    · split
      · exact joinQueue_kept hs
      · exact serveWrite_kept hs

theorem serveWindow_kept {r : State} {l : Nat} {s} (hs : Kept r s) : Kept r (serveWindow l s) := by
  unfold serveWindow
  extract_lets -merge -underBinder +onlyGivenNames y0 y1
  exact forEach_kept (fun a s h2 => serveAccess_kept h2) hs.same

theorem freeTime_kept {r : State} {s} (hs : Kept r s) : Kept r (freeTime s) := by
  unfold freeTime
  exact hs.same

theorem loseRef_kept {r : State} {s} (hs : Kept r s) : Kept r (loseRef s) := by
  unfold loseRef
  exact ite_kept hs.same hs

theorem pulse_kept {r : State} {s} (hs : Kept r s) : Kept r (pulse s) := by
  unfold pulse
  extract_lets -merge -underBinder +onlyGivenNames y0
  refine ite_kept hs ?_
  · extract_lets -merge -underBinder +onlyGivenNames y1 x2
    have h3 : Kept r x2 := hs.same
    try clear_value x2
    exact ite_kept h3.same h3

theorem failExchange_kept {r : State} {s} (hs : Kept r s) : Kept r (failExchange s) := by
  unfold failExchange
  exact hs.same

theorem unlockTime_kept {r : State} {s} (hs : Kept r s) : Kept r (unlockTime s) := by
  unfold unlockTime
  exact hs.same

theorem lockRef_kept {r : State} {steer} {s} (hs : Kept r s) : Kept r (lockRef steer s) := by
  unfold lockRef
  exact ite_kept hs.same hs

theorem stepTime_kept {r : State} {t : Nat} {s} (hs : Kept r s) : Kept r (stepTime t s) := by
  unfold stepTime
  extract_lets -merge -underBinder +onlyGivenNames y0 y1 y2 x3
  have h4 : Kept r x3 := clockSet_kept hs ⟨Nat.mod_lt _ (Nat.two_pow_pos 112), Nat.zero_lt_succ 5⟩
  clear_value x3
  extract_lets -merge -underBinder +onlyGivenNames x5
  have h6 : Kept r x5 := h4.same
  clear_value x5
  exact h6.same

theorem settleTime_kept {r : State} {s} (hs : Kept r s) : Kept r (settleTime s) := by
  unfold settleTime
  split
  · exact hs
  · exact stepTime_kept hs.same

theorem lock_count {theta : Int} {c : Clock} : (lockTest theta c).count = c.count := rfl

theorem lock_phase {theta : Int} {c : Clock} : (lockTest theta c).phase = c.phase := rfl

theorem takeTimeReply_kept {r : State} {h} {b} {s} (hs : Kept r s) : Kept r (takeTimeReply h b s) := by
  unfold takeTimeReply
  split
  · exact hs
  · extract_lets -merge -underBinder +onlyGivenNames x0
    have h1 : Kept r x0 := by
      unfold x0
      split
      · exact retireRequest_kept hs
      · exact hs
    clear_value x0
    extract_lets -merge -underBinder +onlyGivenNames y4 y5 x6
    have h7 : Kept r x6 := clockSame_kept h1 (lock_count (theta := y4)) (lock_phase (theta := y4))
    clear_value x6
    split
    · exact stepTime_kept h7
    · exact clockSame_kept (takeFree_kept h7) rfl rfl

theorem setTime_kept {r : State} {value : Nat} {s} (hs : Kept r s) : Kept r (setTime value s) := by
  unfold setTime
  exact ite_kept hs (ite_kept (refuseWrite_kept hs) (ite_kept (refuseWrite_kept hs) (ite_kept (refuseWrite_kept hs) (setReg_kept hs.same))))

theorem sendTime_kept {r : State} {dest : Nat} {epoch : Nat} {retried} {s} (hs : Kept r s) : Kept r (sendTime dest epoch retried s) := by
  unfold sendTime
  split
  · exact failExchange_kept hs
  · rename_i z1 z2 heq
    have h3 : Kept r z2 := KeptOP.elim (holdRequest_kept hs) heq
    extract_lets -merge -underBinder +onlyGivenNames y4 y5 y6 x7
    have h8 : Kept r x7 := h3.same
    try clear_value x7
    exact sendMsg_kept h8

theorem requestTime_kept {r : State} {s} (hs : Kept r s) : Kept r (requestTime s) := by
  unfold requestTime
  split
  · exact hs
  · exact sendTime_kept (ite_kept (failExchange_kept hs) hs)

theorem answerTime_kept {r : State} {h} {sequence : Nat} {t1 : Nat} {correction : Nat} {s} (hs : Kept r s) : Kept r (answerTime h sequence t1 correction s) := by
  unfold answerTime
  refine ite_kept hs ?_
  · refine ite_kept (refuseStale_kept hs) ?_
    · extract_lets -merge -underBinder +onlyGivenNames y0
      exact sendMsg_kept hs

theorem finishRa_kept {r : State} {status : Nat} {data} {s} (hs : Kept r s) : Kept r (finishRa status data s) := by
  unfold finishRa
  extract_lets -merge -underBinder +onlyGivenNames y0
  exact hs.same

theorem failRequest_kept {r : State} {o} {s} (hs : Kept r s) : Kept r (failRequest o s) := by
  unfold failRequest
  extract_lets -merge -underBinder +onlyGivenNames x0
  have h1 : Kept r x0 := retireRequest_kept hs
  try clear_value x0
  exact ite_kept (failExchange_kept h1) (finishRa_kept h1)

theorem readMessage_kept {r : State} {dest : Nat} {tag : Nat} {status : Nat} {bs} {s} (hs : Kept r s) : Kept r (readMessage dest tag status bs s) := by
  unfold readMessage
  exact sendMsg_kept hs

theorem timeoutRequest_kept {r : State} {dest : Nat} {tag : Nat} {s} (hs : Kept r s) : Kept r (timeoutRequest dest tag s) := by
  unfold timeoutRequest
  split
  · exact hs
  · refine ite_kept (failRequest_kept hs) ?_
    · extract_lets -merge -underBinder +onlyGivenNames x2
      have h3 : Kept r x2 := finishRa_kept (retireRequest_kept hs)
      try clear_value x2
      exact h3.same

theorem ackUnless_kept {r : State} {posted} {h} {status : Nat} {s} (hs : Kept r s) : Kept r (ackUnless posted h status s) := by
  unfold ackUnless
  exact ite_kept hs (writeAck_kept hs)

theorem targetWrite_kept {r : State} {a} {bs} {s} (hs : Kept r s) : Kept r (targetWrite a bs s).2 := by
  unfold targetWrite
  refine iteP_kept (pair_kept hs) ?_
  · refine iteP_kept (pair_kept hs) ?_
    · split
      · rename_i z0 heq
        have h1 : Kept r z0 := KeptO.elim (memStore_kept hs) heq
        exact pair_kept h1
      · exact pair_kept hs

theorem targetRead_kept {r : State} {a} {n : Nat} {s} (hs : Kept r s) : Kept r (targetRead a n s).2.2 := by
  unfold targetRead
  refine iteP2_kept (pair2_kept hs) ?_
  · refine iteP2_kept (pair2_kept hs) ?_
    · split
      · rename_i z0 z1 heq
        have h2 : Kept r z1 := KeptOP.elim (memRead_kept hs) heq
        exact pair2_kept h2
      · exact pair2_kept hs

theorem serveWriteMsg_kept {r : State} {h} {data} {s} (hs : Kept r s) : Kept r (serveWriteMsg h data s) := by
  unfold serveWriteMsg
  refine ite_kept (ackUnless_kept hs) ?_
  · refine ite_kept (refuseStale_kept hs) ?_
    · extract_lets -merge -underBinder +onlyGivenNames x0
      have h1 : Kept r x0.2 := targetWrite_kept hs
      try clear_value x0
      exact ackUnless_kept h1

theorem serveAtomicMsg_kept {r : State} {h} {ty : Nat} {data} {s} (hs : Kept r s) : Kept r (serveAtomicMsg h ty data s) := by
  unfold serveAtomicMsg
  extract_lets -merge -underBinder +onlyGivenNames y0 y1
  refine ite_kept (ackUnless_kept hs) ?_
  · refine ite_kept (refuseStale_kept hs) ?_
    · refine ite_kept (ackUnless_kept hs) ?_
      · extract_lets -merge -underBinder +onlyGivenNames y2
        refine ite_kept (serveAtomic_kept hs) ?_
        · split
          · exact joinQueue_kept hs
          · exact serveAtomic_kept hs

theorem serveReadMsg_kept {r : State} {h} {s} (hs : Kept r s) : Kept r (serveReadMsg h s) := by
  unfold serveReadMsg
  refine ite_kept (readMessage_kept hs) ?_
  · refine ite_kept (refuseStale_kept hs) ?_
    · extract_lets -merge -underBinder +onlyGivenNames x0
      have h1 : Kept r x0.2.2 := targetRead_kept hs
      try clear_value x0
      exact readMessage_kept h1

theorem ownAccess_kept {r : State} {s} (hs : Kept r s) : Kept r (ownAccess s) := by
  unfold ownAccess
  extract_lets -merge -underBinder +onlyGivenNames y0
  refine ite_kept ?_ ?_
  · extract_lets -merge -underBinder +onlyGivenNames x1
    have h2 : Kept r x1.2.2 := targetRead_kept hs
    try clear_value x1
    exact finishRa_kept h2
  · refine ite_kept ?_ ?_
    · extract_lets -merge -underBinder +onlyGivenNames x3
      have h4 : Kept r x3.2 := targetWrite_kept hs
      try clear_value x3
      exact finishRa_kept h4
    · extract_lets -merge -underBinder +onlyGivenNames y5 y6
      exact ite_kept (finishRa_kept hs) (ite_kept (finishRa_kept hs) (finishRa_kept (applyAtomic_kept hs)))

theorem answerResolve_kept {r : State} {h} {byPosition} {which : Nat} {s} (hs : Kept r s) : Kept r (answerResolve h byPosition which s) := by
  unfold answerResolve
  refine ite_kept hs ?_
  · refine ite_kept (refuseStale_kept hs) ?_
    · split
      · exact sendMsg_kept hs
      · exact sendMsg_kept hs

theorem sendRa_kept {r : State} {dest : Nat} {epoch : Nat} {retried} {s} (hs : Kept r s) : Kept r (sendRa dest epoch retried s) := by
  unfold sendRa
  refine ite_kept (ownAccess_kept hs) ?_
  · refine ite_kept (finishRa_kept (sendMsg_kept hs)) ?_
    · refine ite_kept (finishRa_kept (sendMsg_kept hs)) ?_
      · split
        · exact finishRa_kept hs
        · rename_i z1 z2 heq
          have h3 : Kept r z2 := KeptOP.elim (holdRequest_kept hs) heq
          exact sendMsg_kept h3

theorem goRa_kept {r : State} {s} (hs : Kept r s) : Kept r (goRa s) := by
  unfold goRa
  exact ite_kept (refuseWrite_kept hs) (ite_kept hs (sendRa_kept hs.same))

theorem resend_kept {r : State} {o} {dest : Nat} {epoch : Nat} {s} (hs : Kept r s) : Kept r (resend o dest epoch s) := by
  unfold resend
  extract_lets -merge -underBinder +onlyGivenNames x0
  have h1 : Kept r x0 := retireRequest_kept hs
  try clear_value x0
  exact ite_kept (sendTime_kept h1.same) (sendRa_kept h1)

theorem refused_kept {r : State} {o} {s} (hs : Kept r s) : Kept r (refused o s) := by
  unfold refused
  refine ite_kept (failRequest_kept hs) ?_
  · split
    · exact resend_kept hs
    · extract_lets -merge -underBinder +onlyGivenNames x2
      have h3 : Kept r x2 := retireRequest_kept hs
      try clear_value x2
      extract_lets -merge -underBinder +onlyGivenNames y4
      exact sendMsg_kept h3.same

theorem takeResolve_kept {r : State} {h} {moduleId : Nat} {epoch : Nat} {found} {s} (hs : Kept r s) : Kept r (takeResolve h moduleId epoch found s) := by
  unfold takeResolve
  split
  · exact hs
  · exact ite_kept (resend_kept hs) (failRequest_kept hs)

theorem takeResponse_kept {r : State} {h} {status : Nat} {data} {s} (hs : Kept r s) : Kept r (takeResponse h status data s) := by
  unfold takeResponse
  split
  · exact hs
  · exact ite_kept (refused_kept hs) (ite_kept (failRequest_kept hs) (finishRa_kept (retireRequest_kept hs)))

theorem settlePorts_kept {r : State} {s} (hs : Kept r s) : Kept r (settlePorts s) := by
  unfold settlePorts
  exact hs.same

theorem enablePort_kept {r : State} {p : Nat} {cableOk} {s} (hs : Kept r s) : Kept r (enablePort p cableOk s) := by
  unfold enablePort
  extract_lets -merge -underBinder +onlyGivenNames x0
  have h1 : Kept r x0 := setReg_kept hs
  try clear_value x0
  exact ite_kept (modPort_kept h1) h1

theorem disablePort_kept {r : State} {p : Nat} {s} (hs : Kept r s) : Kept r (disablePort p s) := by
  unfold disablePort
  extract_lets -merge -underBinder +onlyGivenNames x0
  have h1 : Kept r x0 := setReg_kept hs
  try clear_value x0
  split
  · exact h1
  · exact modPort_kept h1
  · exact modPort_kept h1
  · exact modPort_kept h1

theorem retrainPort_kept {r : State} {p : Nat} {s} (hs : Kept r s) : Kept r (retrainPort p s) := by
  unfold retrainPort
  split
  · exact refuseWrite_kept hs
  · exact hs
  · exact modPort_kept hs
  · exact modPort_kept hs

theorem passFlit_kept {r : State} {p : Nat} {f} {s} (hs : Kept r s) : Kept r (passFlit p f s) := by
  unfold passFlit
  refine ite_kept ?_ ?_
  · extract_lets -merge -underBinder +onlyGivenNames x0
    have h1 : Kept r x0 := modPort_kept hs
    try clear_value x0
    exact ite_kept (answerStatus_kept h1) h1
  · refine ite_kept hs ?_
    · split
      · exact modPort_kept hs
      · extract_lets -merge -underBinder +onlyGivenNames y4 x5
        have h6 : Kept r x5 := hs.same
        try clear_value x5
        exact ite_kept (answerStatus_kept h6) h6

theorem finishTraining_kept {r : State} {p : Nat} {rx} {tx} {h} {s} (hs : Kept r s) : Kept r (finishTraining p rx tx h s) := by
  unfold finishTraining
  refine ite_kept hs ?_
  · extract_lets -merge -underBinder +onlyGivenNames y0
    split
    · extract_lets -merge -underBinder +onlyGivenNames x3
      have h4 : Kept r x3 := modPort_kept hs
      try clear_value x3
      extract_lets -merge -underBinder +onlyGivenNames y5
      exact ite_kept (modPort_kept h4) (checkSpares_kept (dropDomain_kept (modPort_kept h4)))
    · exact modPort_kept hs

theorem wearLanes_kept {r : State} {p : Nat} {errors} {s} (hs : Kept r s) : Kept r (wearLanes p errors s) := by
  unfold wearLanes
  refine ite_kept hs ?_
  · extract_lets -merge -underBinder +onlyGivenNames y0 x1
    have h2 : Kept r x1 := modPort_kept hs
    try clear_value x1
    extract_lets -merge -underBinder +onlyGivenNames y3
    exact checkSpares_kept (forEach_kept (fun a s h4 => unitFault_kept h4) h2)

theorem losePort_kept {r : State} {p : Nat} {reason : Nat} {s} (hs : Kept r s) : Kept r (losePort p reason s) := by
  unfold losePort
  extract_lets -merge -underBinder +onlyGivenNames y0 x1
  have h2 : Kept r x1 := unitFault_kept hs
  try clear_value x1
  exact ite_kept (modPort_kept h2) (modPort_kept h2)

theorem receiveFlit_kept {r : State} {p : Nat} {f} {s} (hs : Kept r s) : Kept r (receiveFlit p f s) := by
  unfold receiveFlit
  refine ite_kept hs ?_
  · refine ite_kept (modPort_kept hs) ?_
    · extract_lets -merge -underBinder +onlyGivenNames x0
      have h1 : Kept r x0 := modPort_kept hs
      try clear_value x0
      refine ite_kept (losePort_kept h1) ?_
      · refine ite_kept h1 ?_
        · extract_lets -merge -underBinder +onlyGivenNames x2
          have h3 : Kept r x2 := modPort_kept h1
          try clear_value x2
          exact passFlit_kept h3

theorem loadScalars_kept {r : State} {x} {s} (hs : Kept r s) : Kept r (loadScalars x s) := by
  unfold loadScalars
  extract_lets -merge -underBinder +onlyGivenNames y0
  exact ite_kept hs.same hs.same

theorem thermalTest_kept {r : State} {s} (hs : Kept r s) : Kept r (thermalTest s) := by
  unfold thermalTest
  extract_lets -merge -underBinder +onlyGivenNames y0
  refine ite_kept hs.same ?_
  · extract_lets -merge -underBinder +onlyGivenNames y1 y2 y3
    exact hs.same

theorem sendPlans_kept {r : State} {old} {x} {s} (hs : Kept r s) : Kept r (sendPlans old x s) := by
  unfold sendPlans
  extract_lets -merge -underBinder +onlyGivenNames y0
  refine ite_kept hs ?_
  · extract_lets -merge -underBinder +onlyGivenNames y1 x2
    have h3 : Kept r x2 := by
      unfold x2
      refine forEach_kept ?_ hs
      · intro a s h4
        split
        · exact sendMsg_kept h4
        · exact h4
    try clear_value x2
    exact h3.same

theorem promoteFor_kept {r : State} {x} {s} (hs : Kept r s) : Kept r (promoteFor x s) := by
  unfold promoteFor
  extract_lets -merge -underBinder +onlyGivenNames y0
  refine forEach_kept ?_ hs
  · intro a s h1
    split
    · exact ite_kept h1 (forEach_kept (fun a s h3 => issuePromotion_kept h3) h1)
    · exact h1

theorem envelope_on {n : Nat} {x : Power} : (envelopeTest n x).on = x.on := by
  unfold envelopeTest
  dsimp only
  split
  · split <;> rfl
  · split
    · split
      · split <;> rfl
      · rfl
    · rfl

theorem buildRow_kept {r : State} {old} {c} {s} (hs : Kept r s) : Kept r (buildRow old c s) := by
  unfold buildRow
  extract_lets -merge -underBinder +onlyGivenNames x0
  have h1 : Kept r x0 := thermalTest_kept (hs.same (by unfold coreOf lifeOf; rw [envelope_on]))
  try clear_value x0
  extract_lets -merge -underBinder +onlyGivenNames x2
  have h3 : Kept r x2 := h1.same
  try clear_value x2
  split
  · exact h3
  · extract_lets -merge -underBinder +onlyGivenNames y6
    exact sendPlans_kept (promoteFor_kept (loadScalars_kept h3.same))

theorem declareFailed_kept {r : State} {p : Nat} {s} (hs : Kept r s) : Kept r (declareFailed p s) := by
  unfold declareFailed
  exact ite_kept hs hs.same

theorem issueEpoch_kept {r : State} {s} (hs : Kept r s) : Kept r (issueEpoch s).2 := by
  unfold issueEpoch
  extract_lets -merge -underBinder +onlyGivenNames y0
  exact pair_kept hs.same

theorem endEvac_kept {r : State} {s} (hs : Kept r s) : Kept r (endEvac s) := by
  unfold endEvac
  exact hs.same

theorem setMember_kept {r : State} {p : Nat} {m} {s} (hs : Kept r s) : Kept r (setMember p m s) := by
  unfold setMember
  exact hs.same

theorem clearMember_kept {r : State} {p : Nat} {s} (hs : Kept r s) : Kept r (clearMember p s) := by
  unfold clearMember
  exact hs.same

theorem countAbort_kept {r : State} {p : Nat} {s} (hs : Kept r s) : Kept r (countAbort p s) := by
  unfold countAbort
  split
  · exact hs
  · extract_lets -merge -underBinder +onlyGivenNames x2
    have h3 : Kept r x2 := setMember_kept hs
    try clear_value x2
    exact ite_kept (declareFailed_kept h3) h3

theorem putContent_kept {r : State} {k : Nat} {f : Nat} {p} {bs} {s} (hs : Kept r s) : Kept r (putContent k f p bs s) := by
  unfold putContent
  exact forEach_kept (fun a s h0 => (h0.memory fun f => ⟨f.1, memWrite_wf _ _ f.2.1, f.2.2⟩)) hs

theorem takeRole_kept {r : State} {g} {s} (hs : Kept r s) : Kept r (takeRole g s) := by
  unfold takeRole
  extract_lets -merge -underBinder +onlyGivenNames y0 y1 y2 y3 y4 x5
  have h6 : Kept r x5 := hs.same
  try clear_value x5
  extract_lets -merge -underBinder +onlyGivenNames x7
  have h8 : Kept r x7 := ite_kept h6.same h6
  try clear_value x7
  clear_value y1
  split
  · exact freeTime_kept h8
  · exact ite_kept (unlockTime_kept h8) h8
  · exact ite_kept h8 (unlockTime_kept h8)

theorem takeAct_kept {r : State} {h} {b : Nat} {data} {s} (hs : Kept r s) : Kept r (takeAct h b data s) := by
  unfold takeAct
  exact ite_kept (discardStale_kept hs) (setBuffer_kept hs)

theorem takeBulk_kept {r : State} {h} {b : Nat} {o : Nat} {bs} {s} (hs : Kept r s) : Kept r (takeBulk h b o bs s) := by
  unfold takeBulk
  refine ite_kept (discardStale_kept hs) ?_
  · extract_lets -merge -underBinder +onlyGivenNames x0
    have h1 : Kept r x0 := passWeir_kept hs
    try clear_value x0
    extract_lets -merge -underBinder +onlyGivenNames x2
    have h3 : Kept r x2 := by
      unfold x2
      split
      · exact snoop_kept h1
      · exact h1
    try clear_value x2
    exact ite_kept h3 (h3.memory fun f => ⟨memWrite_wf _ _ f.1, f.2⟩)

theorem releaseFilled_kept {r : State} {s} (hs : Kept r s) : Kept r (releaseFilled s) := by
  unfold releaseFilled
  extract_lets -merge -underBinder +onlyGivenNames x0
  have h1 : Kept r x0 := forEach_kept (fun a s h2 => modGroup_kept h2) hs
  try clear_value x0
  exact h1.same

theorem takeRoleAck_kept {r : State} {h} {p : Nat} {accepted} {s} (hs : Kept r s) : Kept r (takeRoleAck h p accepted s) := by
  unfold takeRoleAck
  refine ite_kept hs ?_
  · refine ite_kept hs.same ?_
    · refine ite_kept hs ?_
      · extract_lets -merge -underBinder +onlyGivenNames x0
        have h1 : Kept r x0.2 := issueEpoch_kept hs
        try clear_value x0
        extract_lets -merge -underBinder +onlyGivenNames x2
        have h3 : Kept r x2 := h1
        exact h3.same

theorem enterMember_kept {r : State} {c} {s} (hs : Kept r s) : Kept r (enterMember c s) := by
  unfold enterMember
  exact ite_kept hs (setMember_kept hs)

theorem takeAbort_kept {r : State} {h} {s} (hs : Kept r s) : Kept r (takeAbort h s) := by
  unfold takeAbort
  refine ite_kept (discardStale_kept hs) ?_
  · extract_lets -merge -underBinder +onlyGivenNames y0
    exact hs.same

theorem applyEdit_kept {r : State} {slot : Nat} {e} {s} (hs : Kept r s) : Kept r (applyEdit slot e s) := by
  unfold applyEdit
  extract_lets -merge -underBinder +onlyGivenNames y0
  refine ite_kept ?_ ?_
  · split
    · split
      · unfold y0
        try beta_reduce
        exact modCtx_kept (modPool_kept hs.same)
      · exact lackSet_kept hs
    · exact hs
  · refine ite_kept (modGroup_kept hs) ?_
    · refine ite_kept ?_ ?_
      · extract_lets -merge -underBinder +onlyGivenNames x6
        have h7 : Kept r x6 := modCtx_kept hs
        try clear_value x6
        exact modGroup_kept h7
      · refine ite_kept ?_ hs
        · unfold y0
          try beta_reduce
          exact modCtx_kept hs

theorem tell_kept {r : State} {dest : Nat} {kind : Nat} {epoch : Nat} {step : Nat} {values} {s} (hs : Kept r s) : Kept r (tell dest kind epoch step values s) := by
  unfold Sys2Proof.Machine.tell
  exact sendMsg_kept hs

theorem takePage_kept {r : State} {h} {g : Nat} {fill : Nat} {bs} {s} (hs : Kept r s) : Kept r (takePage h g fill bs s) := by
  unfold takePage
  extract_lets -merge -underBinder +onlyGivenNames x0
  have h1 : Kept r x0 := passWeir_kept hs
  try clear_value x0
  extract_lets -merge -underBinder +onlyGivenNames x2
  have h3 : Kept r x2 := by
    unfold x2
    split
    · exact snoop_kept h1
    · exact h1
  try clear_value x2
  split
  · exact h3
  · split
    · exact h3
    · extract_lets -merge -underBinder +onlyGivenNames y10 y11
      clear_value y11
      split
      · exact lackSet_kept h3
      · extract_lets -merge -underBinder +onlyGivenNames x15
        have h16 : Kept r x15 := putContent_kept (modPool_kept h3)
        try clear_value x15
        extract_lets -merge -underBinder +onlyGivenNames y17 y18 x19
        have h20 : Kept r x19 := h16.same
        try clear_value x19
        exact sendMsg_kept h20

theorem promoteGroup_kept {r : State} {s} (hs : Kept r s) : Kept r (promoteGroup s) := by
  unfold promoteGroup
  exact forEach_kept (fun a s h0 => issuePromotion_kept h0) hs

theorem leaveManager_kept {r : State} {s} (hs : Kept r s) : Kept r (leaveManager s) := by
  unfold leaveManager
  exact ite_kept hs.same (refuseWrite_kept hs)

theorem applyChanges_kept {r : State} {s} (hs : Kept r s) : Kept r (applyChanges s) := by
  unfold applyChanges
  extract_lets -merge -underBinder +onlyGivenNames y0 y1 x2
  have h3 : Kept r x2 := hs.same
  try clear_value x2
  exact forEach_kept (fun a s h4 => ite_kept (takeRole_kept h4) (enterMember_kept h4)) h3

theorem sendGroup_kept {r : State} {dest : Nat} {g : Nat} {s} (hs : Kept r s) : Kept r (sendGroup dest g s) := by
  unfold sendGroup
  extract_lets -merge -underBinder +onlyGivenNames y0 y1 x2
  have h3 : Kept r x2 := passWeir_kept hs
  try clear_value x2
  extract_lets -merge -underBinder +onlyGivenNames x4
  have h5 : Kept r x4 := by
    unfold x4
    split
    · exact snoop_kept h3
    · exact h3
  try clear_value x4
  extract_lets -merge -underBinder +onlyGivenNames x8
  have h9 : Kept r x8 := sendMsg_kept h5
  try clear_value x8
  exact h9.same

theorem becomeManager_kept {r : State} {s} (hs : Kept r s) : Kept r (becomeManager s) := by
  unfold becomeManager
  exact ite_kept hs.same (refuseWrite_kept hs)

theorem abandonStep_kept {r : State} {missing} {s} (hs : Kept r s) : Kept r (abandonStep missing s) := by
  unfold abandonStep
  split
  · exact hs
  · extract_lets -merge -underBinder +onlyGivenNames y2 y3
    refine ite_kept hs ?_
    · extract_lets -merge -underBinder +onlyGivenNames x4
      have h5 : Kept r x4 := by
        unfold x4
        refine forEach_kept ?_ hs
        · intro a s h6
          split
          · exact tell_kept h6.same
          · exact h6
      try clear_value x4
      extract_lets -merge -underBinder +onlyGivenNames y9 x10
      have h11 : Kept r x10 := h5.same
      try clear_value x10
      exact forEach_kept (fun a s h12 => countAbort_kept h12) h11

theorem sendRole_kept {r : State} {dest : Nat} {oldEpoch : Nat} {g} {s} (hs : Kept r s) : Kept r (sendRole dest oldEpoch g s) := by
  unfold sendRole
  exact tell_kept hs

theorem tryStart_kept {r : State} {s} (hs : Kept r s) : Kept r (tryStart s) := by
  unfold tryStart
  split
  · extract_lets -merge -underBinder +onlyGivenNames y1
    refine ite_kept hs ?_
    · extract_lets -merge -underBinder +onlyGivenNames y2 y3 y4 y5 x6
      have h7 : Kept r x6 := hs.same
      try clear_value x6
      refine forEach_kept ?_ h7
      · intro a s h8
        split
        · exact tell_kept h8
        · exact h8
  · exact hs

theorem evacAtSpare_kept {r : State} {phase : Nat} {worker : Nat} {s} (hs : Kept r s) : Kept r (evacAtSpare phase worker s) := by
  unfold evacAtSpare
  extract_lets -merge -underBinder +onlyGivenNames y0
  exact ite_kept (releaseFilled_kept hs) (ite_kept (promoteGroup_kept hs.same) (ite_kept hs.same hs))

theorem evacMessage_kept {r : State} {dest : Nat} {phase : Nat} {worker : Nat} {spare : Nat} {epoch : Nat} {s} (hs : Kept r s) : Kept r (evacMessage dest phase worker spare epoch s) := by
  unfold evacMessage
  exact tell_kept hs

theorem sendReady_kept {r : State} {counter : Nat} {s} (hs : Kept r s) : Kept r (sendReady counter s) := by
  unfold sendReady
  exact ite_kept (tell_kept hs.same) hs

theorem copyGroups_kept {r : State} {s} (hs : Kept r s) : Kept r (copyGroups s) := by
  unfold copyGroups
  extract_lets -merge -underBinder +onlyGivenNames y0
  refine ite_kept hs ?_
  · extract_lets -merge -underBinder +onlyGivenNames y1 x2
    have h3 : Kept r x2 := ite_kept (evacMessage_kept hs.same) hs
    try clear_value x2
    exact forEach_kept (fun a s h4 => sendGroup_kept h4) h3

theorem takeRoleSet_kept {r : State} {h} {g} {s} (hs : Kept r s) : Kept r (takeRoleSet h g s) := by
  unfold takeRoleSet
  refine ite_kept (refuseStale_kept hs) ?_
  · extract_lets -merge -underBinder +onlyGivenNames y0 x1
    have h2 : Kept r x1 := sendMsg_kept hs
    try clear_value x1
    exact ite_kept h2 h2.same

theorem takePlan_kept {r : State} {h} {p} {s} (hs : Kept r s) : Kept r (takePlan h p s) := by
  unfold takePlan
  refine ite_kept (discardStale_kept hs) ?_
  · refine ite_kept hs ?_
    · extract_lets -merge -underBinder +onlyGivenNames x0
      have h1 : Kept r x0 := forEach_kept (fun a s h2 => applyEdit_kept h2) hs
      try clear_value x0
      extract_lets -merge -underBinder +onlyGivenNames y3
      exact sendReady_kept (loadScalars_kept h1.same)

theorem replaceMember_kept {r : State} {p : Nat} {q : Nat} {sp} {leaving} {s} (hs : Kept r s) : Kept r (replaceMember p q sp leaving s) := by
  unfold replaceMember
  extract_lets -merge -underBinder +onlyGivenNames x0
  have h1 : Kept r x0.2 := issueEpoch_kept hs
  try clear_value x0
  extract_lets -merge -underBinder +onlyGivenNames x2
  have h3 : Kept r x2 := clearMember_kept (clearMember_kept h1)
  try clear_value x2
  extract_lets -merge -underBinder +onlyGivenNames x4
  have h5 : Kept r x4 := setMember_kept h3
  try clear_value x4
  exact sendRole_kept h5

theorem answerEvac_kept {r : State} {s} (hs : Kept r s) : Kept r (answerEvac s) := by
  unfold answerEvac
  extract_lets -merge -underBinder +onlyGivenNames y0
  refine ite_kept hs ?_
  · split
    · exact hs
    · extract_lets -merge -underBinder +onlyGivenNames x4
      have h5 : Kept r x4 := hs.same
      try clear_value x4
      split
      · extract_lets -merge -underBinder +onlyGivenNames y9 x10
        have h11 : Kept r x10 := h5.same
        try clear_value x10
        exact evacMessage_kept (evacMessage_kept h11)
      · exact evacMessage_kept h5
      · exact h5

theorem dropPosition_kept {r : State} {p : Nat} {kept} {s} (hs : Kept r s) : Kept r (dropPosition p kept s) := by
  unfold dropPosition
  exact forEach_kept (fun a s h0 => dropGroup_kept h0) hs

theorem reportDone_kept {r : State} {s} (hs : Kept r s) : Kept r (reportDone s) := by
  unfold reportDone
  extract_lets -merge -underBinder +onlyGivenNames y0
  exact ite_kept (evacMessage_kept hs) hs

theorem takeReady_kept {r : State} {h} {b} {s} (hs : Kept r s) : Kept r (takeReady h b s) := by
  unfold takeReady
  split
  · exact hs
  · refine ite_kept hs ?_
    · extract_lets -merge -underBinder +onlyGivenNames x2
      have h3 : Kept r x2 := setMember_kept hs
      try clear_value x2
      extract_lets -merge -underBinder +onlyGivenNames y4 y5
      exact tryStart_kept h3.same

theorem evacAtManager_kept {r : State} {h} {phase : Nat} {s} (hs : Kept r s) : Kept r (evacAtManager h phase s) := by
  unfold evacAtManager
  extract_lets -merge -underBinder +onlyGivenNames y0 y1
  clear_value y1
  split
  · exact hs
  · refine ite_kept (ite_kept hs hs.same) ?_
    · refine ite_kept ?_ ?_
      · refine ite_kept ?_ hs.same
        · split
          · exact evacMessage_kept (endEvac_kept hs)
          · exact endEvac_kept hs
      · refine ite_kept ?_ (ite_kept hs.same hs)
        · extract_lets -merge -underBinder +onlyGivenNames y6 x7
          have h8 : Kept r x7 := hs.same
          try clear_value x7
          split
          · exact evacMessage_kept (evacMessage_kept h8)
          · exact h8

theorem failMember_kept {r : State} {p : Nat} {s} (hs : Kept r s) : Kept r (failMember p s) := by
  unfold failMember
  split
  · exact hs
  · extract_lets -merge -underBinder +onlyGivenNames y2 y3 y4
    split
    · exact dropPosition_kept (replaceMember_kept (ite_kept (endEvac_kept hs) hs))
    · exact clearMember_kept (issueEpoch_kept hs)

theorem switchOver_kept {r : State} {s} (hs : Kept r s) : Kept r (switchOver s) := by
  unfold switchOver
  extract_lets -merge -underBinder +onlyGivenNames y0
  refine ite_kept hs ?_
  · split
    · extract_lets -merge -underBinder +onlyGivenNames x3
      have h4 : Kept r x3 := replaceMember_kept hs
      try clear_value x3
      extract_lets -merge -underBinder +onlyGivenNames x5
      have h6 : Kept r x5.2 := issueEpoch_kept h4
      try clear_value x5
      exact endEvac_kept (sendRole_kept h6)
    · exact endEvac_kept hs

theorem takePageAck_kept {r : State} {lgns} {s} (hs : Kept r s) : Kept r (takePageAck lgns s) := by
  unfold takePageAck
  extract_lets -merge -underBinder +onlyGivenNames y0
  exact ite_kept hs.same (ite_kept hs (reportDone_kept hs.same))

theorem evacAtWorker_kept {r : State} {phase : Nat} {spare : Nat} {s} (hs : Kept r s) : Kept r (evacAtWorker phase spare s) := by
  unfold evacAtWorker
  extract_lets -merge -underBinder +onlyGivenNames y0
  refine ite_kept (endEvac_kept hs) ?_
  · refine ite_kept hs.same ?_
    · refine ite_kept ?_ hs
      · extract_lets -merge -underBinder +onlyGivenNames x1
        have h2 : Kept r x1 := forEach_kept (fun a s h3 => sendGroup_kept h3) hs.same
        try clear_value x1
        exact reportDone_kept h2

theorem failMembers_kept {r : State} {s} (hs : Kept r s) : Kept r (failMembers s) := by
  unfold failMembers
  extract_lets -merge -underBinder +onlyGivenNames y0
  exact forEach_kept (fun a s h1 => failMember_kept h1) hs.same

theorem takeEvacuate_kept {r : State} {h} {phase : Nat} {worker : Nat} {spare : Nat} {s} (hs : Kept r s) : Kept r (takeEvacuate h phase worker spare s) := by
  unfold takeEvacuate
  refine ite_kept (refuseStale_kept hs) ?_
  · split
    · exact evacAtManager_kept hs
    · exact evacAtWorker_kept hs
    · exact evacAtSpare_kept hs
    · exact hs

theorem changeRoles_kept {r : State} {s} (hs : Kept r s) : Kept r (changeRoles s) := by
  unfold changeRoles
  extract_lets -merge -underBinder +onlyGivenNames x0
  have h1 : Kept r x0 := settleTime_kept (settlePorts_kept hs)
  try clear_value x0
  extract_lets -merge -underBinder +onlyGivenNames x2
  have h3 : Kept r x2 := switchOver_kept (applyChanges_kept h1)
  try clear_value x2
  exact copyGroups_kept (answerEvac_kept (failMembers_kept h3))

theorem takeStart_kept {r : State} {h} {t : Nat} {s} (hs : Kept r s) : Kept r (takeStart h t s) := by
  unfold takeStart
  refine ite_kept (discardStale_kept hs) ?_
  · split
    · exact ite_kept hs (ite_kept (stepFault_kept hs.same) hs.same)
    · exact hs

end Sys2Proof.Laws
end

