-- ==== Sys2Proof/Laws/KeptRest.lean ====
section
/-! SUPPORT. Boundaries, steps, faults, resets apart from their resetting part, attestation, signed commands, registers, service and transfers keep what `Kept` says. -/

set_option Elab.async false

namespace Sys2Proof.Laws

open Sys2Proof.Machine

theorem copyQuad_kept {r : State} {q : Nat} {x : Nat} {s} (hs : Kept r s) : Kept r (copyQuad q x s) := by
  unfold copyQuad
  extract_lets -merge -underBinder +onlyGivenNames x0
  have h1 : Kept r x0 := dropTransfers_kept hs
  try clear_value x0
  exact h1.same

theorem vacateBlock_kept {r : State} {n : Nat} {s} (hs : Kept r s) : Kept r (vacateBlock n s) := by
  unfold vacateBlock
  extract_lets -merge -underBinder +onlyGivenNames y0 y1 x2
  have h3 : Kept r x2 := by
    unfold x2
    split
    · refine ite_kept ?_ hs
      · split
        · exact modBlock_kept hs
        · exact hs
    · exact hs
  try clear_value x2
  extract_lets -merge -underBinder +onlyGivenNames x8
  have h9 : Kept r x8 := by
    unfold x8
    split
    · refine ite_kept ?_ h3
      · split
        · exact modBlock_kept h3
        · exact h3
    · exact h3
  try clear_value x8
  split
  · refine ite_kept ?_ h9
    · split
      · exact modBlock_kept h9
      · exact h9
  · exact h9

theorem vacateImage_kept {r : State} {a1 : Nat} {s} (hs : Kept r s) : Kept r (vacateImage a1 s) := by
  unfold vacateImage
  split
  · exact hs
  · refine forEach_kept ?_ hs
    · intro a s h2
      split
      · exact (h2.memory fun f => ⟨f.1, memCopy_wf _ _ _ _ f.2.1, f.2.2⟩)
      · exact h2

theorem moveBlock_kept {r : State} {n : Nat} {s} (hs : Kept r s) : Kept r (moveBlock n s) := by
  unfold moveBlock
  extract_lets -merge -underBinder +onlyGivenNames y0
  split
  · exact hs
  · split
    · exact releaseLater_kept (modBlock_kept hs)
    · exact ite_kept (releaseLater_kept (modBlock_kept hs)) hs

theorem installDiversions_kept {r : State} {s} (hs : Kept r s) : Kept r (installDiversions s) := by
  unfold installDiversions
  refine forEach_kept ?_ hs
  · intro a s h0
    split
    · exact h0
    · exact (h0.memory fun f => ⟨f.1, memCopy_wf _ _ _ _ f.2.1, f.2.2⟩)

theorem vacateFrames_kept {r : State} {s} (hs : Kept r s) : Kept r (vacateFrames s) := by
  unfold vacateFrames
  exact ite_kept hs (forEach_kept (fun a s h0 => vacateImage_kept h0) (forEach_kept (fun a s h1 => vacateBlock_kept h1) hs))

theorem forceOut_kept {r : State} {g : Nat} {s} (hs : Kept r s) : Kept r (forceOut g s) := by
  unfold forceOut
  extract_lets -merge -underBinder +onlyGivenNames y0
  refine ite_kept hs ?_
  · split
    · rename_i z1 heq
      have h2 : Kept r z1 := KeptO.elim (KeptO.ite (startSpill_kept hs) KeptO.none) heq
      exact h2
    · refine ite_kept (dropGroup_kept hs) ?_
      · extract_lets -merge -underBinder +onlyGivenNames y4
        refine forEach_kept ?_ hs
        · intro a s h5
          extract_lets -merge -underBinder +onlyGivenNames y6
          exact ite_kept (endSeq_kept h5) h5

theorem withdrawSets_kept {r : State} {k : Nat} {l} {s} (hs : Kept r s) : Kept r (withdrawSets k l s) := by
  unfold withdrawSets
  extract_lets -merge -underBinder +onlyGivenNames x0
  have h1 : Kept r x0 := modPool_kept hs
  try clear_value x0
  exact forEach_kept (fun a s h2 => forceOut_kept h2) h1

theorem withdrawRetired_kept {r : State} {s} (hs : Kept r s) : Kept r (withdrawRetired s) := by
  unfold withdrawRetired
  exact forEach_kept (fun a s h0 => forEach_kept (fun a s h1 => withdrawSets_kept h1) h0) hs

theorem divertPool_kept {r : State} {k : Nat} {x} {s} (hs : Kept r s) : Kept r (divertPool k x s) := by
  unfold divertPool
  split
  · exact hs
  · refine ite_kept hs ?_
    · extract_lets -merge -underBinder +onlyGivenNames y2 y3 y4 y5 y6 y7 y8 y9 x10
      have h11 : Kept r x10 := modPool_kept hs.same
      try clear_value x10
      extract_lets -merge -underBinder +onlyGivenNames y12
      exact withdrawSets_kept h11

theorem settleDepot_kept {r : State} {s} (hs : Kept r s) : Kept r (settleDepot s) := by
  unfold settleDepot
  exact vacateFrames_kept (withdrawRetired_kept (installDiversions_kept hs))

theorem loseQuad_kept {r : State} {x} {s} (hs : Kept r s) : Kept r (loseQuad x s) := by
  unfold loseQuad
  exact addTransfer_kept (forEach_kept (fun a s h0 => divertPool_kept h0) hs)

theorem loseQuads_kept {r : State} {before} {s} (hs : Kept r s) : Kept r (loseQuads before s) := by
  unfold loseQuads
  exact forEach_kept (fun a s h0 => loseQuad_kept h0) hs

theorem settleRemoval_kept {r : State} {s} (hs : Kept r s) : Kept r (settleRemoval s) := by
  unfold settleRemoval
  exact ite_kept hs.same hs

theorem noteRow6_kept {r : State} {before} {s} (hs : Kept r s) : Kept r (noteRow6 before s) := by
  unfold noteRow6
  exact ite_kept hs hs.same

theorem endPlan_kept {r : State} {s} (hs : Kept r s) : Kept r (endPlan s) := by
  unfold endPlan
  exact hs.same

theorem settleBoot_kept {r : State} {s} (hs : Kept r s) : Kept r (settleBoot s) := by
  unfold settleBoot
  exact hs.same

theorem coreWaits_kept {r : State} {s} (hs : Kept r s) : Kept r (coreWaits s) := by
  unfold coreWaits
  refine ite_kept ?_ hs
  · extract_lets -merge -underBinder +onlyGivenNames x0
    have h1 : Kept r x0.2 := takeFree_kept hs
    try clear_value x0
    extract_lets -merge -underBinder +onlyGivenNames y2 x3
    have h4 : Kept r x3 := h1
    exact h4.same

theorem reportReady_kept {r : State} {s} (hs : Kept r s) : Kept r (reportReady s) := by
  unfold reportReady
  exact ite_kept hs (sendReady_kept hs)

theorem otherSteps_kept {r : State} {x} {s} (hs : Kept r s) : Kept r (otherSteps x s) := by
  unfold otherSteps
  split
  · exact deliverLookups_kept hs
  · exact deliverReplay_kept hs
  · exact hs
  · exact hs

theorem firstRows_kept {r : State} {s} (hs : Kept r s) : Kept r (firstRows s) := by
  unfold firstRows
  extract_lets -merge -underBinder +onlyGivenNames y0
  exact reclaimRow_kept (settleDepot_kept (editRow_kept (deliverRow_kept (fun a s h1 => otherSteps_kept h1) (sendWaiting_kept (passRow_kept (fun a s h2 => replayEffect_kept h2) (commitRowOne_kept hs))))))

theorem lastRows_kept {r : State} {failed} {ran} {old} {held} {s} (hs : Kept r s) : Kept r (lastRows failed ran old held s) := by
  unfold lastRows
  extract_lets -merge -underBinder +onlyGivenNames y0 x1
  have h2 : Kept r x1 := changeRoles_kept (closeWindows_kept (loseQuads_kept (noteRow6_kept (swapSpares_kept hs))))
  try clear_value x1
  extract_lets -merge -underBinder +onlyGivenNames x3
  have h4 : Kept r x3.2 := admitRow_kept (chargeRow_kept (endPlan_kept h2))
  try clear_value x3
  exact coreWaits_kept (buildRow_kept h4)

/-- A boundary, after the step in flight has played out. -/
theorem stepBoundary_beaten (b : BoundaryInput) (s : State) : Kept s (playOut s) ∧ Beaten (playOut s) (stepBoundary b s) := by
  refine ⟨playOut_kept (Kept.refl s), ?_⟩
  unfold stepBoundary
  extract_lets -merge -underBinder +onlyGivenNames x0 y2 y3 x4
  have h5 : Beaten x0 x4 := (beginBoundary_beaten b x0).kept (settleBoot_kept (Kept.refl _))
  try clear_value x4
  extract_lets -merge -underBinder +onlyGivenNames y6 x7
  have h8 : Beaten x0 x7 := h5.kept (settleRemoval_kept (lastRows_kept (firstRows_kept (Kept.refl _))))
  try clear_value x7
  exact h8.kept (reportReady_kept (passSlots_kept (Kept.same (Kept.refl x7))))

theorem decideTokens_kept {r : State} {x} {s} (hs : Kept r s) : Kept r (decideTokens x s) := by
  unfold decideTokens
  extract_lets -merge -underBinder +onlyGivenNames x0
  have h1 : Kept r x0.2 := takeFree_kept hs
  try clear_value x0
  split
  · exact mainResults_kept h1
  · split
    · exact ite_kept hs (draftResults_kept h1)
    · exact hs
  · exact hs

theorem noteStart_kept {r : State} {x} {s} (hs : Kept r s) : Kept r (noteStart x s) := by
  unfold noteStart
  split
  · exact modSlot_kept hs.same
  · exact hs.same
  · exact hs

theorem voidFor_kept {r : State} {blocks} {s} (hs : Kept r s) : Kept r (voidFor blocks s) := by
  unfold voidFor
  split
  · exact hs
  · extract_lets -merge -underBinder +onlyGivenNames x2
    have h3 : Kept r x2 := hs.same
    try clear_value x2
    split
    · exact h3
    · exact modSlot_kept h3

theorem waitPeriod_kept {r : State} {s} (hs : Kept r s) : Kept r (waitPeriod s) := by
  unfold waitPeriod
  refine ite_kept hs ?_
  · extract_lets -merge -underBinder +onlyGivenNames x0
    have h1 : Kept r x0 := passSlots_kept hs.same
    try clear_value x0
    exact ite_kept h1.same h1

theorem fillExperts_kept {r : State} {x} {p} {l} {layer : Nat} {routes} {s} (hs : Kept r s) : Kept r (fillExperts x p l layer routes s) := by
  unfold fillExperts
  extract_lets -merge -underBinder +onlyGivenNames y0 y1 y2 y3 y4 y5 y6 y7 y8 x9
  have h10 : Kept r x9 := hs.same
  try clear_value x9
  exact forEach_kept (fun a s h11 => forEach_kept (fun a s h12 => issuePromotion_kept h12) h11) h10

theorem routeLayer_kept {r : State} {layer : Nat} {routes} {s} (hs : Kept r s) : Kept r (routeLayer layer routes s) := by
  unfold routeLayer
  split
  · exact hs
  · split
    · exact hs
    · split
      · exact ite_kept (fillExperts_kept hs) hs
      · exact hs

theorem timeoutHold_kept {r : State} {n : Nat} {s} (hs : Kept r s) : Kept r (timeoutHold n s) := by
  unfold timeoutHold
  split
  · exact hs
  · exact ite_kept hs (packageError_kept (voidFor_kept hs))

theorem holdTest_kept {r : State} {blocks} {s} (hs : Kept r s) : Kept r (holdTest blocks s) := by
  unfold holdTest
  split
  · exact hs
  · extract_lets -merge -underBinder +onlyGivenNames y2
    refine ite_kept hs.same ?_
    · refine ite_kept ?_ ?_
      · extract_lets -merge -underBinder +onlyGivenNames x3
        have h4 : Kept r x3 := forEach_kept (fun a s h5 => timeoutHold_kept h5) hs
        try clear_value x3
        exact h4.same
      · extract_lets -merge -underBinder +onlyGivenNames y6
        exact passSlots_kept hs.same

/-- A step that starts: its counter is STEP_COUNTER's value, the scalar banks are exchanged. -/
theorem startStep_started {work : List EngineOp} {s : State} {x : Step} (h : s.step = some x) (m : mayStart s x = true) :
    Lived s (startStep work s) ∧ (startStep work s).boundary = s.boundary ∧ (startStep work s).stamp = s.stamp ∧
      (startStep work s).stepCounter = x.counter ∧ (startStep work s).activeBank = 1 - s.activeBank := by
  unfold startStep
  rw [h]
  dsimp only
  rw [if_neg (by rw [m]; decide)]
  generalize e : ({ s with step := some { x with started := true, startTime := s.now }, stepCounter := x.counter, activeBank := 1 - s.activeBank, logits := [], nbus := fmMap s.nbus fun _ n => { n with held := [], heldValid := false } } : State) = u
  have h1 : Lived s u ∧ u.boundary = s.boundary ∧ u.stamp = s.stamp ∧ u.stepCounter = x.counter ∧ u.activeBank = 1 - s.activeBank := by
    subst e
    exact ⟨⟨rfl, id, id⟩, rfl, rfl, rfl, rfl⟩
  have k := decideTokens_kept (x := { x with started := true, startTime := s.now }) (forEach_kept (l := work) (f := runOp) (fun a s h5 => runOp_kept h5)
    (noteStart_kept (x := { x with started := true, startTime := s.now }) (Kept.refl u)))
  have e := k.1
  unfold coreOf at e
  simp only [Prod.mk.injEq] at e
  obtain ⟨-, a, b, c, d⟩ := e
  exact ⟨h1.1.kept k, a.trans h1.2.1, b.trans h1.2.2.1, c.trans h1.2.2.2.1, d.trans h1.2.2.2.2⟩

theorem startStep_lived {work : List EngineOp} {s : State} : Lived s (startStep work s) := by
  rcases h : s.step with _ | x
  · unfold startStep
    rw [h]
    exact Lived.refl s
  · by_cases m : mayStart s x = true
    · exact (startStep_started h m).1
    · unfold startStep
      rw [h]
      dsimp only
      rw [if_pos (by simpa using m)]
      exact Lived.refl s

theorem atomicError_kept {r : State} {a : Nat} {s} (hs : Kept r s) : Kept r (atomicError a s) := by
  unfold atomicError
  exact hs.same

theorem damageCtx_kept {r : State} {i : Nat} {s} (hs : Kept r s) : Kept r (damageCtx i s) := by
  unfold damageCtx
  exact ite_kept hs hs.same

theorem faultLookups_kept {r : State} {n : Nat} {s} (hs : Kept r s) : Kept r (faultLookups n s) := by
  unfold faultLookups
  exact hs.same

theorem releaseDump_kept {r : State} {s} (hs : Kept r s) : Kept r (releaseDump s) := by
  unfold releaseDump
  exact ite_kept hs.same hs

theorem blockStart_kept {r : State} {s} (hs : Kept r s) : Kept r (blockStart s) := by
  unfold blockStart
  split
  · exact ite_kept hs hs.same
  · exact hs

theorem journalError_kept {r : State} {i : Nat} {step : Nat} {s} (hs : Kept r s) : Kept r (journalError i step s) := by
  unfold journalError
  exact modCtx_kept hs

theorem historyError_kept {r : State} {g : Nat} {s} (hs : Kept r s) : Kept r (historyError g s) := by
  unfold historyError
  extract_lets -merge -underBinder +onlyGivenNames y0
  refine ite_kept hs ?_
  · extract_lets -merge -underBinder +onlyGivenNames x1
    have h2 : Kept r x1 := modGroup_kept hs
    try clear_value x1
    exact ite_kept (forEach_kept (fun a s h3 => damageCtx_kept h3) h2) h2

theorem imageError_kept {r : State} {g : Nat} {s} (hs : Kept r s) : Kept r (imageError g s) := by
  unfold imageError
  extract_lets -merge -underBinder +onlyGivenNames y0
  exact ite_kept (dropTransfers_kept (modGroup_kept hs)) hs

theorem trainChannel_kept {r : State} {tier : Nat} {c : Nat} {s} (hs : Kept r s) : Kept r (trainChannel tier c s) := by
  unfold trainChannel
  extract_lets -merge -underBinder +onlyGivenNames x0
  have h1 : Kept r x0.2 := takeFree_kept hs
  try clear_value x0
  exact modChannel_kept h1

theorem finishDump_kept {r : State} {failed} {s} (hs : Kept r s) : Kept r (finishDump failed s) := by
  unfold finishDump
  split
  · exact hs
  · refine ite_kept hs ?_
    · extract_lets -merge -underBinder +onlyGivenNames x2
      have h3 : Kept r x2.2 := takeFree_kept hs
      try clear_value x2
      extract_lets -merge -underBinder +onlyGivenNames y4 y5 y6 x7
      have h8 : Kept r x7 := h3
      split
      · rename_i z9 heq
        have h10 : Kept r z9 := KeptO.elim (KeptO.ite (writeHost_kept h8) KeptO.none) heq
        exact h10.same
      · extract_lets -merge -underBinder +onlyGivenNames y12
        exact h8.same

theorem orderEscalation_kept {r : State} {d} {unit : Nat} {entry} {s} (hs : Kept r s) : Kept r (orderEscalation d unit entry s) := by
  unfold orderEscalation
  split
  · exact setDomain_kept hs
  · exact setDomain_kept hs

theorem recurrentError_kept {r : State} {i : Nat} {consumed} {s} (hs : Kept r s) : Kept r (recurrentError i consumed s) := by
  unfold recurrentError
  exact damageCtx_kept (ite_kept (voidStep_kept hs) hs)

theorem retrainedChannel_kept {r : State} {tier : Nat} {c : Nat} {s} (hs : Kept r s) : Kept r (retrainedChannel tier c s) := by
  unfold retrainedChannel
  exact ite_kept (dropDomain_kept (trainChannel_kept hs)) hs

theorem linkLoss_kept {r : State} {s} (hs : Kept r s) : Kept r (linkLoss s) := by
  unfold linkLoss
  refine ite_kept hs ?_
  · extract_lets -merge -underBinder +onlyGivenNames y0 y1 x2
    have h3 : Kept r x2 := hs.same
    try clear_value x2
    exact ite_kept h3 (fatal_kept h3)

theorem layerOvertemp_kept {r : State} {q : Nat} {layer : Nat} {t} {s} (hs : Kept r s) : Kept r (layerOvertemp q layer t s) := by
  unfold layerOvertemp
  extract_lets -merge -underBinder +onlyGivenNames y0 x1
  have h2 : Kept r x1 := hs.same
  try clear_value x1
  refine ite_kept (fatal_kept h2) ?_
  · split
    · exact ite_kept (writeLog_kept (voidStep_kept h2.same)) h2
    · exact h2

theorem fatalFault_kept {r : State} {cause : Nat} {d} {hasQuad} {s} (hs : Kept r s) : Kept r (fatalFault cause d hasQuad s) := by
  unfold fatalFault
  refine ite_kept hs ?_
  · extract_lets -merge -underBinder +onlyGivenNames x0
    have h1 : Kept r x0 := fatal_kept hs
    try clear_value x0
    exact h1.same

theorem phaseFault_kept {r : State} {p : Nat} {s} (hs : Kept r s) : Kept r (phaseFault p s) := by
  unfold phaseFault
  refine ite_kept hs ?_
  · extract_lets -merge -underBinder +onlyGivenNames y0 x1
    have h2 : Kept r x1 := record_kept (shedPhase_kept hs)
    try clear_value x1
    extract_lets -merge -underBinder +onlyGivenNames x3
    have h4 : Kept r x3 := writeLog_kept h2
    try clear_value x3
    extract_lets -merge -underBinder +onlyGivenNames x5
    have h6 : Kept r x5 := setDomain_kept h4
    try clear_value x5
    exact ite_kept (fatal_kept h6) (checkSpares_kept h6)

theorem scrubFinding_kept {r : State} {x} {s} (hs : Kept r s) : Kept r (scrubFinding x s) := by
  unfold scrubFinding
  extract_lets -merge -underBinder +onlyGivenNames y0 x1
  have h2 : Kept r x1 := modChannel_kept hs
  try clear_value x1
  extract_lets -merge -underBinder +onlyGivenNames x3
  have h4 : Kept r x3 := ite_kept (writeLog_kept (retireFrame_kept h2)) h2
  try clear_value x3
  refine ite_kept ?_ h4
  · extract_lets -merge -underBinder +onlyGivenNames y5
    exact forEach_kept (fun a s h6 => imageError_kept h6) (forEach_kept (fun a s h7 => packageError_kept h7) (retireFrame_kept h4))

theorem blockError_kept {r : State} {n : Nat} {e} {consumed} {s} (hs : Kept r s) : Kept r (blockError n e consumed s) := by
  unfold blockError
  refine ite_kept hs ?_
  · refine ite_kept ?_ (packageError_kept (ite_kept (voidFor_kept (faultLookups_kept hs)) hs))
    · extract_lets -merge -underBinder +onlyGivenNames x0
      have h1 : Kept r x0.2 := takeFree_kept hs
      try clear_value x0
      extract_lets -merge -underBinder +onlyGivenNames y2 x3
      have h4 : Kept r x3 := h1
      exact h4.same

theorem scrub_kept {r : State} {l} {s} (hs : Kept r s) : Kept r (scrub l s) := by
  unfold scrub
  extract_lets -merge -underBinder +onlyGivenNames x0
  have h1 : Kept r x0 := forEach_kept (fun a s h2 => scrubFinding_kept h2) hs
  try clear_value x0
  refine forEach_kept ?_ h1
  · intro a s h3
    extract_lets -merge -underBinder +onlyGivenNames y4 y5
    exact ite_kept h3 (modChannel_kept h3)

theorem escalateDomain_kept {r : State} {d} {unit : Nat} {s} (hs : Kept r s) : Kept r (escalateDomain d unit s) := by
  unfold escalateDomain
  split
  · exact hs
  · exact ite_kept hs (ite_kept (orderEscalation_kept hs) (checkSpares_kept (unitFault_kept hs)))

theorem groupError_kept {r : State} {g : Nat} {consumed} {s} (hs : Kept r s) : Kept r (groupError g consumed s) := by
  unfold groupError
  extract_lets -merge -underBinder +onlyGivenNames y0
  refine ite_kept hs ?_
  · extract_lets -merge -underBinder +onlyGivenNames x1
    have h2 : Kept r x1.2 := takeFree_kept hs
    try clear_value x1
    extract_lets -merge -underBinder +onlyGivenNames y3 x4 x6
    have h5 : Kept r x4 := h2
    have h7 : Kept r x6 := h5.same
    try clear_value x6
    extract_lets -merge -underBinder +onlyGivenNames x8
    have h9 : Kept r x8 := ite_kept (stepFault_kept h7) (unitFault_kept h7)
    try clear_value x8
    exact modGroup_kept h9

theorem timingFault_kept {r : State} {d} {unit : Nat} {slot : Nat} {s} (hs : Kept r s) : Kept r (timingFault d unit slot s) := by
  unfold timingFault
  exact stepFault_kept (blockStart_kept hs.same)

theorem controlFault_kept {r : State} {d} {unit : Nat} {slot : Nat} {command} {s} (hs : Kept r s) : Kept r (controlFault d unit slot command s) := by
  unfold controlFault
  extract_lets -merge -underBinder +onlyGivenNames y0
  exact stepFault_kept (blockStart_kept hs.same)

theorem loseChannel_kept {r : State} {tier : Nat} {c : Nat} {cause : Nat} {s} (hs : Kept r s) : Kept r (loseChannel tier c cause s) := by
  unfold loseChannel
  refine ite_kept hs ?_
  · extract_lets -merge -underBinder +onlyGivenNames x0
    have h1 : Kept r x0 := unitFault_kept hs
    try clear_value x0
    exact ite_kept h1 (modChannel_kept h1)

theorem haltCore_kept {r : State} {c : Nat} {cause : Nat} {s} (hs : Kept r s) : Kept r (haltCore c cause s) := by
  unfold haltCore
  extract_lets -merge -underBinder +onlyGivenNames y0
  refine ite_kept hs ?_
  · refine ite_kept (fatal_kept hs) ?_
    · extract_lets -merge -underBinder +onlyGivenNames x1
      have h2 : Kept r x1 := unitFault_kept hs
      try clear_value x1
      exact checkSpares_kept (ite_kept (setCore_kept h2) h2)

theorem restartCore_kept {r : State} {c : Nat} {passed} {s} (hs : Kept r s) : Kept r (restartCore c passed s) := by
  unfold restartCore
  exact ite_kept hs (ite_kept (dropDomain_kept (setCore_kept hs)) (haltCore_kept hs))

theorem wear_kept {r : State} {d} {unit : Nat} {s} (hs : Kept r s) : Kept r (wear d unit s) := by
  unfold wear
  extract_lets -merge -underBinder +onlyGivenNames y0
  exact ite_kept (orderEscalation_kept (noteFault_kept hs)) (ite_kept (loseChannel_kept hs) (ite_kept (phaseFault_kept hs) (ite_kept (haltCore_kept hs) (unitFault_kept hs))))

theorem dataError_kept {r : State} {target} {err} {consumed} {s} (hs : Kept r s) : Kept r (dataError target err consumed s) := by
  unfold dataError
  split
  · exact blockError_kept hs
  · exact groupError_kept hs
  · exact recurrentError_kept hs
  · exact imageError_kept (countErr_kept hs)
  · exact historyError_kept hs
  · exact journalError_kept hs
  · exact atomicError_kept hs

theorem settleAlert_kept {r : State} {s} (hs : Kept r s) : Kept r (settleAlert s) := by
  unfold settleAlert
  exact hs.same

theorem wipeStores_lived (s : State) : Lived s (wipeStores s) := by
  unfold wipeStores
  exact ⟨rfl, id, fun f => ⟨⟨rfl, rfl, f.1.2.2⟩, f.2⟩⟩

theorem trainLink_kept {r : State} {w : Nat} {a2 : Nat} {cache} {s} (hs : Kept r s) : Kept r (trainLink w a2 cache s) := by
  unfold trainLink
  exact ite_kept hs hs.same

theorem freshKeys_kept {r : State} {s} (hs : Kept r s) : Kept r (freshKeys s) := by
  unfold freshKeys
  extract_lets -merge -underBinder +onlyGivenNames y0
  exact hs.same

theorem serveTiles_kept {r : State} {q : Nat} {pa} {s} (hs : Kept r s) : Kept r (serveTiles q pa s) := by
  unfold serveTiles
  extract_lets -merge -underBinder +onlyGivenNames y0 y1 y2
  exact forEach_kept (fun a s h3 => setTile_kept h3) hs

theorem finishFlr_kept {r : State} {t : Nat} {s} (hs : Kept r s) : Kept r (finishFlr t s) := by
  unfold finishFlr
  extract_lets -merge -underBinder +onlyGivenNames y0
  exact ite_kept (modTenant_kept hs) hs

theorem applyHealth_kept {r : State} {e} {s} (hs : Kept r s) : Kept r (applyHealth e s) := by
  unfold applyHealth
  split
  · exact ite_kept (setNbu_kept hs) (ite_kept (setTile_kept hs) (ite_kept (setTile_kept hs) (ite_kept hs.same (ite_kept hs.same (ite_kept (modChannel_kept hs) (ite_kept (shedPhase_kept hs) hs))))))
  · extract_lets -merge -underBinder +onlyGivenNames y3
    exact ite_kept hs.same hs.same
  · exact hs.same

theorem resetTenantBlock_kept {r : State} {t : Nat} {s} (hs : Kept r s) : Kept r (resetTenantBlock t s) := by
  unfold resetTenantBlock
  extract_lets -merge -underBinder +onlyGivenNames y0
  exact modTenant_kept hs.same

theorem wipeEvacuated_lived (s : State) : Lived s (wipeEvacuated s) := by
  unfold wipeEvacuated
  split
  · extract_lets -merge -underBinder +onlyGivenNames x0
    have h1 : Lived s x0 := (wipeStores_lived s).kept (freshKeys_kept (Kept.refl _))
    try clear_value x0
    exact h1.kept (Kept.refl x0).same
  · exact Lived.refl s

theorem serveGroup_kept {r : State} {q : Nat} {l : Nat} {g : Nat} {s} (hs : Kept r s) : Kept r (serveGroup q l g s) := by
  unfold serveGroup
  split
  · exact ite_kept (setNbu_kept (setNbu_kept hs)) hs
  · exact hs

theorem applyRepair_kept {r : State} {a1} {s} (hs : Kept r s) : Kept r (applyRepair a1 s) := by
  unfold applyRepair
  extract_lets -merge -underBinder +onlyGivenNames y0
  exact ite_kept hs.same (record_kept hs)

theorem rebuildMap_kept {r : State} {s} (hs : Kept r s) : Kept r (rebuildMap s) := by
  unfold rebuildMap
  extract_lets -merge -underBinder +onlyGivenNames y0 x1
  have h2 : Kept r x1 := forEach_kept (fun a s h3 => applyHealth_kept h3) hs.same
  try clear_value x1
  extract_lets -merge -underBinder +onlyGivenNames x4
  have h5 : Kept r x4 := forEach_kept (fun a s h6 => serveGroup_kept h6) h2
  try clear_value x4
  exact forEach_kept (fun a s h7 => checkPrompt_kept (serveTiles_kept (serveTiles_kept h7))) h5

theorem trainChannels_kept {r : State} {s} (hs : Kept r s) : Kept r (trainChannels s) := by
  unfold trainChannels
  refine forEach_kept ?_ hs
  · intro a s h0
    extract_lets -merge -underBinder +onlyGivenNames y1 y2
    exact ite_kept h0 (trainChannel_kept h0)

theorem applyStaged_kept {r : State} {s} (hs : Kept r s) : Kept r (applyStaged s) := by
  unfold applyStaged
  extract_lets -merge -underBinder +onlyGivenNames y0
  exact forEach_kept (fun a s h1 => applyRepair_kept h1) hs.same

theorem modSpdm_kept {r : State} {fn : Nat} {f} {s} (hs : Kept r s) : Kept r (modSpdm fn f s) := by
  unfold modSpdm
  exact hs.same

theorem whenAttesting_kept {r : State} {f : State → State} {s} (hf : ∀ s, Kept r s → Kept r (f s)) (hs : Kept r s) : Kept r (whenAttesting f s) := by
  unfold whenAttesting
  exact ite_kept (hf _ hs) hs

theorem modStream_kept {r : State} {n : Nat} {f} {s} (hs : Kept r s) : Kept r (modStream n f s) := by
  unfold modStream
  exact hs.same

theorem finishSession_kept {r : State} {fn : Nat} {n : Nat} {ok} {s} (hs : Kept r s) : Kept r (finishSession fn n ok s) := by
  unfold finishSession
  extract_lets -merge -underBinder +onlyGivenNames y0 y1
  exact ite_kept (reply_kept hs) (ite_kept (reply_kept (modSpdm_kept hs)) (reply_kept (modSpdm_kept hs)))

theorem manageKeys_kept {r : State} {n : Nat} {op : Nat} {s} (hs : Kept r s) : Kept r (manageKeys n op s) := by
  unfold manageKeys
  extract_lets -merge -underBinder +onlyGivenNames y0
  exact ite_kept (reply_kept (modStream_kept hs)) (ite_kept hs (ite_kept (reply_kept (modStream_kept hs)) (ite_kept (reply_kept (modStream_kept hs)) (reply_kept (modStream_kept hs)))))

theorem discover_kept {r : State} {index : Nat} {s} (hs : Kept r s) : Kept r (discover index s) := by
  unfold discover
  exact ite_kept (reply_kept hs) (reply_kept hs)

theorem inSession_kept {r : State} {fn : Nat} {n : Nat} {f : State → State} {s} (hf : ∀ s, Kept r s → Kept r (f s)) (hs : Kept r s) : Kept r (inSession fn n f s) := by
  unfold inSession
  exact ite_kept (hf _ hs) (reply_kept hs)

theorem after_kept {r : State} {ready} {f : State → State} {s} (hf : ∀ s, Kept r s → Kept r (f s)) (hs : Kept r s) : Kept r (after ready f s) := by
  unfold after
  exact ite_kept (hf _ hs) (reply_kept hs)

theorem signResponse_kept {r : State} {fn : Nat} {kind : Nat} {s} (hs : Kept r s) : Kept r (signResponse fn kind s) := by
  unfold signResponse
  extract_lets -merge -underBinder +onlyGivenNames x0
  have h1 : Kept r x0.2 := takeFree_kept hs
  try clear_value x0
  extract_lets -merge -underBinder +onlyGivenNames y2
  exact modSpdm_kept (reply_kept h1)

theorem certificate_kept {r : State} {slot : Nat} {offset : Nat} {length : Nat} {s} (hs : Kept r s) : Kept r (certificate slot offset length s) := by
  unfold certificate
  exact ite_kept (reply_kept hs) (reply_kept hs)

theorem updateKeys_kept {r : State} {fn : Nat} {n : Nat} {op : Nat} {s} (hs : Kept r s) : Kept r (updateKeys fn n op s) := by
  unfold updateKeys
  exact ite_kept (reply_kept hs) (reply_kept (modSpdm_kept hs))

theorem pqSignature_kept {r : State} {fn : Nat} {s} (hs : Kept r s) : Kept r (pqSignature fn s) := by
  unfold pqSignature
  split
  · exact reply_kept hs
  · exact reply_kept hs

theorem beginSession_kept {r : State} {fn : Nat} {certSlot : Nat} {s} (hs : Kept r s) : Kept r (beginSession fn certSlot s) := by
  unfold beginSession
  exact ite_kept (signResponse_kept (modSpdm_kept hs)) (reply_kept hs)

theorem takeKm_kept {r : State} {n : Nat} {secured} {op : Nat} {s} (hs : Kept r s) : Kept r (takeKm n secured op s) := by
  unfold takeKm
  exact ite_kept (manageKeys_kept hs) hs

theorem negotiated_kept {r : State} {fn : Nat} {f : State → State} {s} (hf : ∀ s, Kept r s → Kept r (f s)) (hs : Kept r s) : Kept r (negotiated fn f s) := by
  unfold negotiated
  exact after_kept (fun s h0 => hf _ h0) hs

theorem measurements_kept {r : State} {fn : Nat} {index : Nat} {signed} {s} (hs : Kept r s) : Kept r (measurements fn index signed s) := by
  unfold measurements
  extract_lets -merge -underBinder +onlyGivenNames y0
  clear_value y0
  split
  · exact reply_kept hs
  · extract_lets -merge -underBinder +onlyGivenNames x3
    have h4 : Kept r x3 := reply_kept hs
    try clear_value x3
    exact ite_kept (signResponse_kept h4) h4

theorem writeBank_kept {r : State} {b x s} (hs : Kept r s) : Kept r (writeBank b x s) := by
  unfold writeBank
  split
  · exact hs.same
  · exact hs.same

theorem endCommand_kept {r : State} {reason : Nat} {s} (hs : Kept r s) : Kept r (endCommand reason s) := by
  unfold endCommand
  extract_lets -merge -underBinder +onlyGivenNames x0
  have h1 : Kept r x0.2 := takeFree_kept hs
  try clear_value x0
  refine reply_kept ?_
  · extract_lets -merge -underBinder +onlyGivenNames x2
    have h3 : Kept r x2 := h1
    exact h3.same

theorem failCommand_kept {r : State} {l} {noName} {s} (hs : Kept r s) : Kept r (failCommand l noName s) := by
  unfold failCommand
  extract_lets -merge -underBinder +onlyGivenNames x0
  have h1 : Kept r x0.2 := takeFree_kept hs
  try clear_value x0
  exact ite_kept (endCommand_kept h1) (endCommand_kept h1)

theorem runCommand_kept {r : State} {c} {fails} {update} {f : State → State} {s} (hf : ∀ s, Kept r s → Kept r (f s)) (hs : Kept r s) : Kept r (runCommand c fails update f s) := by
  unfold runCommand
  exact ite_kept (failCommand_kept hs) (hf _ (endCommand_kept hs))

theorem updateFirmware_kept {r : State} {c} {x} {s} (hs : Kept r s) : Kept r (updateFirmware c x s) := by
  unfold updateFirmware
  extract_lets -merge -underBinder +onlyGivenNames y0 y1
  refine ite_kept (failCommand_kept hs) ?_
  · extract_lets -merge -underBinder +onlyGivenNames x2
    have h3 : Kept r x2 := writeBank_kept hs
    try clear_value x2
    exact ite_kept (endCommand_kept h3.same) (endCommand_kept h3)

theorem enroll_kept {r : State} {c} {s} (hs : Kept r s) : Kept r (enroll c s) := by
  unfold enroll
  exact runCommand_kept (fun s h0 => h0.same) hs

theorem revoke_kept {r : State} {c} {s} (hs : Kept r s) : Kept r (revoke c s) := by
  unfold revoke
  exact runCommand_kept (fun s h0 => h0.same) hs

theorem captureTime_kept {r : State} {bits} {s} (hs : Kept r s) : Kept r (captureTime bits s) := by
  unfold captureTime
  extract_lets -merge -underBinder +onlyGivenNames y0
  exact hs.same

theorem markUnit_kept {r : State} {u : Nat} {s} (hs : Kept r s) : Kept r (markUnit u s) := by
  unfold markUnit
  exact hs.same

theorem setRaData_kept {r : State} {o : Nat} {v : Nat} {s} (hs : Kept r s) : Kept r (setRaData o v s) := by
  unfold setRaData
  extract_lets -merge -underBinder +onlyGivenNames y0 y1
  exact hs.same

theorem sluiceCmd_kept {r : State} {v : Nat} {block : Nat} {s} (hs : Kept r s) : Kept r (sluiceCmd v block s) := by
  unfold sluiceCmd
  exact ite_kept (queueSluice_kept hs) (ite_kept (queueSluice_kept hs) (ite_kept (queueSluice_kept hs) hs))

theorem captureTenant_kept {r : State} {t : Nat} {bits} {s} (hs : Kept r s) : Kept r (captureTenant t bits s) := by
  unfold captureTenant
  extract_lets -merge -underBinder +onlyGivenNames y0
  exact modTenant_kept hs

theorem requestRemoval_kept {r : State} {s} (hs : Kept r s) : Kept r (requestRemoval s) := by
  unfold requestRemoval
  exact ite_kept (refuseWrite_kept hs) hs.same

theorem changeMsix_kept {r : State} {t : Nat} {c} {s} (hs : Kept r s) : Kept r (changeMsix t c s) := by
  unfold changeMsix
  split
  · exact sendOwed_kept (modTenant_kept hs)
  · extract_lets -merge -underBinder +onlyGivenNames y6
    exact ite_kept (refuseWrite_kept hs) (sendOwed_kept (modVector_kept hs))

theorem applyTenant_kept {r : State} {path} {a : Nat} {lsb : Nat} {v : Nat} {s} (hs : Kept r s) : Kept r (applyTenant path a lsb v s) := by
  unfold applyTenant
  extract_lets -merge -underBinder +onlyGivenNames y0 y1
  refine ite_kept (ite_kept (modTenant_kept hs) hs) ?_
  · refine ite_kept (captureTenant_kept hs) ?_
    · refine ite_kept (ite_kept (enableQp_kept hs) (disableQp_kept hs)) ?_
      · refine ite_kept ?_ (ite_kept (sendOwed_kept (modVector_kept hs)) (setReg_kept hs))
        · extract_lets -merge -underBinder +onlyGivenNames y2 x3
          have h4 : Kept r x3 := setReg_kept hs
          try clear_value x3
          exact ite_kept (fireVector_kept h4) h4

theorem applyJunction_kept {r : State} {a : Nat} {lsb : Nat} {v : Nat} {s} (hs : Kept r s) : Kept r (applyJunction a lsb v s) := by
  unfold applyJunction
  extract_lets -merge -underBinder +onlyGivenNames y0
  exact ite_kept (ite_kept (becomeManager_kept hs) (leaveManager_kept hs)) (ite_kept (ite_kept (goRa_kept hs) hs) (ite_kept (setRaData_kept hs) (setReg_kept hs)))

theorem whenRepairable_kept {r : State} {f : State → State} {s} (hf : ∀ s, Kept r s → Kept r (f s)) (hs : Kept r s) : Kept r (whenRepairable f s) := by
  unfold whenRepairable
  exact ite_kept hs (hf _ hs)

theorem pressSpare_kept {r : State} {s} (hs : Kept r s) : Kept r (pressSpare s) := by
  unfold pressSpare
  extract_lets -merge -underBinder +onlyGivenNames y0
  exact hs.same

theorem closeLatch_kept {r : State} {s} (hs : Kept r s) : Kept r (closeLatch s) := by
  unfold closeLatch
  exact ite_kept (settleAlert_kept hs.same) hs

theorem openLatch_kept {r : State} {s} (hs : Kept r s) : Kept r (openLatch s) := by
  unfold openLatch
  exact ite_kept hs (settleAlert_kept hs.same)

theorem answerWord_kept {r : State} {w : Nat} {s} (hs : Kept r s) : Kept r (answerWord w s) := by
  unfold answerWord
  exact reply_kept hs

theorem readSpares_kept {r : State} {q : Nat} {l : Nat} {b : Nat} {s} (hs : Kept r s) : Kept r (readSpares q l b s) := by
  unfold readSpares
  extract_lets -merge -underBinder +onlyGivenNames y0 y1 y2
  exact reply_kept hs

theorem readFuses_kept {r : State} {q : Nat} {s} (hs : Kept r s) : Kept r (readFuses q s) := by
  unfold readFuses
  exact reply_kept hs

theorem readPower_kept {r : State} {command : Nat} {s} (hs : Kept r s) : Kept r (readPower command s) := by
  unfold readPower
  exact ite_kept (answerWord_kept hs) (reply_kept hs)

theorem bmcLimit_kept {r : State} {value} {s} (hs : Kept r s) : Kept r (bmcLimit value s) := by
  unfold bmcLimit
  split
  · exact answerWord_kept hs
  · exact hs.same

theorem readIndirect_kept {r : State} {s} (hs : Kept r s) : Kept r (readIndirect s) := by
  unfold readIndirect
  extract_lets -merge -underBinder +onlyGivenNames x0
  have h1 : Kept r x0.2 := takeFree_kept hs
  try clear_value x0
  split
  · exact answerWord_kept h1
  · exact answerWord_kept h1

theorem indirectAddress_kept {r : State} {value} {s} (hs : Kept r s) : Kept r (indirectAddress value s) := by
  unfold indirectAddress
  split
  · exact answerWord_kept hs
  · exact hs.same

theorem indicators_kept {r : State} {value} {s} (hs : Kept r s) : Kept r (indicators value s) := by
  unfold indicators
  split
  · exact answerWord_kept hs
  · extract_lets -merge -underBinder +onlyGivenNames x2
    have h3 : Kept r x2 := setReg_kept hs
    try clear_value x2
    exact ite_kept h3 (setReg_kept h3)

theorem pressWorker_kept {r : State} {s} (hs : Kept r s) : Kept r (pressWorker s) := by
  unfold pressWorker
  extract_lets -merge -underBinder +onlyGivenNames y0
  exact ite_kept (evacMessage_kept hs.same) (evacMessage_kept (endEvac_kept hs))

theorem press_kept {r : State} {s} (hs : Kept r s) : Kept r (press s) := by
  unfold press
  split
  · exact pressWorker_kept hs
  · exact pressSpare_kept hs
  · exact hs.same
  · exact hs.same

theorem closeButton_kept {r : State} {ms : Nat} {s} (hs : Kept r s) : Kept r (closeButton ms s) := by
  unfold closeButton
  exact ite_kept hs (ite_kept hs.same (press_kept hs))

theorem settleWaiting_kept {r : State} {n : Nat} {s} (hs : Kept r s) : Kept r (settleWaiting n s) := by
  unfold settleWaiting
  exact ite_kept hs.same hs

theorem hashDone_kept {r : State} {i : Nat} {page : Nat} {s} (hs : Kept r s) : Kept r (hashDone i page s) := by
  unfold hashDone
  extract_lets -merge -underBinder +onlyGivenNames y0 y1
  exact ite_kept hs (modCtx_kept hs)

theorem lookupDone_kept {r : State} {i : Nat} {s} (hs : Kept r s) : Kept r (lookupDone i s) := by
  unfold lookupDone
  extract_lets -merge -underBinder +onlyGivenNames y0
  refine ite_kept hs ?_
  · extract_lets -merge -underBinder +onlyGivenNames y1 x2
    have h3 : Kept r x2 := modCtx_kept hs
    try clear_value x2
    split
    · exact drainSeq_kept h3
    · extract_lets -merge -underBinder +onlyGivenNames y6 y7 y8 x9
      have h10 : Kept r x9 := by
        unfold x9
        refine forEach_kept ?_ h3
        · intro a s h11
          extract_lets -merge -underBinder +onlyGivenNames x12
          have h13 : Kept r x12 := nextUse_kept h11
          try clear_value x12
          exact h13.same
      try clear_value x9
      exact modCtx_kept h10

theorem snoopGroup_kept {r : State} {g : Nat} {fromImage} {s} (hs : Kept r s) : Kept r (snoopGroup g fromImage s) := by
  unfold snoopGroup
  exact snoopRows_kept hs

theorem diversionDone_kept {r : State} {q : Nat} {l : Nat} {quad : Nat} {s} (hs : Kept r s) : Kept r (diversionDone q l quad s) := by
  unfold diversionDone
  extract_lets -merge -underBinder +onlyGivenNames y0
  exact forEach_kept (fun a s h1 => moveBlock_kept h1) (copyQuad_kept hs)

theorem migrate_kept {r : State} {t} {g : Nat} {f : State → State} {s} (hf : ∀ s, Kept r s → Kept r (f s)) (hs : Kept r s) : Kept r (migrate t g f s) := by
  unfold migrate
  extract_lets -merge -underBinder +onlyGivenNames x0
  have h1 : Kept r x0.2 := govern_kept hs
  try clear_value x0
  exact ite_kept (hf _ h1) h1

theorem spillDone_kept {r : State} {g : Nat} {s} (hs : Kept r s) : Kept r (spillDone g s) := by
  unfold spillDone
  exact ite_kept (migrate_kept (fun s h0 => finishSpill_kept (snoopGroup_kept h0)) hs) hs

theorem tailCopyDone_kept {r : State} {i : Nat} {s} (hs : Kept r s) : Kept r (tailCopyDone i s) := by
  unfold tailCopyDone
  split
  · exact hs
  · exact ite_kept hs (migrate_kept (fun s h2 => finishCopy_kept (snoopGroup_kept h2)) hs)

theorem prefetchDone_kept {r : State} {g : Nat} {ok} {s} (hs : Kept r s) : Kept r (prefetchDone g ok s) := by
  unfold prefetchDone
  exact ite_kept hs (ite_kept (migrate_kept (fun s h0 => finishPrefetch_kept (snoopGroup_kept h0)) hs) (imageError_kept hs))

theorem refetchDone_kept {r : State} {n : Nat} {ok} {s} (hs : Kept r s) : Kept r (refetchDone n ok s) := by
  unfold refetchDone
  exact ite_kept (settleWaiting_kept (ite_kept (refetchOk_kept (snoopBlock_kept hs)) (refetchFailed_kept hs))) hs

theorem demotionDone_kept {r : State} {n : Nat} {err} {s} (hs : Kept r s) : Kept r (demotionDone n err s) := by
  unfold demotionDone
  refine ite_kept hs ?_
  · split
    · exact packageError_kept hs
    · extract_lets -merge -underBinder +onlyGivenNames y2 x3
      have h4 : Kept r x3 := dropTransfers_kept hs.same
      try clear_value x3
      exact writeImage_kept (modBlock_kept (snoopBlock_kept h4))

theorem promotionDone_kept {r : State} {n : Nat} {err} {s} (hs : Kept r s) : Kept r (promotionDone n err s) := by
  unfold promotionDone
  refine ite_kept hs ?_
  · split
    · exact packageError_kept hs
    · extract_lets -merge -underBinder +onlyGivenNames y2 x3
      have h4 : Kept r x3 := dropTransfers_kept hs.same
      try clear_value x3
      exact modBlock_kept (snoopBlock_kept h4)

end Sys2Proof.Laws
end

