-- ==== Sys2Proof/Laws/KeptReset.lean ====
section
/-! SUPPORT. What resets and register writes keep: the queue, the life cycle, the fuses, and a well-formed state.
`Lasting s t` says so; it is what is left of `Kept` where a reset clears the rest. -/

set_option Elab.async false

namespace Sys2Proof.Laws

open Sys2Proof.Machine

/-- What no reset changes: the queue and what is fused. -/
def fuseOf (s : State) : List Instr × LifeCycle × Nat × Nat × Bool × FMap Nat :=
  (s.pending, s.security.state, s.security.count, s.security.minSvn, s.security.gradeS, s.security.fusedPos)

/-- Nothing of `fuseOf` changed, and a well-formed state stays well formed. -/
def Lasting (s t : State) : Prop := fuseOf t = fuseOf s ∧ (Formed s → Formed t)

theorem Lasting.refl (s : State) : Lasting s s := ⟨rfl, id⟩

theorem Lasting.trans {r s t : State} (h : Lasting r s) (k : Lasting s t) : Lasting r t :=
  ⟨k.1.trans h.1, fun f => k.2 (h.2 f)⟩

theorem Kept.lasting {s t : State} (h : Kept s t) : Lasting s t := by
  refine ⟨?_, h.2.2⟩
  have e := h.lived.1
  unfold lifeOf at e
  unfold fuseOf
  simp only [Prod.mk.injEq] at e ⊢
  tauto

theorem Lived.lasting {s t : State} (h : Lived s t) : Lasting s t := by
  refine ⟨?_, h.2.2⟩
  have e := h.1
  unfold lifeOf at e
  unfold fuseOf
  simp only [Prod.mk.injEq] at e ⊢
  tauto

/-- An operation that `Kept` covers, after one that `Lasting` covers. -/
theorem Lasting.kept {r s t : State} (h : Lasting r s) (k : Kept s t) : Lasting r t := h.trans k.lasting

theorem ite_lasting {r s t : State} {c : Prop} [Decidable c] (h : Lasting r s) (k : Lasting r t) :
    Lasting r (if c then s else t) := by
  split <;> assumption

theorem forEach_lasting {α : Type} {r s : State} {l : List α} {f : α → State → State}
    (hf : ∀ a s, Lasting r s → Lasting r (f a s)) (h : Lasting r s) : Lasting r (forEach l f s) := by
  unfold forEach
  induction l generalizing s with
  | nil => exact h
  | cons a l ih => exact ih (hf a s h)

/-! ## Cold reset and boot -/

theorem coldState_lasting {r s : State} (h : Lasting r s) : Lasting r (coldState s) := by
  unfold coldState
  dsimp only
  refine Lasting.kept ?_ (settleAlert_kept (freshKeys_kept (Kept.refl _)))
  exact h.trans ⟨rfl, fun f => ⟨⟨rfl, rfl, f.1.2.2⟩, Nat.two_pow_pos 112, Nat.zero_lt_succ 5⟩⟩

theorem applyStaged_lasting {r s : State} (h : Lasting r s) : Lasting r (applyStaged s) :=
  h.kept (applyStaged_kept (Kept.refl _))

/-- Fields that `Lasting` is not about. -/
theorem Lasting.same {r s t : State} (h : Lasting r s) (e1 : fuseOf t = fuseOf s := by unfold fuseOf; rfl)
    (e3 : t.mem = s.mem := by rfl) (e4 : t.bank = s.bank := by rfl) (e5 : t.host.mem = s.host.mem := by rfl)
    (e6 : t.clock.count = s.clock.count := by rfl) (e7 : t.clock.phase = s.clock.phase := by rfl) : Lasting r t := by
  refine h.trans ⟨e1, fun f => ?_⟩
  obtain ⟨⟨a, b, c⟩, d, e⟩ := f
  exact ⟨⟨e3 ▸ a, e4 ▸ b, e5 ▸ c⟩, e6 ▸ d, e7 ▸ e⟩

theorem startBoot_lasting {r s : State} (h : Lasting r s) : Lasting r (startBoot s) := by
  have h0 : Lasting r (takeFree { s with clock := freshClock, stamp := 0 }).2 :=
    h.trans ⟨rfl, fun f => ⟨f.1, Nat.two_pow_pos 112, Nat.zero_lt_succ 5⟩⟩
  unfold startBoot
  extract_lets -merge -underBinder +onlyGivenNames n c y s'
  have h1 : Lasting r s' := h0.same
  clear_value s'
  split
  · exact h1.same
  · exact applyStaged_lasting h1.same

theorem coldReset_lasting {r s : State} {cause : ColdCause} (h : Lasting r s) : Lasting r (coldReset cause s) := by
  unfold coldReset
  split
  · exact coldState_lasting h
  · exact startBoot_lasting (coldState_lasting h)

theorem requestCold_lasting {r s : State} {cause : ColdCause} (h : Lasting r s) : Lasting r (requestCold cause s) := by
  unfold requestCold
  split
  · exact h
  · exact coldReset_lasting h

theorem deassertPerst_lasting {r s : State} (h : Lasting r s) : Lasting r (deassertPerst s) := by
  unfold deassertPerst
  split
  · exact startBoot_lasting h
  · exact h

theorem powerUp_lasting {r s : State} {b : Bool} (h : Lasting r s) : Lasting r (powerUp b s) := by
  have h1 := coldState_lasting h
  unfold powerUp
  extract_lets -merge -underBinder +onlyGivenNames s1 y s2 s3
  change Lasting r s1 at h1
  clear_value s1
  have h2 : Lasting r s2 := h1.same
  clear_value s2
  have h3 : Lasting r s3 := h2.kept (settleAlert_kept (Kept.refl _))
  clear_value s3
  split
  · exact h3
  · exact startBoot_lasting h3

theorem losePower_lasting {r s : State} (h : Lasting r s) : Lasting r (losePower s) := by
  have h1 := coldState_lasting h
  unfold losePower
  extract_lets s1
  change Lasting r s1 at h1
  clear_value s1
  exact Lasting.kept h1.same (settleAlert_kept (Kept.refl _))

theorem completeTraining_lasting {r s : State} {w k : Nat} {b : Bool} (h : Lasting r s) :
    Lasting r (completeTraining w k b s) := by
  unfold completeTraining
  extract_lets s1
  have h1 : Lasting r s1 := h.kept (trainLink_kept (Kept.refl _))
  clear_value s1
  split
  · exact Lasting.kept h1.same (settleAlert_kept (checkSpares_kept (trainChannels_kept (rebuildMap_kept (Kept.refl _)))))
  · exact h1

theorem finishWipe_lasting {r s : State} (h : Lasting r s) : Lasting r (finishWipe s) := by
  unfold finishWipe
  split
  · exact Lasting.kept h.same (takeSnapshot_kept (Kept.refl _))
  · exact h

/-! ## Warm and function-level reset -/

theorem resetBlocks_lasting {r s : State} (h : Lasting r s) : Lasting r (resetBlocks s) := by
  unfold resetBlocks
  refine Lasting.kept (h.trans ?_) (freshKeys_kept (Kept.refl _))
  exact (Lasting.refl s).same.trans (wipeStores_lived _).lasting

theorem warmReset_lasting {r s : State} {hot : Bool} (h : Lasting r s) : Lasting r (warmReset hot s) := by
  unfold warmReset
  extract_lets c old s1 k
  have h1 : Lasting r s1 := resetBlocks_lasting h
  clear_value s1
  exact Lasting.kept h1.same (settleAlert_kept (Kept.refl _))

theorem requestWarm_lasting {r s : State} {hot : Bool} (h : Lasting r s) : Lasting r (requestWarm hot s) := by
  unfold requestWarm
  split
  · exact warmReset_lasting h
  · exact h

theorem resetFunction_lasting {r s : State} {t : Nat} (h : Lasting r s) : Lasting r (resetFunction t s) := by
  unfold resetFunction
  split
  · exact requestWarm_lasting h
  · split
    · exact h
    · exact h.kept (resetTenantBlock_kept (Kept.refl _))

/-! ## Register writes -/

theorem applyTenant_lasting {r s : State} {path : RegPath} {a lsb v : Nat} (h : Lasting r s) :
    Lasting r (applyTenant path a lsb v s) := h.kept (applyTenant_kept (Kept.refl _))

theorem applyGlobal_lasting {r s : State} {lsb v : Nat} (h : Lasting r s) : Lasting r (applyGlobal lsb v s) := by
  unfold applyGlobal
  split
  · exact h
  · split
    · exact requestCold_lasting h
    · split
      · exact requestWarm_lasting h
      · split
        · exact h.kept (requestRemoval_kept (Kept.refl _))
        · exact h.kept (releaseDump_kept (Kept.refl _))

theorem setSeals_lasting {r s : State} {b : BitVec 6} (h : Lasting r s) : Lasting r (setSeals b s) := h.same

theorem applyField_lasting {r s : State} {path : RegPath} {a lsb v block : Nat} (h : Lasting r s) :
    Lasting r (applyField path a lsb v block s) := by
  unfold applyField
  refine ite_lasting (applyTenant_lasting h) (ite_lasting (applyGlobal_lasting h) (ite_lasting (setSeals_lasting h)
    (ite_lasting (Lasting.kept h.same (setReg_kept (Kept.refl _))) (ite_lasting (h.kept (setTime_kept (Kept.refl _)))
    (ite_lasting (h.kept (captureTime_kept (Kept.refl _))) (ite_lasting (h.kept (setReg_kept (Kept.refl _)))
    (ite_lasting (ite_lasting h.same h) (ite_lasting ?_ (ite_lasting (h.kept (applyJunction_kept (Kept.refl _)))
    (ite_lasting (h.kept (sluiceCmd_kept (Kept.refl _))) (ite_lasting (h.kept (markUnit_kept (setReg_kept (Kept.refl _))))
    (h.kept (setReg_kept (Kept.refl _))))))))))))))
  exact ite_lasting (ite_lasting (h.kept (retrainPort_kept (Kept.refl _))) h)
    (ite_lasting (Lasting.kept (h.kept (takeFree_kept (Kept.refl _))) (enablePort_kept (Kept.refl _)))
      (h.kept (disablePort_kept (Kept.refl _))))

theorem writeFields_lasting {r s : State} {path : RegPath} {off a size v : Nat} (h : Lasting r s) :
    Lasting r (writeFields path off a size v s) := by
  unfold writeFields
  extract_lets l tested block s1 s2
  have h1 : Lasting r s1 := h.same
  clear_value s1
  have h2 : Lasting r s2 := by
    unfold s2
    split
    · exact h1.kept (refuseWrite_kept (Kept.refl _))
    · exact h1
  exact forEach_lasting (fun x s k => applyField_lasting k) h2

theorem writeRegister_lasting {r s : State} {path : RegPath} {off size v : Nat} (h : Lasting r s) :
    Lasting r (writeRegister path off size v s) := by
  unfold writeRegister
  extract_lets a
  split
  · exact h.kept (refuseWrite_kept (Kept.refl _))
  · split
    · split
      · exact h.same
      · exact h
    · exact writeFields_lasting h

theorem hostWriteRegister_lasting {r s : State} {path : RegPath} {off size v : Nat} (h : Lasting r s) :
    Lasting r (hostWriteRegister path off size v s) := by
  unfold hostWriteRegister
  split
  · exact writeRegister_lasting h
  · exact h

end Sys2Proof.Laws
end

