-- ==== Sys2Proof/Laws/KeptTenant.lean ====
section
/-! SUPPORT. Writes to a tenant block and to the CAPTURE word of the time block reset nothing: what `Kept` says holds of
them. -/

set_option Elab.async false

namespace Sys2Proof.Laws

open Sys2Proof.Machine

theorem forEach_kept_mem {α : Type} {r s : State} {l : List α} {f : α → State → State}
    (hf : ∀ a ∈ l, ∀ s, Kept r s → Kept r (f a s)) (h : Kept r s) : Kept r (forEach l f s) := by
  unfold forEach
  induction l generalizing s with
  | nil => exact h
  | cons a l ih =>
    exact ih (fun b hb => hf b (List.mem_cons_of_mem a hb)) (hf a (List.mem_cons_self ..) s h)

/-- An address whose fields reset nothing: a tenant block, and CAPTURE of the time block. -/
def quietWord (a : Nat) : Prop := inTenant a = true ∨ a = 0x10040

theorem applyField_kept {r s : State} {path : RegPath} {a lsb v block : Nat} (q : quietWord a) (h : Kept r s) :
    Kept r (applyField path a lsb v block s) := by
  unfold applyField
  rcases q with q | q
  · rw [if_pos q]; exact applyTenant_kept h
  · subst q
    exact captureTime_kept h

theorem coverWord_addr {a w : Nat} {c : Covered} (h : c ∈ coverWord a w) : c.addr = a := by
  unfold coverWord at h
  obtain ⟨f, -, rfl⟩ := List.mem_map.mp h
  rfl

theorem coverWide_addr {a v : Nat} {c : Covered} (h : c ∈ coverWide a v) : c.addr = a := by
  unfold coverWide at h
  split at h
  · simp at h; subst h; rfl
  · cases h

theorem coverWrite_addr {s : State} {a v : Nat} {c : Covered} (h : c ∈ coverWrite s a 4 v) :
    c.addr = a ∨ (a % 8 = 4 ∧ c.addr = a - 4 ∧ (wideAt (a - 4)).isSome = true) := by
  unfold coverWrite at h
  rw [if_neg (by decide)] at h
  split at h
  · exact .inr ⟨(‹_ ∧ _›).1, coverWide_addr h, (‹_ ∧ _›).2⟩
  · exact .inl (coverWord_addr h)

theorem quiet_below {a : Nat} (q : quietWord a) (m : a % 8 = 4) : quietWord (a - 4) := by
  rcases q with q | q
  · left
    unfold inTenant at q ⊢
    simp only [Bool.and_eq_true, decide_eq_true_eq] at q ⊢
    omega
  · subst q; exact absurd m (by decide)

theorem writeFields_kept {r s : State} {path : RegPath} {off a v : Nat} (q : quietWord a) (h : Kept r s) :
    Kept r (writeFields path off a 4 v s) := by
  unfold writeFields
  extract_lets l tested block s1 s2
  have h1 : Kept r s1 := h.same
  clear_value s1
  have h2 : Kept r s2 := by
    unfold s2
    split
    · exact refuseWrite_kept h1
    · exact h1
  refine forEach_kept_mem (fun x hx s k => applyField_kept ?_ k) h2
  have hx := (List.mem_filter.mp hx).1
  unfold tested at hx
  obtain ⟨c, hc, rfl⟩ := List.mem_map.mp hx
  rcases coverWrite_addr (List.mem_filter.mp hc).1 with e | ⟨m, e, -⟩
  · exact e ▸ q
  · exact e ▸ quiet_below q m

theorem writeRegister_kept {r s : State} {path : RegPath} {off v : Nat}
    (q : quietWord (match path with | .pf => off | .vf t => tenantBase t + off)) (h : Kept r s) :
    Kept r (writeRegister path off 4 v s) := by
  unfold writeRegister
  extract_lets a
  split
  · exact refuseWrite_kept h
  · split
    · split
      · exact h.same
      · exact h
    · exact writeFields_kept q h

theorem writeTenantWord_kept {r s : State} {path : RegPath} {t o v : Nat} (ht : t < 256) (ho : o < 0x10000) (h : Kept r s) :
    Kept r (writeTenantWord path t o v s) := by
  unfold writeTenantWord
  split
  · refine writeRegister_kept (.inl ?_) h
    have e := ‹pathReaches path t = true›
    unfold inTenant
    simp only [Bool.and_eq_true, decide_eq_true_eq]
    cases path with
    | pf => simp only [pathOffset, tenantBase]; omega
    | vf u =>
      simp only [pathReaches, beq_iff_eq] at e
      subst e
      simp only [pathOffset, tenantBase]
      omega
  · exact h

theorem capture_kept {r s : State} {path : RegPath} {b : Bool} {t : Nat} {bits : BitVec 2} (ht : t < 256) (h : Kept r s) :
    Kept r (capture path b t bits s) := by
  unfold capture
  split
  · split
    · rename_i e; subst e
      exact writeRegister_kept (.inr rfl) h
    · exact h
  · exact writeTenantWord_kept ht (by decide) h

end Sys2Proof.Laws
end

