-- ==== Sys2Proof/Laws/State.lean ====
section
/-! SUPPORT. What the plainest updates of State leave: one lemma for each field an update could touch, so that no proof
unfolds a record update; and the laws of the maps that State is made of. -/

set_option Elab.async false

namespace Sys2Proof.Laws

open Sys2Proof.Machine

variable (s : State)

/-! ## setReg -/

@[simp] theorem setReg_pending (off lsb v : Nat) : (setReg off lsb v s).pending = s.pending := rfl
@[simp] theorem setReg_freeIndex (off lsb v : Nat) : (setReg off lsb v s).freeIndex = s.freeIndex := rfl
@[simp] theorem setReg_regs (off lsb v : Nat) : (setReg off lsb v s).regs = fmSet s.regs (fieldKey off lsb) v := rfl
@[simp] theorem setReg_seals (off lsb v : Nat) : (setReg off lsb v s).seals = s.seals := rfl
@[simp] theorem setReg_stepCounter (off lsb v : Nat) : (setReg off lsb v s).stepCounter = s.stepCounter := rfl
@[simp] theorem setReg_boundary (off lsb v : Nat) : (setReg off lsb v s).boundary = s.boundary := rfl
@[simp] theorem setReg_stamp (off lsb v : Nat) : (setReg off lsb v s).stamp = s.stamp := rfl
@[simp] theorem setReg_clock (off lsb v : Nat) : (setReg off lsb v s).clock = s.clock := rfl
@[simp] theorem setReg_power (off lsb v : Nat) : (setReg off lsb v s).power = s.power := rfl
@[simp] theorem setReg_boot (off lsb v : Nat) : (setReg off lsb v s).boot = s.boot := rfl
@[simp] theorem setReg_security (off lsb v : Nat) : (setReg off lsb v s).security = s.security := rfl
@[simp] theorem setReg_faults (off lsb v : Nat) : (setReg off lsb v s).faults = s.faults := rfl
@[simp] theorem setReg_tenants (off lsb v : Nat) : (setReg off lsb v s).tenants = s.tenants := rfl
@[simp] theorem setReg_qps (off lsb v : Nat) : (setReg off lsb v s).qps = s.qps := rfl
@[simp] theorem setReg_ctxs (off lsb v : Nat) : (setReg off lsb v s).ctxs = s.ctxs := rfl
@[simp] theorem setReg_slots (off lsb v : Nat) : (setReg off lsb v s).slots = s.slots := rfl
@[simp] theorem setReg_adapters (off lsb v : Nat) : (setReg off lsb v s).adapters = s.adapters := rfl
@[simp] theorem setReg_groups (off lsb v : Nat) : (setReg off lsb v s).groups = s.groups := rfl
@[simp] theorem setReg_blocks (off lsb v : Nat) : (setReg off lsb v s).blocks = s.blocks := rfl
@[simp] theorem setReg_sluice (off lsb v : Nat) : (setReg off lsb v s).sluice = s.sluice := rfl
@[simp] theorem setReg_mem (off lsb v : Nat) : (setReg off lsb v s).mem = s.mem := rfl
@[simp] theorem setReg_bank (off lsb v : Nat) : (setReg off lsb v s).bank = s.bank := rfl
@[simp] theorem setReg_poisoned (off lsb v : Nat) : (setReg off lsb v s).poisoned = s.poisoned := rfl
@[simp] theorem setReg_step (off lsb v : Nat) : (setReg off lsb v s).step = s.step := rfl
@[simp] theorem setReg_outbox (off lsb v : Nat) : (setReg off lsb v s).outbox = s.outbox := rfl
@[simp] theorem setReg_ports (off lsb v : Nat) : (setReg off lsb v s).ports = s.ports := rfl
@[simp] theorem setReg_junction (off lsb v : Nat) : (setReg off lsb v s).junction = s.junction := rfl
@[simp] theorem setReg_host (off lsb v : Nat) : (setReg off lsb v s).host = s.host := rfl
@[simp] theorem setReg_out (off lsb v : Nat) : (setReg off lsb v s).out = s.out := rfl

/-! ## modTenant -/

@[simp] theorem modTenant_pending (t : Nat) (f : Tenant → Tenant) : (modTenant t f s).pending = s.pending := rfl
@[simp] theorem modTenant_freeIndex (t : Nat) (f : Tenant → Tenant) : (modTenant t f s).freeIndex = s.freeIndex := rfl
@[simp] theorem modTenant_regs (t : Nat) (f : Tenant → Tenant) : (modTenant t f s).regs = s.regs := rfl
@[simp] theorem modTenant_seals (t : Nat) (f : Tenant → Tenant) : (modTenant t f s).seals = s.seals := rfl
@[simp] theorem modTenant_stepCounter (t : Nat) (f : Tenant → Tenant) : (modTenant t f s).stepCounter = s.stepCounter := rfl
@[simp] theorem modTenant_boundary (t : Nat) (f : Tenant → Tenant) : (modTenant t f s).boundary = s.boundary := rfl
@[simp] theorem modTenant_stamp (t : Nat) (f : Tenant → Tenant) : (modTenant t f s).stamp = s.stamp := rfl
@[simp] theorem modTenant_clock (t : Nat) (f : Tenant → Tenant) : (modTenant t f s).clock = s.clock := rfl
@[simp] theorem modTenant_power (t : Nat) (f : Tenant → Tenant) : (modTenant t f s).power = s.power := rfl
@[simp] theorem modTenant_boot (t : Nat) (f : Tenant → Tenant) : (modTenant t f s).boot = s.boot := rfl
@[simp] theorem modTenant_security (t : Nat) (f : Tenant → Tenant) : (modTenant t f s).security = s.security := rfl
@[simp] theorem modTenant_faults (t : Nat) (f : Tenant → Tenant) : (modTenant t f s).faults = s.faults := rfl
@[simp] theorem modTenant_tenants (t : Nat) (f : Tenant → Tenant) : (modTenant t f s).tenants = fmModify s.tenants t freshTenant f := rfl
@[simp] theorem modTenant_qps (t : Nat) (f : Tenant → Tenant) : (modTenant t f s).qps = s.qps := rfl
@[simp] theorem modTenant_ctxs (t : Nat) (f : Tenant → Tenant) : (modTenant t f s).ctxs = s.ctxs := rfl
@[simp] theorem modTenant_slots (t : Nat) (f : Tenant → Tenant) : (modTenant t f s).slots = s.slots := rfl
@[simp] theorem modTenant_adapters (t : Nat) (f : Tenant → Tenant) : (modTenant t f s).adapters = s.adapters := rfl
@[simp] theorem modTenant_groups (t : Nat) (f : Tenant → Tenant) : (modTenant t f s).groups = s.groups := rfl
@[simp] theorem modTenant_blocks (t : Nat) (f : Tenant → Tenant) : (modTenant t f s).blocks = s.blocks := rfl
@[simp] theorem modTenant_sluice (t : Nat) (f : Tenant → Tenant) : (modTenant t f s).sluice = s.sluice := rfl
@[simp] theorem modTenant_mem (t : Nat) (f : Tenant → Tenant) : (modTenant t f s).mem = s.mem := rfl
@[simp] theorem modTenant_bank (t : Nat) (f : Tenant → Tenant) : (modTenant t f s).bank = s.bank := rfl
@[simp] theorem modTenant_poisoned (t : Nat) (f : Tenant → Tenant) : (modTenant t f s).poisoned = s.poisoned := rfl
@[simp] theorem modTenant_step (t : Nat) (f : Tenant → Tenant) : (modTenant t f s).step = s.step := rfl
@[simp] theorem modTenant_outbox (t : Nat) (f : Tenant → Tenant) : (modTenant t f s).outbox = s.outbox := rfl
@[simp] theorem modTenant_ports (t : Nat) (f : Tenant → Tenant) : (modTenant t f s).ports = s.ports := rfl
@[simp] theorem modTenant_junction (t : Nat) (f : Tenant → Tenant) : (modTenant t f s).junction = s.junction := rfl
@[simp] theorem modTenant_host (t : Nat) (f : Tenant → Tenant) : (modTenant t f s).host = s.host := rfl
@[simp] theorem modTenant_out (t : Nat) (f : Tenant → Tenant) : (modTenant t f s).out = s.out := rfl

/-! ## modQp -/

@[simp] theorem modQp_pending (t q : Nat) (f : Qp → Qp) : (modQp t q f s).pending = s.pending := rfl
@[simp] theorem modQp_freeIndex (t q : Nat) (f : Qp → Qp) : (modQp t q f s).freeIndex = s.freeIndex := rfl
@[simp] theorem modQp_regs (t q : Nat) (f : Qp → Qp) : (modQp t q f s).regs = s.regs := rfl
@[simp] theorem modQp_seals (t q : Nat) (f : Qp → Qp) : (modQp t q f s).seals = s.seals := rfl
@[simp] theorem modQp_stepCounter (t q : Nat) (f : Qp → Qp) : (modQp t q f s).stepCounter = s.stepCounter := rfl
@[simp] theorem modQp_boundary (t q : Nat) (f : Qp → Qp) : (modQp t q f s).boundary = s.boundary := rfl
@[simp] theorem modQp_stamp (t q : Nat) (f : Qp → Qp) : (modQp t q f s).stamp = s.stamp := rfl
@[simp] theorem modQp_clock (t q : Nat) (f : Qp → Qp) : (modQp t q f s).clock = s.clock := rfl
@[simp] theorem modQp_power (t q : Nat) (f : Qp → Qp) : (modQp t q f s).power = s.power := rfl
@[simp] theorem modQp_boot (t q : Nat) (f : Qp → Qp) : (modQp t q f s).boot = s.boot := rfl
@[simp] theorem modQp_security (t q : Nat) (f : Qp → Qp) : (modQp t q f s).security = s.security := rfl
@[simp] theorem modQp_faults (t q : Nat) (f : Qp → Qp) : (modQp t q f s).faults = s.faults := rfl
@[simp] theorem modQp_tenants (t q : Nat) (f : Qp → Qp) : (modQp t q f s).tenants = s.tenants := rfl
@[simp] theorem modQp_qps (t q : Nat) (f : Qp → Qp) : (modQp t q f s).qps = fmModify s.qps (t * 16 + q) freshQp f := rfl
@[simp] theorem modQp_ctxs (t q : Nat) (f : Qp → Qp) : (modQp t q f s).ctxs = s.ctxs := rfl
@[simp] theorem modQp_slots (t q : Nat) (f : Qp → Qp) : (modQp t q f s).slots = s.slots := rfl
@[simp] theorem modQp_adapters (t q : Nat) (f : Qp → Qp) : (modQp t q f s).adapters = s.adapters := rfl
@[simp] theorem modQp_groups (t q : Nat) (f : Qp → Qp) : (modQp t q f s).groups = s.groups := rfl
@[simp] theorem modQp_blocks (t q : Nat) (f : Qp → Qp) : (modQp t q f s).blocks = s.blocks := rfl
@[simp] theorem modQp_sluice (t q : Nat) (f : Qp → Qp) : (modQp t q f s).sluice = s.sluice := rfl
@[simp] theorem modQp_mem (t q : Nat) (f : Qp → Qp) : (modQp t q f s).mem = s.mem := rfl
@[simp] theorem modQp_bank (t q : Nat) (f : Qp → Qp) : (modQp t q f s).bank = s.bank := rfl
@[simp] theorem modQp_poisoned (t q : Nat) (f : Qp → Qp) : (modQp t q f s).poisoned = s.poisoned := rfl
@[simp] theorem modQp_step (t q : Nat) (f : Qp → Qp) : (modQp t q f s).step = s.step := rfl
@[simp] theorem modQp_outbox (t q : Nat) (f : Qp → Qp) : (modQp t q f s).outbox = s.outbox := rfl
@[simp] theorem modQp_ports (t q : Nat) (f : Qp → Qp) : (modQp t q f s).ports = s.ports := rfl
@[simp] theorem modQp_junction (t q : Nat) (f : Qp → Qp) : (modQp t q f s).junction = s.junction := rfl
@[simp] theorem modQp_host (t q : Nat) (f : Qp → Qp) : (modQp t q f s).host = s.host := rfl
@[simp] theorem modQp_out (t q : Nat) (f : Qp → Qp) : (modQp t q f s).out = s.out := rfl

/-! ## modCtx -/

@[simp] theorem modCtx_pending (i : Nat) (f : Ctx → Ctx) : (modCtx i f s).pending = s.pending := rfl
@[simp] theorem modCtx_freeIndex (i : Nat) (f : Ctx → Ctx) : (modCtx i f s).freeIndex = s.freeIndex := rfl
@[simp] theorem modCtx_regs (i : Nat) (f : Ctx → Ctx) : (modCtx i f s).regs = s.regs := rfl
@[simp] theorem modCtx_seals (i : Nat) (f : Ctx → Ctx) : (modCtx i f s).seals = s.seals := rfl
@[simp] theorem modCtx_stepCounter (i : Nat) (f : Ctx → Ctx) : (modCtx i f s).stepCounter = s.stepCounter := rfl
@[simp] theorem modCtx_boundary (i : Nat) (f : Ctx → Ctx) : (modCtx i f s).boundary = s.boundary := rfl
@[simp] theorem modCtx_stamp (i : Nat) (f : Ctx → Ctx) : (modCtx i f s).stamp = s.stamp := rfl
@[simp] theorem modCtx_clock (i : Nat) (f : Ctx → Ctx) : (modCtx i f s).clock = s.clock := rfl
@[simp] theorem modCtx_power (i : Nat) (f : Ctx → Ctx) : (modCtx i f s).power = s.power := rfl
@[simp] theorem modCtx_boot (i : Nat) (f : Ctx → Ctx) : (modCtx i f s).boot = s.boot := rfl
@[simp] theorem modCtx_security (i : Nat) (f : Ctx → Ctx) : (modCtx i f s).security = s.security := rfl
@[simp] theorem modCtx_faults (i : Nat) (f : Ctx → Ctx) : (modCtx i f s).faults = s.faults := rfl
@[simp] theorem modCtx_tenants (i : Nat) (f : Ctx → Ctx) : (modCtx i f s).tenants = s.tenants := rfl
@[simp] theorem modCtx_qps (i : Nat) (f : Ctx → Ctx) : (modCtx i f s).qps = s.qps := rfl
@[simp] theorem modCtx_ctxs (i : Nat) (f : Ctx → Ctx) : (modCtx i f s).ctxs = fmModify s.ctxs i freshCtx f := rfl
@[simp] theorem modCtx_slots (i : Nat) (f : Ctx → Ctx) : (modCtx i f s).slots = s.slots := rfl
@[simp] theorem modCtx_adapters (i : Nat) (f : Ctx → Ctx) : (modCtx i f s).adapters = s.adapters := rfl
@[simp] theorem modCtx_groups (i : Nat) (f : Ctx → Ctx) : (modCtx i f s).groups = s.groups := rfl
@[simp] theorem modCtx_blocks (i : Nat) (f : Ctx → Ctx) : (modCtx i f s).blocks = s.blocks := rfl
@[simp] theorem modCtx_sluice (i : Nat) (f : Ctx → Ctx) : (modCtx i f s).sluice = s.sluice := rfl
@[simp] theorem modCtx_mem (i : Nat) (f : Ctx → Ctx) : (modCtx i f s).mem = s.mem := rfl
@[simp] theorem modCtx_bank (i : Nat) (f : Ctx → Ctx) : (modCtx i f s).bank = s.bank := rfl
@[simp] theorem modCtx_poisoned (i : Nat) (f : Ctx → Ctx) : (modCtx i f s).poisoned = s.poisoned := rfl
@[simp] theorem modCtx_step (i : Nat) (f : Ctx → Ctx) : (modCtx i f s).step = s.step := rfl
@[simp] theorem modCtx_outbox (i : Nat) (f : Ctx → Ctx) : (modCtx i f s).outbox = s.outbox := rfl
@[simp] theorem modCtx_ports (i : Nat) (f : Ctx → Ctx) : (modCtx i f s).ports = s.ports := rfl
@[simp] theorem modCtx_junction (i : Nat) (f : Ctx → Ctx) : (modCtx i f s).junction = s.junction := rfl
@[simp] theorem modCtx_host (i : Nat) (f : Ctx → Ctx) : (modCtx i f s).host = s.host := rfl
@[simp] theorem modCtx_out (i : Nat) (f : Ctx → Ctx) : (modCtx i f s).out = s.out := rfl

/-! ## modSlot -/

@[simp] theorem modSlot_pending (k : Nat) (f : ModelSlot → ModelSlot) : (modSlot k f s).pending = s.pending := rfl
@[simp] theorem modSlot_freeIndex (k : Nat) (f : ModelSlot → ModelSlot) : (modSlot k f s).freeIndex = s.freeIndex := rfl
@[simp] theorem modSlot_regs (k : Nat) (f : ModelSlot → ModelSlot) : (modSlot k f s).regs = s.regs := rfl
@[simp] theorem modSlot_seals (k : Nat) (f : ModelSlot → ModelSlot) : (modSlot k f s).seals = s.seals := rfl
@[simp] theorem modSlot_stepCounter (k : Nat) (f : ModelSlot → ModelSlot) : (modSlot k f s).stepCounter = s.stepCounter := rfl
@[simp] theorem modSlot_boundary (k : Nat) (f : ModelSlot → ModelSlot) : (modSlot k f s).boundary = s.boundary := rfl
@[simp] theorem modSlot_stamp (k : Nat) (f : ModelSlot → ModelSlot) : (modSlot k f s).stamp = s.stamp := rfl
@[simp] theorem modSlot_clock (k : Nat) (f : ModelSlot → ModelSlot) : (modSlot k f s).clock = s.clock := rfl
@[simp] theorem modSlot_power (k : Nat) (f : ModelSlot → ModelSlot) : (modSlot k f s).power = s.power := rfl
@[simp] theorem modSlot_boot (k : Nat) (f : ModelSlot → ModelSlot) : (modSlot k f s).boot = s.boot := rfl
@[simp] theorem modSlot_security (k : Nat) (f : ModelSlot → ModelSlot) : (modSlot k f s).security = s.security := rfl
@[simp] theorem modSlot_faults (k : Nat) (f : ModelSlot → ModelSlot) : (modSlot k f s).faults = s.faults := rfl
@[simp] theorem modSlot_tenants (k : Nat) (f : ModelSlot → ModelSlot) : (modSlot k f s).tenants = s.tenants := rfl
@[simp] theorem modSlot_qps (k : Nat) (f : ModelSlot → ModelSlot) : (modSlot k f s).qps = s.qps := rfl
@[simp] theorem modSlot_ctxs (k : Nat) (f : ModelSlot → ModelSlot) : (modSlot k f s).ctxs = s.ctxs := rfl
@[simp] theorem modSlot_slots (k : Nat) (f : ModelSlot → ModelSlot) : (modSlot k f s).slots = fmModify s.slots k emptySlot f := rfl
@[simp] theorem modSlot_adapters (k : Nat) (f : ModelSlot → ModelSlot) : (modSlot k f s).adapters = s.adapters := rfl
@[simp] theorem modSlot_groups (k : Nat) (f : ModelSlot → ModelSlot) : (modSlot k f s).groups = s.groups := rfl
@[simp] theorem modSlot_blocks (k : Nat) (f : ModelSlot → ModelSlot) : (modSlot k f s).blocks = s.blocks := rfl
@[simp] theorem modSlot_sluice (k : Nat) (f : ModelSlot → ModelSlot) : (modSlot k f s).sluice = s.sluice := rfl
@[simp] theorem modSlot_mem (k : Nat) (f : ModelSlot → ModelSlot) : (modSlot k f s).mem = s.mem := rfl
@[simp] theorem modSlot_bank (k : Nat) (f : ModelSlot → ModelSlot) : (modSlot k f s).bank = s.bank := rfl
@[simp] theorem modSlot_poisoned (k : Nat) (f : ModelSlot → ModelSlot) : (modSlot k f s).poisoned = s.poisoned := rfl
@[simp] theorem modSlot_step (k : Nat) (f : ModelSlot → ModelSlot) : (modSlot k f s).step = s.step := rfl
@[simp] theorem modSlot_outbox (k : Nat) (f : ModelSlot → ModelSlot) : (modSlot k f s).outbox = s.outbox := rfl
@[simp] theorem modSlot_ports (k : Nat) (f : ModelSlot → ModelSlot) : (modSlot k f s).ports = s.ports := rfl
@[simp] theorem modSlot_junction (k : Nat) (f : ModelSlot → ModelSlot) : (modSlot k f s).junction = s.junction := rfl
@[simp] theorem modSlot_host (k : Nat) (f : ModelSlot → ModelSlot) : (modSlot k f s).host = s.host := rfl
@[simp] theorem modSlot_out (k : Nat) (f : ModelSlot → ModelSlot) : (modSlot k f s).out = s.out := rfl

/-! ## modBlock -/

@[simp] theorem modBlock_pending (n : Nat) (f : Block → Block) : (modBlock n f s).pending = s.pending := rfl
@[simp] theorem modBlock_freeIndex (n : Nat) (f : Block → Block) : (modBlock n f s).freeIndex = s.freeIndex := rfl
@[simp] theorem modBlock_regs (n : Nat) (f : Block → Block) : (modBlock n f s).regs = s.regs := rfl
@[simp] theorem modBlock_seals (n : Nat) (f : Block → Block) : (modBlock n f s).seals = s.seals := rfl
@[simp] theorem modBlock_stepCounter (n : Nat) (f : Block → Block) : (modBlock n f s).stepCounter = s.stepCounter := rfl
@[simp] theorem modBlock_boundary (n : Nat) (f : Block → Block) : (modBlock n f s).boundary = s.boundary := rfl
@[simp] theorem modBlock_stamp (n : Nat) (f : Block → Block) : (modBlock n f s).stamp = s.stamp := rfl
@[simp] theorem modBlock_clock (n : Nat) (f : Block → Block) : (modBlock n f s).clock = s.clock := rfl
@[simp] theorem modBlock_power (n : Nat) (f : Block → Block) : (modBlock n f s).power = s.power := rfl
@[simp] theorem modBlock_boot (n : Nat) (f : Block → Block) : (modBlock n f s).boot = s.boot := rfl
@[simp] theorem modBlock_security (n : Nat) (f : Block → Block) : (modBlock n f s).security = s.security := rfl
@[simp] theorem modBlock_faults (n : Nat) (f : Block → Block) : (modBlock n f s).faults = s.faults := rfl
@[simp] theorem modBlock_tenants (n : Nat) (f : Block → Block) : (modBlock n f s).tenants = s.tenants := rfl
@[simp] theorem modBlock_qps (n : Nat) (f : Block → Block) : (modBlock n f s).qps = s.qps := rfl
@[simp] theorem modBlock_ctxs (n : Nat) (f : Block → Block) : (modBlock n f s).ctxs = s.ctxs := rfl
@[simp] theorem modBlock_slots (n : Nat) (f : Block → Block) : (modBlock n f s).slots = s.slots := rfl
@[simp] theorem modBlock_adapters (n : Nat) (f : Block → Block) : (modBlock n f s).adapters = s.adapters := rfl
@[simp] theorem modBlock_groups (n : Nat) (f : Block → Block) : (modBlock n f s).groups = s.groups := rfl
@[simp] theorem modBlock_blocks (n : Nat) (f : Block → Block) : (modBlock n f s).blocks = fmModify s.blocks n unmappedBlock f := rfl
@[simp] theorem modBlock_sluice (n : Nat) (f : Block → Block) : (modBlock n f s).sluice = s.sluice := rfl
@[simp] theorem modBlock_mem (n : Nat) (f : Block → Block) : (modBlock n f s).mem = s.mem := rfl
@[simp] theorem modBlock_bank (n : Nat) (f : Block → Block) : (modBlock n f s).bank = s.bank := rfl
@[simp] theorem modBlock_poisoned (n : Nat) (f : Block → Block) : (modBlock n f s).poisoned = s.poisoned := rfl
@[simp] theorem modBlock_step (n : Nat) (f : Block → Block) : (modBlock n f s).step = s.step := rfl
@[simp] theorem modBlock_outbox (n : Nat) (f : Block → Block) : (modBlock n f s).outbox = s.outbox := rfl
@[simp] theorem modBlock_ports (n : Nat) (f : Block → Block) : (modBlock n f s).ports = s.ports := rfl
@[simp] theorem modBlock_junction (n : Nat) (f : Block → Block) : (modBlock n f s).junction = s.junction := rfl
@[simp] theorem modBlock_host (n : Nat) (f : Block → Block) : (modBlock n f s).host = s.host := rfl
@[simp] theorem modBlock_out (n : Nat) (f : Block → Block) : (modBlock n f s).out = s.out := rfl

/-! ## modPort -/

@[simp] theorem modPort_pending (p : Nat) (f : Port → Port) : (modPort p f s).pending = s.pending := rfl
@[simp] theorem modPort_freeIndex (p : Nat) (f : Port → Port) : (modPort p f s).freeIndex = s.freeIndex := rfl
@[simp] theorem modPort_regs (p : Nat) (f : Port → Port) : (modPort p f s).regs = s.regs := rfl
@[simp] theorem modPort_seals (p : Nat) (f : Port → Port) : (modPort p f s).seals = s.seals := rfl
@[simp] theorem modPort_stepCounter (p : Nat) (f : Port → Port) : (modPort p f s).stepCounter = s.stepCounter := rfl
@[simp] theorem modPort_boundary (p : Nat) (f : Port → Port) : (modPort p f s).boundary = s.boundary := rfl
@[simp] theorem modPort_stamp (p : Nat) (f : Port → Port) : (modPort p f s).stamp = s.stamp := rfl
@[simp] theorem modPort_clock (p : Nat) (f : Port → Port) : (modPort p f s).clock = s.clock := rfl
@[simp] theorem modPort_power (p : Nat) (f : Port → Port) : (modPort p f s).power = s.power := rfl
@[simp] theorem modPort_boot (p : Nat) (f : Port → Port) : (modPort p f s).boot = s.boot := rfl
@[simp] theorem modPort_security (p : Nat) (f : Port → Port) : (modPort p f s).security = s.security := rfl
@[simp] theorem modPort_faults (p : Nat) (f : Port → Port) : (modPort p f s).faults = s.faults := rfl
@[simp] theorem modPort_tenants (p : Nat) (f : Port → Port) : (modPort p f s).tenants = s.tenants := rfl
@[simp] theorem modPort_qps (p : Nat) (f : Port → Port) : (modPort p f s).qps = s.qps := rfl
@[simp] theorem modPort_ctxs (p : Nat) (f : Port → Port) : (modPort p f s).ctxs = s.ctxs := rfl
@[simp] theorem modPort_slots (p : Nat) (f : Port → Port) : (modPort p f s).slots = s.slots := rfl
@[simp] theorem modPort_adapters (p : Nat) (f : Port → Port) : (modPort p f s).adapters = s.adapters := rfl
@[simp] theorem modPort_groups (p : Nat) (f : Port → Port) : (modPort p f s).groups = s.groups := rfl
@[simp] theorem modPort_blocks (p : Nat) (f : Port → Port) : (modPort p f s).blocks = s.blocks := rfl
@[simp] theorem modPort_sluice (p : Nat) (f : Port → Port) : (modPort p f s).sluice = s.sluice := rfl
@[simp] theorem modPort_mem (p : Nat) (f : Port → Port) : (modPort p f s).mem = s.mem := rfl
@[simp] theorem modPort_bank (p : Nat) (f : Port → Port) : (modPort p f s).bank = s.bank := rfl
@[simp] theorem modPort_poisoned (p : Nat) (f : Port → Port) : (modPort p f s).poisoned = s.poisoned := rfl
@[simp] theorem modPort_step (p : Nat) (f : Port → Port) : (modPort p f s).step = s.step := rfl
@[simp] theorem modPort_outbox (p : Nat) (f : Port → Port) : (modPort p f s).outbox = s.outbox := rfl
@[simp] theorem modPort_ports (p : Nat) (f : Port → Port) : (modPort p f s).ports = fmModify s.ports p freshPort f := rfl
@[simp] theorem modPort_junction (p : Nat) (f : Port → Port) : (modPort p f s).junction = s.junction := rfl
@[simp] theorem modPort_host (p : Nat) (f : Port → Port) : (modPort p f s).host = s.host := rfl
@[simp] theorem modPort_out (p : Nat) (f : Port → Port) : (modPort p f s).out = s.out := rfl

/-! ## reply -/

@[simp] theorem reply_pending (r : Reply) : (reply r s).pending = s.pending := rfl
@[simp] theorem reply_freeIndex (r : Reply) : (reply r s).freeIndex = s.freeIndex := rfl
@[simp] theorem reply_regs (r : Reply) : (reply r s).regs = s.regs := rfl
@[simp] theorem reply_seals (r : Reply) : (reply r s).seals = s.seals := rfl
@[simp] theorem reply_stepCounter (r : Reply) : (reply r s).stepCounter = s.stepCounter := rfl
@[simp] theorem reply_boundary (r : Reply) : (reply r s).boundary = s.boundary := rfl
@[simp] theorem reply_stamp (r : Reply) : (reply r s).stamp = s.stamp := rfl
@[simp] theorem reply_clock (r : Reply) : (reply r s).clock = s.clock := rfl
@[simp] theorem reply_power (r : Reply) : (reply r s).power = s.power := rfl
@[simp] theorem reply_boot (r : Reply) : (reply r s).boot = s.boot := rfl
@[simp] theorem reply_security (r : Reply) : (reply r s).security = s.security := rfl
@[simp] theorem reply_faults (r : Reply) : (reply r s).faults = s.faults := rfl
@[simp] theorem reply_tenants (r : Reply) : (reply r s).tenants = s.tenants := rfl
@[simp] theorem reply_qps (r : Reply) : (reply r s).qps = s.qps := rfl
@[simp] theorem reply_ctxs (r : Reply) : (reply r s).ctxs = s.ctxs := rfl
@[simp] theorem reply_slots (r : Reply) : (reply r s).slots = s.slots := rfl
@[simp] theorem reply_adapters (r : Reply) : (reply r s).adapters = s.adapters := rfl
@[simp] theorem reply_groups (r : Reply) : (reply r s).groups = s.groups := rfl
@[simp] theorem reply_blocks (r : Reply) : (reply r s).blocks = s.blocks := rfl
@[simp] theorem reply_sluice (r : Reply) : (reply r s).sluice = s.sluice := rfl
@[simp] theorem reply_mem (r : Reply) : (reply r s).mem = s.mem := rfl
@[simp] theorem reply_bank (r : Reply) : (reply r s).bank = s.bank := rfl
@[simp] theorem reply_poisoned (r : Reply) : (reply r s).poisoned = s.poisoned := rfl
@[simp] theorem reply_step (r : Reply) : (reply r s).step = s.step := rfl
@[simp] theorem reply_outbox (r : Reply) : (reply r s).outbox = s.outbox := rfl
@[simp] theorem reply_ports (r : Reply) : (reply r s).ports = s.ports := rfl
@[simp] theorem reply_junction (r : Reply) : (reply r s).junction = s.junction := rfl
@[simp] theorem reply_host (r : Reply) : (reply r s).host = s.host := rfl
@[simp] theorem reply_out (r : Reply) : (reply r s).out = { s.out with replies := r :: s.out.replies } := rfl

/-! ## Maps -/

variable {α : Type}

@[simp] theorem fmFind_fmSet_self (m : FMap α) (n : Nat) (v : α) : fmFind (fmSet m n v) n = some v := by
  induction m with
  | nil => simp [fmSet, fmFind]
  | cons x r ih =>
    obtain ⟨k, w⟩ := x
    simp only [fmSet]
    split
    · simp [fmFind]
    · split
      · simp [fmFind]
      · simp [fmFind, Ne.symm ‹n ≠ k›, ih]

theorem fmFind_fmSet_other (m : FMap α) {n j : Nat} (v : α) (h : j ≠ n) : fmFind (fmSet m n v) j = fmFind m j := by
  induction m with
  | nil => simp [fmSet, fmFind, Ne.symm h]
  | cons x r ih =>
    obtain ⟨k, w⟩ := x
    simp only [fmSet]
    split
    · simp [fmFind, Ne.symm h]
    · split
      · subst ‹n = k›; simp [fmFind, Ne.symm h]
      · simp [fmFind, ih]

@[simp] theorem fmGet_fmSet_self (m : FMap α) (n : Nat) (v d : α) : fmGet (fmSet m n v) n d = v := by
  simp [fmGet]

theorem fmGet_fmSet_other (m : FMap α) {n j : Nat} (v d : α) (h : j ≠ n) : fmGet (fmSet m n v) j d = fmGet m j d := by
  simp [fmGet, fmFind_fmSet_other m v h]

@[simp] theorem fmGet_fmModify_self (m : FMap α) (n : Nat) (d : α) (f : α → α) :
    fmGet (fmModify m n d f) n d = f (fmGet m n d) := by
  simp [fmModify]

theorem fmGet_fmModify_other (m : FMap α) {n j : Nat} (d e : α) (f : α → α) (h : j ≠ n) :
    fmGet (fmModify m n d f) j e = fmGet m j e := fmGet_fmSet_other m _ _ h

/-! ## What an update makes of the entry it names, and of the others -/

@[simp] theorem ctx_modCtx_self (i : Nat) (f : Ctx → Ctx) : (modCtx i f s).ctx i = f (s.ctx i) := by
  simp [State.ctx]

theorem ctx_modCtx_other {i j : Nat} (f : Ctx → Ctx) (h : j ≠ i) : (modCtx i f s).ctx j = s.ctx j := by
  simp [State.ctx, fmGet_fmModify_other _ _ _ _ h]

@[simp] theorem tenant_modTenant_self (t : Nat) (f : Tenant → Tenant) : (modTenant t f s).tenant t = f (s.tenant t) := by
  simp [State.tenant]

theorem tenant_modTenant_other {t u : Nat} (f : Tenant → Tenant) (h : u ≠ t) : (modTenant t f s).tenant u = s.tenant u := by
  simp [State.tenant, fmGet_fmModify_other _ _ _ _ h]

@[simp] theorem qp_modQp_self (t q : Nat) (f : Qp → Qp) : (modQp t q f s).qp t q = f (s.qp t q) := by
  simp [State.qp]

theorem qp_modQp_other {t q u r : Nat} (f : Qp → Qp) (h : u * 16 + r ≠ t * 16 + q) : (modQp t q f s).qp u r = s.qp u r := by
  simp [State.qp, fmGet_fmModify_other _ _ _ _ h]

@[simp] theorem slot_modSlot_self (k : Nat) (f : ModelSlot → ModelSlot) : (modSlot k f s).slot k = f (s.slot k) := by
  simp [State.slot]

theorem slot_modSlot_other {k j : Nat} (f : ModelSlot → ModelSlot) (h : j ≠ k) : (modSlot k f s).slot j = s.slot j := by
  simp [State.slot, fmGet_fmModify_other _ _ _ _ h]

@[simp] theorem block_modBlock_self (n : Nat) (f : Block → Block) : (modBlock n f s).block n = f (s.block n) := by
  simp [State.block]

theorem block_modBlock_other {n j : Nat} (f : Block → Block) (h : j ≠ n) : (modBlock n f s).block j = s.block j := by
  simp [State.block, fmGet_fmModify_other _ _ _ _ h]

@[simp] theorem port_modPort_self (p : Nat) (f : Port → Port) : (modPort p f s).port p = f (s.port p) := by
  simp [State.port]

theorem port_modPort_other {p r : Nat} (f : Port → Port) (h : r ≠ p) : (modPort p f s).port r = s.port r := by
  simp [State.port, fmGet_fmModify_other _ _ _ _ h]

theorem reg_setReg_self (off lsb v d : Nat) : (setReg off lsb v s).reg off lsb d = v := by
  simp [State.reg]

theorem reg_setReg_other {off lsb a b : Nat} (v d : Nat) (h : fieldKey a b ≠ fieldKey off lsb) :
    (setReg off lsb v s).reg a b d = s.reg a b d := by
  simp [State.reg, fmGet_fmSet_other _ _ _ h]

/-! ## How a meaning answers -/

theorem run_wf {i : Instr} (f : State → State) (h : i.wf = true) : run i s f = .next (f s) := by
  simp [run, h]

theorem run_next {i : Instr} {t : State} {f : State → State} (h : run i s f = .next t) : i.wf = true ∧ t = f s := by
  unfold run at h
  split at h
  · exact ⟨‹_›, by injection h with h; exact h.symm⟩
  · cases h

theorem whenOn_on {f : State → State} (h : s.power.on = true) : whenOn f s = f s := by simp [whenOn, h]

theorem whenServing_yes {f : State → State} (h : s.serving = true) : whenServing f s = f s := by simp [whenServing, h]

theorem whenServing_no {f : State → State} (h : s.serving = false) : whenServing f s = s := by simp [whenServing, h]

theorem whenAnswering_yes {f : State → State} (h : s.answers = true) : whenAnswering f s = f s := by
  simp [whenAnswering, h]

theorem whenExposed_yes {f : State → State} (h : s.exposed = true) : whenExposed f s = f s := by simp [whenExposed, h]

/-- A module that serves has its registers answering. -/
theorem answers_of_serving {s : State} (h : s.serving = true) : s.answers = true := by
  unfold State.serving at h
  unfold State.answers
  simp only [Bool.and_eq_true, decide_eq_true_eq, Bool.not_eq_true'] at h
  simp [h.1.1, h.1.2]

theorem on_of_answers {s : State} (h : s.answers = true) : s.power.on = true := by
  unfold State.answers at h
  simp only [Bool.and_eq_true] at h
  exact h.1.1

end Sys2Proof.Laws
end

