-- ==== Sys2Proof/Laws/Commands.lean ====
section
/-! SUPPORT. What each command keeps: `Kept` for every command that neither resets nor fuses. -/

set_option Elab.async false

namespace Sys2Proof.Laws

open Sys2Proof.Machine


theorem whenServing_cases {P : State → Prop} {f : State → State} {s : State} (h : P s) (k : P (f s)) : P (whenServing f s) := by
  unfold whenServing
  split <;> assumption

theorem execDoorbellInvalidate_kept {tenant qp : Nat} {host : HostUpdate} {s t : State} (h : execDoorbellInvalidate tenant qp host s = .next t) : Kept s t := by
  obtain ⟨w, rfl⟩ := run_next s h
  refine ite_kept ?_ ?_
  · exact hostChange_kept (Kept.refl _)
  · exact readDoorbell_kept (hostChange_kept (Kept.refl _))

theorem execDoorbellPoll_kept {tenant qp : Nat} {host : HostUpdate} {s t : State} (h : execDoorbellPoll tenant qp host s = .next t) : Kept s t := by
  obtain ⟨w, rfl⟩ := run_next s h
  refine ite_kept ?_ ?_
  · exact readDoorbell_kept (hostChange_kept (Kept.refl _))
  · exact hostChange_kept (Kept.refl _)

theorem execAtsInvalidation_kept {pasid base size : Nat} {host : HostUpdate} {s t : State} (h : execAtsInvalidation pasid base size host s = .next t) : Kept s t := by
  obtain ⟨w, rfl⟩ := run_next s h
  refine forEach_kept (fun x s k => ?_) (hostChange_kept (Kept.refl _))
  dsimp only
  exact ite_kept (ite_kept (readDoorbell_kept (modQp_kept k)) (qpError_kept (modQp_kept k))) k

theorem execOpenSeq_kept {d : Fetched} {s t : State} (h : execOpenSeq d s = .next t) : Kept s t := by
  obtain ⟨-, rfl⟩ := run_next s h
  exact whenServing_kept (fun s k => takeEffect_kept (fun d s k => openEffect_kept k) k) (Kept.refl _)

theorem execAppend_kept {d : Fetched} {s t : State} (h : execAppend d s = .next t) : Kept s t := by
  obtain ⟨-, rfl⟩ := run_next s h
  exact whenServing_kept (fun s k => takeEffect_kept (fun d s k => appendEffect_kept k) k) (Kept.refl _)

theorem execPause_kept {d : Fetched} {s t : State} (h : execPause d s = .next t) : Kept s t := by
  obtain ⟨-, rfl⟩ := run_next s h
  exact whenServing_kept (fun s k => takeEffect_kept (fun d s k => pauseEffect_kept k) k) (Kept.refl _)

theorem execResume_kept {d : Fetched} {s t : State} (h : execResume d s = .next t) : Kept s t := by
  obtain ⟨-, rfl⟩ := run_next s h
  exact whenServing_kept (fun s k => takeEffect_kept (fun d s k => resumeEffect_kept k) k) (Kept.refl _)

theorem execCancel_kept {d : Fetched} {s t : State} (h : execCancel d s = .next t) : Kept s t := by
  obtain ⟨-, rfl⟩ := run_next s h
  exact whenServing_kept (fun s k => takeEffect_kept (fun d s k => cancelEffect_kept k) k) (Kept.refl _)

theorem execClose_kept {d : Fetched} {s t : State} (h : execClose d s = .next t) : Kept s t := by
  obtain ⟨-, rfl⟩ := run_next s h
  exact whenServing_kept (fun s k => takeEffect_kept (fun d s k => closeEffect_kept k) k) (Kept.refl _)

theorem execExportPrefix_kept {d : Fetched} {s t : State} (h : execExportPrefix d s = .next t) : Kept s t := by
  obtain ⟨-, rfl⟩ := run_next s h
  exact whenServing_kept (fun s k => takeEffect_kept (fun d s k => exportEffect_kept k) k) (Kept.refl _)

theorem execImportPrefix_kept {d : Fetched} {s t : State} (h : execImportPrefix d s = .next t) : Kept s t := by
  obtain ⟨-, rfl⟩ := run_next s h
  exact whenServing_kept (fun s k => takeEffect_kept (fun d s k => importEffect_kept k) k) (Kept.refl _)

theorem execDropPrefix_kept {d : Fetched} {s t : State} (h : execDropPrefix d s = .next t) : Kept s t := by
  obtain ⟨-, rfl⟩ := run_next s h
  exact whenServing_kept (fun s k => takeEffect_kept (fun d s k => dropEffect_kept k) k) (Kept.refl _)

theorem execEmbedLookup_kept {d : Fetched} {s t : State} (h : execEmbedLookup d s = .next t) : Kept s t := by
  obtain ⟨-, rfl⟩ := run_next s h
  exact whenServing_kept (fun s k => takeEffect_kept (fun d s k => lookupEffect_kept k) k) (Kept.refl _)

theorem execQuery_kept {d : Fetched} {s t : State} (h : execQuery d s = .next t) : Kept s t := by
  obtain ⟨-, rfl⟩ := run_next s h
  exact whenServing_kept (fun s k => takeEffect_kept (fun d s k => queryEffect_kept k) k) (Kept.refl _)

theorem execFence_kept {d : Fetched} {s t : State} (h : execFence d s = .next t) : Kept s t := by
  obtain ⟨-, rfl⟩ := run_next s h
  exact whenServing_kept (fun s k => takeEffect_kept (fun d s k => fenceEffect_kept k) k) (Kept.refl _)

theorem execLoadModel_kept {d : Fetched} {s t : State} (h : execLoadModel d s = .next t) : Kept s t := by
  obtain ⟨-, rfl⟩ := run_next s h
  exact whenServing_kept (fun s k => takeEffect_kept (fun d s k => loadModelEffect_kept k) k) (Kept.refl _)

theorem execUnloadModel_kept {d : Fetched} {s t : State} (h : execUnloadModel d s = .next t) : Kept s t := by
  obtain ⟨-, rfl⟩ := run_next s h
  exact whenServing_kept (fun s k => takeEffect_kept (fun d s k => unloadModelEffect_kept k) k) (Kept.refl _)

theorem execLoadAdapter_kept {d : Fetched} {s t : State} (h : execLoadAdapter d s = .next t) : Kept s t := by
  obtain ⟨-, rfl⟩ := run_next s h
  exact whenServing_kept (fun s k => takeEffect_kept (fun d s k => loadAdapterEffect_kept k) k) (Kept.refl _)

theorem execUnloadAdapter_kept {d : Fetched} {s t : State} (h : execUnloadAdapter d s = .next t) : Kept s t := by
  obtain ⟨-, rfl⟩ := run_next s h
  exact whenServing_kept (fun s k => takeEffect_kept (fun d s k => unloadAdapterEffect_kept k) k) (Kept.refl _)

theorem execLoadTable_kept {d : Fetched} {s t : State} (h : execLoadTable d s = .next t) : Kept s t := by
  obtain ⟨-, rfl⟩ := run_next s h
  exact whenServing_kept (fun s k => takeEffect_kept (fun d s k => loadTableEffect_kept k) k) (Kept.refl _)

theorem execReplay_kept {d : Fetched} {s t : State} (h : execReplay d s = .next t) : Kept s t := by
  obtain ⟨-, rfl⟩ := run_next s h
  exact whenServing_kept (fun s k => takeEffect_kept (fun d s k => replayEffect_kept k) k) (Kept.refl _)

theorem execSetTenant_kept {d : Fetched} {s t : State} (h : execSetTenant d s = .next t) : Kept s t := by
  obtain ⟨-, rfl⟩ := run_next s h
  exact whenServing_kept (fun s k => takeEffect_kept (fun d s k => setTenantEffect_kept k) k) (Kept.refl _)

theorem execLoadFinish_kept {host : HostUpdate} {s t : State} (h : execLoadFinish host s = .next t) : Kept s t := by
  obtain ⟨-, rfl⟩ := run_next s h
  exact whenServing_kept (fun s k => finishRunning_kept (hostChange_kept k)) (Kept.refl _)

theorem execSweepDone_kept {slot tensor : Nat} {s t : State} (h : execSweepDone slot tensor s = .next t) : Kept s t := by
  obtain ⟨-, rfl⟩ := run_next s h
  exact whenServing_kept (fun s k => finishSweep_kept k) (Kept.refl _)

theorem execStepBoundary_lived {input : BoundaryInput} {s t : State} (h : execStepBoundary input s = .next t) : Lived s t := by
  obtain ⟨-, rfl⟩ := run_next s h
  exact whenServing_cases (Lived.refl s) ((stepBoundary_beaten input s).1.lived.trans (stepBoundary_beaten input s).2.1)

theorem execWaitPeriod_kept {s t : State} (h : execWaitPeriod s = .next t) : Kept s t := by
  obtain ⟨-, rfl⟩ := run_next s h
  exact whenServing_kept (fun s k => waitPeriod_kept k) (Kept.refl _)

theorem execStepStart_lived {work : List EngineOp} {s t : State} (h : execStepStart work s = .next t) : Lived s t := by
  obtain ⟨-, rfl⟩ := run_next s h
  exact whenServing_cases (Lived.refl s) startStep_lived

theorem execRoutingPoint_kept {layer : Nat} {routes : List RouteRow} {s t : State} (h : execRoutingPoint layer routes s = .next t) : Kept s t := by
  obtain ⟨-, rfl⟩ := run_next s h
  exact whenServing_kept (fun s k => routeLayer_kept k) (Kept.refl _)

theorem execHoldPoint_kept {blocks : List Nat} {s t : State} (h : execHoldPoint blocks s = .next t) : Kept s t := by
  obtain ⟨-, rfl⟩ := run_next s h
  exact whenServing_kept (fun s k => holdTest_kept k) (Kept.refl _)

theorem execHoldTimeout_kept {block : Nat} {s t : State} (h : execHoldTimeout block s = .next t) : Kept s t := by
  obtain ⟨-, rfl⟩ := run_next s h
  exact whenServing_kept (fun s k => timeoutHold_kept k) (Kept.refl _)

theorem execHostWindow_kept {q layer : Nat} {s t : State} (h : execHostWindow q layer s = .next t) : Kept s t := by
  obtain ⟨-, rfl⟩ := run_next s h
  exact whenServing_kept (fun s k => serveWindow_kept k) (Kept.refl _)

theorem execTimingFault_kept {domain : DomainId} {unit slot : Nat} {s t : State} (h : execTimingFault domain unit slot s = .next t) : Kept s t := by
  obtain ⟨-, rfl⟩ := run_next s h
  exact whenServing_kept (fun s k => timingFault_kept k) (Kept.refl _)

theorem execControlFault_kept {domain : DomainId} {unit slot : Nat} {commandError : Bool} {s t : State} (h : execControlFault domain unit slot commandError s = .next t) : Kept s t := by
  obtain ⟨-, rfl⟩ := run_next s h
  exact whenServing_kept (fun s k => controlFault_kept k) (Kept.refl _)

theorem execDataError_kept {target : Damaged} {err : DataErr} {consumed : Bool} {s t : State} (h : execDataError target err consumed s = .next t) : Kept s t := by
  obtain ⟨-, rfl⟩ := run_next s h
  exact whenServing_kept (fun s k => dataError_kept k) (Kept.refl _)

theorem execRefetchDone_kept {block : Nat} {ok : Bool} {s t : State} (h : execRefetchDone block ok s = .next t) : Kept s t := by
  obtain ⟨-, rfl⟩ := run_next s h
  exact whenServing_kept (fun s k => refetchDone_kept k) (Kept.refl _)

theorem execPromotionDone_kept {block : Nat} {err : Option DataErr} {s t : State} (h : execPromotionDone block err s = .next t) : Kept s t := by
  obtain ⟨-, rfl⟩ := run_next s h
  exact whenServing_kept (fun s k => promotionDone_kept k) (Kept.refl _)

theorem execDemotionDone_kept {block : Nat} {err : Option DataErr} {s t : State} (h : execDemotionDone block err s = .next t) : Kept s t := by
  obtain ⟨-, rfl⟩ := run_next s h
  exact whenServing_kept (fun s k => demotionDone_kept k) (Kept.refl _)

theorem execSpillDone_kept {lgn : Nat} {s t : State} (h : execSpillDone lgn s = .next t) : Kept s t := by
  obtain ⟨-, rfl⟩ := run_next s h
  exact whenServing_kept (fun s k => spillDone_kept k) (Kept.refl _)

theorem execPrefetchDone_kept {lgn : Nat} {ok : Bool} {s t : State} (h : execPrefetchDone lgn ok s = .next t) : Kept s t := by
  obtain ⟨-, rfl⟩ := run_next s h
  exact whenServing_kept (fun s k => prefetchDone_kept k) (Kept.refl _)

theorem execTailCopyDone_kept {ctx : Nat} {s t : State} (h : execTailCopyDone ctx s = .next t) : Kept s t := by
  obtain ⟨-, rfl⟩ := run_next s h
  exact whenServing_kept (fun s k => tailCopyDone_kept k) (Kept.refl _)

theorem execDiversionCopyDone_kept {q layer quad : Nat} {s t : State} (h : execDiversionCopyDone q layer quad s = .next t) : Kept s t := by
  obtain ⟨-, rfl⟩ := run_next s h
  exact whenServing_kept (fun s k => diversionDone_kept k) (Kept.refl _)

theorem execPrefixHashDone_kept {ctx page : Nat} {s t : State} (h : execPrefixHashDone ctx page s = .next t) : Kept s t := by
  obtain ⟨-, rfl⟩ := run_next s h
  exact whenServing_kept (fun s k => hashDone_kept k) (Kept.refl _)

theorem execPrefixLookupDone_kept {ctx : Nat} {s t : State} (h : execPrefixLookupDone ctx s = .next t) : Kept s t := by
  obtain ⟨-, rfl⟩ := run_next s h
  exact whenServing_kept (fun s k => lookupDone_kept k) (Kept.refl _)

theorem execScrubPass_kept {findings : List ScrubFinding} {s t : State} (h : execScrubPass findings s = .next t) : Kept s t := by
  obtain ⟨-, rfl⟩ := run_next s h
  exact whenServing_kept (fun s k => scrub_kept k) (Kept.refl _)

theorem execCxlMemRead_kept {address : Nat} {s t : State} (h : execCxlMemRead address s = .next t) : Kept s t := by
  unfold execCxlMemRead at h
  split at h
  · injection h with h
    exact h ▸ whenAnswering_kept (fun s k => hostRead_kept k) (Kept.refl _)
  · cases h

theorem execCxlMemWrite_kept {address : Nat} {data : List Byte} {s t : State} (h : execCxlMemWrite address data s = .next t) : Kept s t := by
  unfold execCxlMemWrite at h
  split at h
  · injection h with h
    exact h ▸ whenAnswering_kept (fun s k => hostWrite_kept k) (Kept.refl _)
  · cases h

theorem execSluiceSeal_kept {block : Nat} {s t : State} (h : execSluiceSeal block s = .next t) : Kept s t := by
  obtain ⟨-, rfl⟩ := run_next s h
  exact whenExposed_kept (fun s k => queueSluice_kept k) (Kept.refl _)

theorem execSluiceUnseal_kept {block : Nat} {s t : State} (h : execSluiceUnseal block s = .next t) : Kept s t := by
  obtain ⟨-, rfl⟩ := run_next s h
  exact whenExposed_kept (fun s k => queueSluice_kept k) (Kept.refl _)

theorem execSluiceRelease_kept {block : Nat} {s t : State} (h : execSluiceRelease block s = .next t) : Kept s t := by
  obtain ⟨-, rfl⟩ := run_next s h
  exact whenExposed_kept (fun s k => queueSluice_kept k) (Kept.refl _)

theorem execQpEnable_kept {path : RegPath} {tenant qp : Nat} {s t : State} (h : execQpEnable path tenant qp s = .next t) : Kept s t := by
  obtain ⟨-, rfl⟩ := run_next s h
  exact whenExposed_kept (fun s k => enableQp_kept k) (Kept.refl _)

theorem execQpDisable_kept {path : RegPath} {tenant qp : Nat} {s t : State} (h : execQpDisable path tenant qp s = .next t) : Kept s t := by
  obtain ⟨-, rfl⟩ := run_next s h
  exact whenExposed_kept (fun s k => disableQp_kept k) (Kept.refl _)

theorem execModerationWrite_kept {path : RegPath} {tenant vector count time : Nat} {s t : State} (h : execModerationWrite path tenant vector count time s = .next t) : Kept s t := by
  obtain ⟨w, rfl⟩ := run_next s h
  have e : tenant < 256 ∧ vector < 64 := by
    unfold Instr.wf tenantOk at w
    simp only [Bool.and_eq_true, decide_eq_true_eq] at w
    exact ⟨w.1.2, w.2⟩
  exact whenExposed_kept (fun s k => writeTenantWord_kept e.1 (by omega) k) (Kept.refl _)

theorem execVectorTimeThreshold_kept {tenant vector : Nat} {s t : State} (h : execVectorTimeThreshold tenant vector s = .next t) : Kept s t := by
  obtain ⟨-, rfl⟩ := run_next s h
  exact whenServing_kept (fun s k => ite_kept (fireVector_kept k) k) (Kept.refl _)

theorem execMsixUnmask_kept {tenant : Nat} {change : MsixChange} {s t : State} (h : execMsixUnmask tenant change s = .next t) : Kept s t := by
  obtain ⟨-, rfl⟩ := run_next s h
  exact whenExposed_kept (fun s k => changeMsix_kept k) (Kept.refl _)

theorem execLatchCapture_kept {path : RegPath} {time : Bool} {tenant : Nat} {latches : BitVec 2} {s t : State} (h : execLatchCapture path time tenant latches s = .next t) : Kept s t := by
  obtain ⟨w, rfl⟩ := run_next s h
  have e : tenant < 256 := by
    unfold Instr.wf tenantOk at w
    simp only [Bool.and_eq_true, decide_eq_true_eq] at w
    exact w.2
  exact whenExposed_kept (fun s k => capture_kept e k) (Kept.refl _)

theorem execTenantSeal_kept {path : RegPath} {tenant : Nat} {s t : State} (h : execTenantSeal path tenant s = .next t) : Kept s t := by
  obtain ⟨w, rfl⟩ := run_next s h
  have e : tenant < 256 := by
    unfold Instr.wf tenantOk at w
    simp only [Bool.and_eq_true, decide_eq_true_eq] at w
    exact w.2
  exact whenExposed_kept (fun s k => writeTenantWord_kept e (by decide) k) (Kept.refl _)

theorem execFlrClearDone_kept {tenant : Nat} {s t : State} (h : execFlrClearDone tenant s = .next t) : Kept s t := by
  obtain ⟨-, rfl⟩ := run_next s h
  exact whenAnswering_kept (fun s k => finishFlr_kept k) (Kept.refl _)

theorem execRemoveReq_kept {s t : State} (h : execRemoveReq s = .next t) : Kept s t := by
  obtain ⟨-, rfl⟩ := run_next s h
  exact whenAnswering_kept (fun s k => requestRemoval_kept k) (Kept.refl _)

theorem execDumpRelease_kept {s t : State} (h : execDumpRelease s = .next t) : Kept s t := by
  obtain ⟨-, rfl⟩ := run_next s h
  exact whenAnswering_kept (fun s k => releaseDump_kept k) (Kept.refl _)

theorem execCxlLinkRetrain_kept {width rate : Nat} {cxlCache : Bool} {s t : State} (h : execCxlLinkRetrain width rate cxlCache s = .next t) : Kept s t := by
  obtain ⟨-, rfl⟩ := run_next s h
  exact whenAnswering_kept (fun s k => trainLink_kept k) (Kept.refl _)

theorem execPowerWarn_kept {vin : Nat} {s t : State} (h : execPowerWarn vin s = .next t) : Kept s t := by
  obtain ⟨-, rfl⟩ := run_next s h
  exact whenOn_kept (fun s k => ite_kept (settleAlert_kept k.same) k) (Kept.refl _)

theorem execPowerWarnClear_kept {vin : Nat} {s t : State} (h : execPowerWarnClear vin s = .next t) : Kept s t := by
  obtain ⟨-, rfl⟩ := run_next s h
  exact whenOn_kept (fun s k => ite_kept k (settleAlert_kept k.same)) (Kept.refl _)

theorem execInputInterruption_kept {s t : State} (h : execInputInterruption s = .next t) : Kept s t := by
  obtain ⟨-, rfl⟩ := run_next s h
  exact whenOn_kept (fun s k => k.same) (Kept.refl _)

theorem execPhaseFault_kept {phase : Nat} {s t : State} (h : execPhaseFault phase s = .next t) : Kept s t := by
  obtain ⟨-, rfl⟩ := run_next s h
  exact whenServing_kept (fun s k => phaseFault_kept k) (Kept.refl _)

theorem execRailFault_kept {s t : State} (h : execRailFault s = .next t) : Kept s t := by
  obtain ⟨-, rfl⟩ := run_next s h
  exact whenAnswering_kept (fun s k => fatal_kept k) (Kept.refl _)

theorem execCxlLinkLoss_kept {s t : State} (h : execCxlLinkLoss s = .next t) : Kept s t := by
  obtain ⟨-, rfl⟩ := run_next s h
  exact whenAnswering_kept (fun s k => linkLoss_kept k) (Kept.refl _)

theorem execLayerOvertemp_kept {q layer : Nat} {quarterDegrees : Int} {s t : State} (h : execLayerOvertemp q layer quarterDegrees s = .next t) : Kept s t := by
  obtain ⟨-, rfl⟩ := run_next s h
  exact whenServing_kept (fun s k => layerOvertemp_kept k) (Kept.refl _)

theorem execWearThreshold_kept {domain : DomainId} {unit : Nat} {s t : State} (h : execWearThreshold domain unit s = .next t) : Kept s t := by
  obtain ⟨-, rfl⟩ := run_next s h
  exact whenServing_kept (fun s k => wear_kept k) (Kept.refl _)

theorem execEscalation_kept {domain : DomainId} {unit : Nat} {s t : State} (h : execEscalation domain unit s = .next t) : Kept s t := by
  obtain ⟨-, rfl⟩ := run_next s h
  exact whenServing_kept (fun s k => escalateDomain_kept k) (Kept.refl _)

theorem execCoreWatchdog_kept {core : Nat} {s t : State} (h : execCoreWatchdog core s = .next t) : Kept s t := by
  obtain ⟨-, rfl⟩ := run_next s h
  exact whenServing_kept (fun s k => haltCore_kept k) (Kept.refl _)

theorem execCoreRestartDone_kept {core : Nat} {passed : Bool} {s t : State} (h : execCoreRestartDone core passed s = .next t) : Kept s t := by
  obtain ⟨-, rfl⟩ := run_next s h
  exact whenServing_kept (fun s k => restartCore_kept k) (Kept.refl _)

theorem execChannelTrainingLoss_kept {tier channel : Nat} {s t : State} (h : execChannelTrainingLoss tier channel s = .next t) : Kept s t := by
  obtain ⟨-, rfl⟩ := run_next s h
  exact whenServing_kept (fun s k => loseChannel_kept k) (Kept.refl _)

theorem execChannelRetrained_kept {tier channel : Nat} {s t : State} (h : execChannelRetrained tier channel s = .next t) : Kept s t := by
  obtain ⟨-, rfl⟩ := run_next s h
  exact whenServing_kept (fun s k => retrainedChannel_kept k) (Kept.refl _)

theorem execFatalFault_kept {cause : Nat} {domain : DomainId} {hasQuad : Bool} {s t : State} (h : execFatalFault cause domain hasQuad s = .next t) : Kept s t := by
  obtain ⟨-, rfl⟩ := run_next s h
  exact whenAnswering_kept (fun s k => fatalFault_kept k) (Kept.refl _)

theorem execDumpDone_kept {hostWriteFailed : Bool} {s t : State} (h : execDumpDone hostWriteFailed s = .next t) : Kept s t := by
  obtain ⟨-, rfl⟩ := run_next s h
  exact whenAnswering_kept (fun s k => finishDump_kept k) (Kept.refl _)

theorem execAttentionPress_kept {heldMs : Nat} {s t : State} (h : execAttentionPress heldMs s = .next t) : Kept s t := by
  obtain ⟨-, rfl⟩ := run_next s h
  exact whenOn_kept (fun s k => closeButton_kept k) (Kept.refl _)

theorem execLatchOpen_kept {s t : State} (h : execLatchOpen s = .next t) : Kept s t := by
  obtain ⟨-, rfl⟩ := run_next s h
  exact whenOn_kept (fun s k => openLatch_kept k) (Kept.refl _)

theorem execLatchClose_kept {s t : State} (h : execLatchClose s = .next t) : Kept s t := by
  obtain ⟨-, rfl⟩ := run_next s h
  exact whenOn_kept (fun s k => closeLatch_kept k) (Kept.refl _)

theorem execLatchTimeout_kept {s t : State} (h : execLatchTimeout s = .next t) : Kept s t := by
  obtain ⟨-, rfl⟩ := run_next s h
  exact whenOn_kept (fun s k => ite_kept k.same k) (Kept.refl _)

theorem execRefInLock_kept {steer : Int} {s t : State} (h : execRefInLock steer s = .next t) : Kept s t := by
  obtain ⟨-, rfl⟩ := run_next s h
  exact whenAnswering_kept (fun s k => lockRef_kept k) (Kept.refl _)

theorem execRefInLoss_kept {s t : State} (h : execRefInLoss s = .next t) : Kept s t := by
  obtain ⟨-, rfl⟩ := run_next s h
  exact whenAnswering_kept (fun s k => loseRef_kept k) (Kept.refl _)

theorem execPpsOut_kept {s t : State} (h : execPpsOut s = .next t) : Kept s t := by
  obtain ⟨-, rfl⟩ := run_next s h
  exact whenAnswering_kept (fun s k => pulse_kept k) (Kept.refl _)

theorem execTimeRequest_kept {s t : State} (h : execTimeRequest s = .next t) : Kept s t := by
  obtain ⟨-, rfl⟩ := run_next s h
  exact whenAnswering_kept (fun s k => requestTime_kept k) (Kept.refl _)

theorem execTimeReply_kept {head : MsgHead} {body : TimeReplyBody} {s t : State} (h : execTimeReply head body s = .next t) : Kept s t := by
  obtain ⟨-, rfl⟩ := run_next s h
  exact whenAnswering_kept (fun s k => takeTimeReply_kept k) (Kept.refl _)

theorem execTimeSet_kept {value : Word64} {s t : State} (h : execTimeSet value s = .next t) : Kept s t := by
  obtain ⟨-, rfl⟩ := run_next s h
  exact whenExposed_kept (fun s k => setTime_kept k) (Kept.refl _)

theorem execPortEnable_kept {port : Nat} {cableOk : Bool} {s t : State} (h : execPortEnable port cableOk s = .next t) : Kept s t := by
  obtain ⟨-, rfl⟩ := run_next s h
  exact whenExposed_kept (fun s k => enablePort_kept k) (Kept.refl _)

theorem execPortDisable_kept {port : Nat} {s t : State} (h : execPortDisable port s = .next t) : Kept s t := by
  obtain ⟨-, rfl⟩ := run_next s h
  exact whenExposed_kept (fun s k => disablePort_kept k) (Kept.refl _)

theorem execRetrain_kept {port : Nat} {s t : State} (h : execRetrain port s = .next t) : Kept s t := by
  obtain ⟨-, rfl⟩ := run_next s h
  exact whenExposed_kept (fun s k => retrainPort_kept k) (Kept.refl _)

theorem execTrainingDone_kept {port : Nat} {rx tx : LaneTest} {hello : Hello} {s t : State} (h : execTrainingDone port rx tx hello s = .next t) : Kept s t := by
  obtain ⟨-, rfl⟩ := run_next s h
  exact whenAnswering_kept (fun s k => finishTraining_kept k) (Kept.refl _)

theorem execLaneLockLoss_kept {port : Nat} {replays : Bool} {s t : State} (h : execLaneLockLoss port replays s = .next t) : Kept s t := by
  obtain ⟨-, rfl⟩ := run_next s h
  exact whenAnswering_kept (fun s k => ite_kept (losePort_kept k) k) (Kept.refl _)

theorem execLaneErrorPeriod_kept {port : Nat} {errors : List Nat} {s t : State} (h : execLaneErrorPeriod port errors s = .next t) : Kept s t := by
  obtain ⟨-, rfl⟩ := run_next s h
  exact whenAnswering_kept (fun s k => wearLanes_kept k) (Kept.refl _)

theorem execFlitReceive_kept {port : Nat} {flit : Flit} {s t : State} (h : execFlitReceive port flit s = .next t) : Kept s t := by
  obtain ⟨-, rfl⟩ := run_next s h
  exact whenAnswering_kept (fun s k => receiveFlit_kept k) (Kept.refl _)

theorem execAckTimer_kept {port : Nat} {s t : State} (h : execAckTimer port s = .next t) : Kept s t := by
  obtain ⟨-, rfl⟩ := run_next s h
  exact whenAnswering_kept (fun s k => ite_kept (modPort_kept k) k) (Kept.refl _)

theorem execRoleSet_kept {head : MsgHead} {grant : RoleGrant} {s t : State} (h : execRoleSet head grant s = .next t) : Kept s t := by
  obtain ⟨-, rfl⟩ := run_next s h
  exact whenAnswering_kept (fun s k => takeRoleSet_kept k) (Kept.refl _)

theorem execRoleAck_kept {head : MsgHead} {position : Nat} {accepted : Bool} {s t : State} (h : execRoleAck head position accepted s = .next t) : Kept s t := by
  obtain ⟨-, rfl⟩ := run_next s h
  exact whenAnswering_kept (fun s k => takeRoleAck_kept k) (Kept.refl _)

theorem execResolve_kept {head : MsgHead} {byPosition : Bool} {which : Nat} {s t : State} (h : execResolve head byPosition which s = .next t) : Kept s t := by
  obtain ⟨-, rfl⟩ := run_next s h
  exact whenAnswering_kept (fun s k => answerResolve_kept k) (Kept.refl _)

theorem execResolveReply_kept {head : MsgHead} {moduleId epoch : Nat} {found : Bool} {s t : State} (h : execResolveReply head moduleId epoch found s = .next t) : Kept s t := by
  obtain ⟨-, rfl⟩ := run_next s h
  exact whenAnswering_kept (fun s k => takeResolve_kept k) (Kept.refl _)

theorem execStepPlan_kept {head : MsgHead} {plan : PlanBody} {s t : State} (h : execStepPlan head plan s = .next t) : Kept s t := by
  obtain ⟨-, rfl⟩ := run_next s h
  exact whenServing_kept (fun s k => takePlan_kept k) (Kept.refl _)

theorem execEvacuate_kept {head : MsgHead} {phase worker spare : Nat} {s t : State} (h : execEvacuate head phase worker spare s = .next t) : Kept s t := by
  obtain ⟨-, rfl⟩ := run_next s h
  exact whenServing_kept (fun s k => takeEvacuate_kept k) (Kept.refl _)

theorem execReady_kept {head : MsgHead} {body : ReadyBody} {s t : State} (h : execReady head body s = .next t) : Kept s t := by
  obtain ⟨-, rfl⟩ := run_next s h
  exact whenServing_kept (fun s k => takeReady_kept k) (Kept.refl _)

theorem execReadyTimeout_kept {missing : List Nat} {s t : State} (h : execReadyTimeout missing s = .next t) : Kept s t := by
  obtain ⟨-, rfl⟩ := run_next s h
  exact whenServing_kept (fun s k => abandonStep_kept k) (Kept.refl _)

theorem execJoinTimeout_kept {position : Nat} {s t : State} (h : execJoinTimeout position s = .next t) : Kept s t := by
  obtain ⟨w, rfl⟩ := run_next s h
  refine whenServing_kept (fun s k => ?_) (Kept.refl _)
  split
  · exact ite_kept k (declareFailed_kept k)
  · exact k

theorem execStart_kept {head : MsgHead} {startTime : Nat} {s t : State} (h : execStart head startTime s = .next t) : Kept s t := by
  obtain ⟨-, rfl⟩ := run_next s h
  exact whenServing_kept (fun s k => takeStart_kept k) (Kept.refl _)

theorem execAbort_kept {head : MsgHead} {s t : State} (h : execAbort head s = .next t) : Kept s t := by
  obtain ⟨-, rfl⟩ := run_next s h
  exact whenServing_kept (fun s k => takeAbort_kept k) (Kept.refl _)

theorem execAct_kept {head : MsgHead} {buffer : Nat} {data : List Word32} {s t : State} (h : execAct head buffer data s = .next t) : Kept s t := by
  obtain ⟨-, rfl⟩ := run_next s h
  exact whenServing_kept (fun s k => takeAct_kept k) (Kept.refl _)

theorem execRead_kept {head : MsgHead} {s t : State} (h : execRead head s = .next t) : Kept s t := by
  obtain ⟨-, rfl⟩ := run_next s h
  exact whenAnswering_kept (fun s k => serveReadMsg_kept k) (Kept.refl _)

theorem execReadData_kept {head : MsgHead} {status : Nat} {data : List Byte} {s t : State} (h : execReadData head status data s = .next t) : Kept s t := by
  obtain ⟨-, rfl⟩ := run_next s h
  exact whenAnswering_kept (fun s k => takeResponse_kept k) (Kept.refl _)

theorem execWrite_kept {head : MsgHead} {data : List Byte} {s t : State} (h : execWrite head data s = .next t) : Kept s t := by
  obtain ⟨-, rfl⟩ := run_next s h
  exact whenAnswering_kept (fun s k => serveWriteMsg_kept k) (Kept.refl _)

theorem execWriteAck_kept {head : MsgHead} {status : Nat} {s t : State} (h : execWriteAck head status s = .next t) : Kept s t := by
  obtain ⟨-, rfl⟩ := run_next s h
  exact whenAnswering_kept (fun s k => takeResponse_kept k) (Kept.refl _)

theorem execAtomic_kept {head : MsgHead} {elemType : Nat} {data : List Byte} {s t : State} (h : execAtomic head elemType data s = .next t) : Kept s t := by
  obtain ⟨-, rfl⟩ := run_next s h
  exact whenAnswering_kept (fun s k => serveAtomicMsg_kept k) (Kept.refl _)

theorem execPageData_kept {head : MsgHead} {lgn fill : Nat} {content : List Byte} {s t : State} (h : execPageData head lgn fill content s = .next t) : Kept s t := by
  obtain ⟨-, rfl⟩ := run_next s h
  exact whenServing_kept (fun s k => ite_kept (takePage_kept k) k) (Kept.refl _)

theorem execPageAck_kept {head : MsgHead} {lgns : List Nat} {s t : State} (h : execPageAck head lgns s = .next t) : Kept s t := by
  obtain ⟨-, rfl⟩ := run_next s h
  exact whenServing_kept (fun s k => takePageAck_kept k) (Kept.refl _)

theorem execBulkData_kept {head : MsgHead} {block offset : Nat} {content : List Byte} {s t : State} (h : execBulkData head block offset content s = .next t) : Kept s t := by
  obtain ⟨-, rfl⟩ := run_next s h
  exact whenServing_kept (fun s k => takeBulk_kept k) (Kept.refl _)

theorem execRequestTimeout_kept {destination tag : Nat} {s t : State} (h : execRequestTimeout destination tag s = .next t) : Kept s t := by
  obtain ⟨-, rfl⟩ := run_next s h
  exact whenAnswering_kept (fun s k => timeoutRequest_kept k) (Kept.refl _)

theorem execRaGo_kept {s t : State} (h : execRaGo s = .next t) : Kept s t := by
  obtain ⟨-, rfl⟩ := run_next s h
  exact whenExposed_kept (fun s k => goRa_kept k) (Kept.refl _)

theorem execBecomeDomainManager_kept {s t : State} (h : execBecomeDomainManager s = .next t) : Kept s t := by
  obtain ⟨-, rfl⟩ := run_next s h
  exact whenExposed_kept (fun s k => becomeManager_kept k) (Kept.refl _)

theorem execReturnToStandalone_kept {s t : State} (h : execReturnToStandalone s = .next t) : Kept s t := by
  obtain ⟨-, rfl⟩ := run_next s h
  exact whenExposed_kept (fun s k => leaveManager_kept k) (Kept.refl _)

theorem execEvacuationWipe_lived {s t : State} (h : execEvacuationWipe s = .next t) : Lived s t := by
  obtain ⟨-, rfl⟩ := run_next s h
  exact whenServing_cases (Lived.refl s) (wipeEvacuated_lived s)

theorem execIdeStreamInsecure_kept {stream : Nat} {s t : State} (h : execIdeStreamInsecure stream s = .next t) : Kept s t := by
  obtain ⟨-, rfl⟩ := run_next s h
  exact whenAnswering_kept (fun s k => ite_kept (modStream_kept k) k) (Kept.refl _)

theorem execEnroll_kept {c : SignedCommand} {s t : State} (h : execEnroll c s = .next t) : Kept s t := by
  obtain ⟨-, rfl⟩ := run_next s h
  exact whenAnswering_kept (fun s k => enroll_kept k) (Kept.refl _)

theorem execRevoke_kept {c : SignedCommand} {s t : State} (h : execRevoke c s = .next t) : Kept s t := by
  obtain ⟨-, rfl⟩ := run_next s h
  exact whenAnswering_kept (fun s k => revoke_kept k) (Kept.refl _)

theorem execGetVersion_kept {fn : Nat} {s t : State} (h : execGetVersion fn s = .next t) : Kept s t := by
  obtain ⟨-, rfl⟩ := run_next s h
  exact whenAttesting_kept (fun s k => reply_kept (modSpdm_kept k)) (Kept.refl _)

theorem execGetCapabilities_kept {fn : Nat} {s t : State} (h : execGetCapabilities fn s = .next t) : Kept s t := by
  obtain ⟨-, rfl⟩ := run_next s h
  exact whenAttesting_kept (fun s k => after_kept (fun s k => reply_kept (modSpdm_kept k)) k) (Kept.refl _)

theorem execNegotiateAlgorithms_kept {fn : Nat} {s t : State} (h : execNegotiateAlgorithms fn s = .next t) : Kept s t := by
  obtain ⟨-, rfl⟩ := run_next s h
  exact whenAttesting_kept (fun s k => after_kept (fun s k => reply_kept (modSpdm_kept k)) k) (Kept.refl _)

theorem execGetDigests_kept {fn : Nat} {s t : State} (h : execGetDigests fn s = .next t) : Kept s t := by
  obtain ⟨-, rfl⟩ := run_next s h
  exact whenAttesting_kept (fun s k => negotiated_kept (fun s k => reply_kept k) k) (Kept.refl _)

theorem execGetCertificate_kept {fn certSlot offset length : Nat} {s t : State} (h : execGetCertificate fn certSlot offset length s = .next t) : Kept s t := by
  obtain ⟨-, rfl⟩ := run_next s h
  exact whenAttesting_kept (fun s k => negotiated_kept (fun s k => certificate_kept k) k) (Kept.refl _)

theorem execChallenge_kept {fn certSlot : Nat} {nonce : BitVec 256} {s t : State} (h : execChallenge fn certSlot nonce s = .next t) : Kept s t := by
  obtain ⟨-, rfl⟩ := run_next s h
  exact whenAttesting_kept (fun s k => negotiated_kept (fun s k => ite_kept (signResponse_kept k) (reply_kept k)) k) (Kept.refl _)

theorem execGetMeasurements_kept {fn index : Nat} {signed : Bool} {nonce : BitVec 256} {s t : State} (h : execGetMeasurements fn index signed nonce s = .next t) : Kept s t := by
  obtain ⟨-, rfl⟩ := run_next s h
  exact whenAttesting_kept (fun s k => negotiated_kept (fun s k => measurements_kept k) k) (Kept.refl _)

theorem execKeyExchange_kept {fn certSlot : Nat} {share : List Byte} {s t : State} (h : execKeyExchange fn certSlot share s = .next t) : Kept s t := by
  obtain ⟨-, rfl⟩ := run_next s h
  exact whenAttesting_kept (fun s k => negotiated_kept (fun s k => beginSession_kept k) k) (Kept.refl _)

theorem execFinish_kept {fn session : Nat} {macOk : Bool} {s t : State} (h : execFinish fn session macOk s = .next t) : Kept s t := by
  obtain ⟨-, rfl⟩ := run_next s h
  exact whenAttesting_kept (fun s k => finishSession_kept k) (Kept.refl _)

theorem execHeartbeat_kept {fn session : Nat} {s t : State} (h : execHeartbeat fn session s = .next t) : Kept s t := by
  obtain ⟨-, rfl⟩ := run_next s h
  exact whenAttesting_kept (fun s k => inSession_kept (fun s k => reply_kept k) k) (Kept.refl _)

theorem execKeyUpdate_kept {fn session operation : Nat} {s t : State} (h : execKeyUpdate fn session operation s = .next t) : Kept s t := by
  obtain ⟨-, rfl⟩ := run_next s h
  exact whenAttesting_kept (fun s k => inSession_kept (fun s k => updateKeys_kept k) k) (Kept.refl _)

theorem execEndSession_kept {fn session : Nat} {s t : State} (h : execEndSession fn session s = .next t) : Kept s t := by
  obtain ⟨-, rfl⟩ := run_next s h
  exact whenAttesting_kept (fun s k => inSession_kept (fun s k => reply_kept (modSpdm_kept k)) k) (Kept.refl _)

theorem execGetPqSignature_kept {fn : Nat} {s t : State} (h : execGetPqSignature fn s = .next t) : Kept s t := by
  obtain ⟨-, rfl⟩ := run_next s h
  exact whenAttesting_kept (fun s k => negotiated_kept (fun s k => pqSignature_kept k) k) (Kept.refl _)

theorem execGetPqCertificate_kept {fn offset : Nat} {s t : State} (h : execGetPqCertificate fn offset s = .next t) : Kept s t := by
  obtain ⟨-, rfl⟩ := run_next s h
  exact whenAttesting_kept (fun s k => negotiated_kept (fun s k => reply_kept k) k) (Kept.refl _)

theorem execSidebandPowerRead_kept {command : Nat} {s t : State} (h : execSidebandPowerRead command s = .next t) : Kept s t := by
  obtain ⟨-, rfl⟩ := run_next s h
  exact whenOn_kept (fun s k => readPower_kept k) (Kept.refl _)

theorem execSidebandBmcLimit_kept {value : Option Word32} {s t : State} (h : execSidebandBmcLimit value s = .next t) : Kept s t := by
  obtain ⟨-, rfl⟩ := run_next s h
  exact whenOn_kept (fun s k => bmcLimit_kept k) (Kept.refl _)

theorem execSidebandIndicators_kept {value : Option Word32} {s t : State} (h : execSidebandIndicators value s = .next t) : Kept s t := by
  obtain ⟨-, rfl⟩ := run_next s h
  exact whenOn_kept (fun s k => indicators_kept k) (Kept.refl _)

theorem execSidebandStatusRead_kept {s t : State} (h : execSidebandStatusRead s = .next t) : Kept s t := by
  obtain ⟨-, rfl⟩ := run_next s h
  exact whenOn_kept (fun s k => answerWord_kept k) (Kept.refl _)

theorem execSidebandCauseRead_kept {s t : State} (h : execSidebandCauseRead s = .next t) : Kept s t := by
  obtain ⟨-, rfl⟩ := run_next s h
  exact whenOn_kept (fun s k => answerWord_kept k) (Kept.refl _)

theorem execSidebandIndirectAddress_kept {value : Option Word32} {s t : State} (h : execSidebandIndirectAddress value s = .next t) : Kept s t := by
  obtain ⟨-, rfl⟩ := run_next s h
  exact whenOn_kept (fun s k => indirectAddress_kept k) (Kept.refl _)

theorem execSidebandIndirectRead_kept {s t : State} (h : execSidebandIndirectRead s = .next t) : Kept s t := by
  obtain ⟨-, rfl⟩ := run_next s h
  exact whenOn_kept (fun s k => readIndirect_kept k) (Kept.refl _)

theorem execI3cDynamicAddress_kept {address : Nat} {s t : State} (h : execI3cDynamicAddress address s = .next t) : Kept s t := by
  obtain ⟨-, rfl⟩ := run_next s h
  exact whenOn_kept (fun s k => k.same) (Kept.refl _)

theorem execFuseRead_kept {q : Nat} {s t : State} (h : execFuseRead q s = .next t) : Kept s t := by
  obtain ⟨-, rfl⟩ := run_next s h
  exact whenOn_kept (fun s k => whenRepairable_kept (fun s k => readFuses_kept k) k) (Kept.refl _)

theorem execSpareMap_kept {q layer bank : Nat} {s t : State} (h : execSpareMap q layer bank s = .next t) : Kept s t := by
  obtain ⟨-, rfl⟩ := run_next s h
  exact whenOn_kept (fun s k => whenRepairable_kept (fun s k => readSpares_kept k) k) (Kept.refl _)

theorem execHealthRead_kept {q : Nat} {s t : State} (h : execHealthRead q s = .next t) : Kept s t := by
  obtain ⟨-, rfl⟩ := run_next s h
  exact whenOn_kept (fun s k => whenRepairable_kept (fun s k => reply_kept k) k) (Kept.refl _)

theorem execRepairStage_kept {r : Repair} {s t : State} (h : execRepairStage r s = .next t) : Kept s t := by
  obtain ⟨-, rfl⟩ := run_next s h
  exact whenOn_kept (fun s k => whenRepairable_kept (fun s k => k.same) k) (Kept.refl _)

theorem execTimeRequestReceived_kept {head : MsgHead} {sequence t1 requestCorrection : Nat} {s t : State} (h : execTimeRequestReceived head sequence t1 requestCorrection s = .next t) : Kept s t := by
  obtain ⟨-, rfl⟩ := run_next s h
  exact whenAnswering_kept (fun s k => answerTime_kept k) (Kept.refl _)

theorem execRefInPresent_kept {s t : State} (h : execRefInPresent s = .next t) : Kept s t := by
  obtain ⟨-, rfl⟩ := run_next s h
  exact whenAnswering_kept (fun s k => clockSame_kept k rfl rfl) (Kept.refl _)

theorem execWeirRefill_kept {s t : State} (h : execWeirRefill s = .next t) : Kept s t := by
  obtain ⟨-, rfl⟩ := run_next s h
  exact whenAnswering_kept (fun s k => weirSlot_kept k) (Kept.refl _)

theorem execIdeKm_kept {stream : Nat} {secured : Bool} {operation : Nat} {s t : State} (h : execIdeKm stream secured operation s = .next t) : Kept s t := by
  obtain ⟨-, rfl⟩ := run_next s h
  exact whenAttesting_kept (fun s k => takeKm_kept k) (Kept.refl _)

theorem execDoeDiscovery_kept {fn index : Nat} {s t : State} (h : execDoeDiscovery fn index s = .next t) : Kept s t := by
  obtain ⟨-, rfl⟩ := run_next s h
  exact whenAnswering_kept (fun s k => discover_kept k) (Kept.refl _)

end Sys2Proof.Laws
end

