-- ==== Sys2Proof/Laws/Exec.lean ====
section
/-! SUPPORT. What exec answers for each command that names only what the LT9 has: the command's effect on the state. -/

set_option Elab.async false

namespace Sys2Proof.Laws

open Sys2Proof.Machine

theorem exec_doorbellInvalidate {tenant qp : Nat} {host : HostUpdate} {s : State} (w : (Instr.doorbellInvalidate tenant qp host).wf = true) :
    exec (.doorbellInvalidate tenant qp host) s = .next ((fun s =>
    let s := hostChange host s
    if (s.qp tenant qp).polled then s else readDoorbell tenant qp s) s) :=
  run_wf s (fun s =>
    let s := hostChange host s
    if (s.qp tenant qp).polled then s else readDoorbell tenant qp s) w

theorem exec_doorbellPoll {tenant qp : Nat} {host : HostUpdate} {s : State} (w : (Instr.doorbellPoll tenant qp host).wf = true) :
    exec (.doorbellPoll tenant qp host) s = .next ((fun s =>
    let s := hostChange host s
    if (s.qp tenant qp).polled then readDoorbell tenant qp s else s) s) :=
  run_wf s (fun s =>
    let s := hostChange host s
    if (s.qp tenant qp).polled then readDoorbell tenant qp s else s) w

theorem exec_atsInvalidation {pasid base size : Nat} {host : HostUpdate} {s : State} (w : (Instr.atsInvalidation pasid base size host).wf = true) :
    exec (.atsInvalidation pasid base size host) s = .next ((fun s =>
    let s := hostChange host s
    forEach (coveredQps s pasid base size) (fun x s =>
      let q := s.qp x.1 x.2
      if q.state = .active ∧ !q.polled then
        let line := ((translate s.host.ranges pasid (s.dbAddr x.1 x.2)).getD 0)
        if !s.serving ∨ translates s x.1 (s.dbAddr x.1 x.2) 64 false then
          readDoorbell x.1 x.2 (modQp x.1 x.2 (fun y => { y with held := false, line := line }) s)
        else qpError x.1 x.2 rsDbFault (modQp x.1 x.2 (fun y => { y with held := false }) s)
      else s) s) s) :=
  run_wf s (fun s =>
    let s := hostChange host s
    forEach (coveredQps s pasid base size) (fun x s =>
      let q := s.qp x.1 x.2
      if q.state = .active ∧ !q.polled then
        let line := ((translate s.host.ranges pasid (s.dbAddr x.1 x.2)).getD 0)
        if !s.serving ∨ translates s x.1 (s.dbAddr x.1 x.2) 64 false then
          readDoorbell x.1 x.2 (modQp x.1 x.2 (fun y => { y with held := false, line := line }) s)
        else qpError x.1 x.2 rsDbFault (modQp x.1 x.2 (fun y => { y with held := false }) s)
      else s) s) w

theorem exec_openSeq {d : Fetched} {s : State} (w : (Instr.openSeq d).wf = true) :
    exec (.openSeq d) s = .next ((whenServing (takeEffect openEffect d)) s) :=
  run_wf s (whenServing (takeEffect openEffect d)) w

theorem exec_append {d : Fetched} {s : State} (w : (Instr.append d).wf = true) :
    exec (.append d) s = .next ((whenServing (takeEffect appendEffect d)) s) :=
  run_wf s (whenServing (takeEffect appendEffect d)) w

theorem exec_pause {d : Fetched} {s : State} (w : (Instr.pause d).wf = true) :
    exec (.pause d) s = .next ((whenServing (takeEffect pauseEffect d)) s) :=
  run_wf s (whenServing (takeEffect pauseEffect d)) w

theorem exec_resume {d : Fetched} {s : State} (w : (Instr.resume d).wf = true) :
    exec (.resume d) s = .next ((whenServing (takeEffect resumeEffect d)) s) :=
  run_wf s (whenServing (takeEffect resumeEffect d)) w

theorem exec_cancel {d : Fetched} {s : State} (w : (Instr.cancel d).wf = true) :
    exec (.cancel d) s = .next ((whenServing (takeEffect cancelEffect d)) s) :=
  run_wf s (whenServing (takeEffect cancelEffect d)) w

theorem exec_close {d : Fetched} {s : State} (w : (Instr.close d).wf = true) :
    exec (.close d) s = .next ((whenServing (takeEffect closeEffect d)) s) :=
  run_wf s (whenServing (takeEffect closeEffect d)) w

theorem exec_exportPrefix {d : Fetched} {s : State} (w : (Instr.exportPrefix d).wf = true) :
    exec (.exportPrefix d) s = .next ((whenServing (takeEffect exportEffect d)) s) :=
  run_wf s (whenServing (takeEffect exportEffect d)) w

theorem exec_importPrefix {d : Fetched} {s : State} (w : (Instr.importPrefix d).wf = true) :
    exec (.importPrefix d) s = .next ((whenServing (takeEffect importEffect d)) s) :=
  run_wf s (whenServing (takeEffect importEffect d)) w

theorem exec_dropPrefix {d : Fetched} {s : State} (w : (Instr.dropPrefix d).wf = true) :
    exec (.dropPrefix d) s = .next ((whenServing (takeEffect dropEffect d)) s) :=
  run_wf s (whenServing (takeEffect dropEffect d)) w

theorem exec_embedLookup {d : Fetched} {s : State} (w : (Instr.embedLookup d).wf = true) :
    exec (.embedLookup d) s = .next ((whenServing (takeEffect lookupEffect d)) s) :=
  run_wf s (whenServing (takeEffect lookupEffect d)) w

theorem exec_query {d : Fetched} {s : State} (w : (Instr.query d).wf = true) :
    exec (.query d) s = .next ((whenServing (takeEffect queryEffect d)) s) :=
  run_wf s (whenServing (takeEffect queryEffect d)) w

theorem exec_fence {d : Fetched} {s : State} (w : (Instr.fence d).wf = true) :
    exec (.fence d) s = .next ((whenServing (takeEffect fenceEffect d)) s) :=
  run_wf s (whenServing (takeEffect fenceEffect d)) w

theorem exec_loadModel {d : Fetched} {s : State} (w : (Instr.loadModel d).wf = true) :
    exec (.loadModel d) s = .next ((whenServing (takeEffect loadModelEffect d)) s) :=
  run_wf s (whenServing (takeEffect loadModelEffect d)) w

theorem exec_unloadModel {d : Fetched} {s : State} (w : (Instr.unloadModel d).wf = true) :
    exec (.unloadModel d) s = .next ((whenServing (takeEffect unloadModelEffect d)) s) :=
  run_wf s (whenServing (takeEffect unloadModelEffect d)) w

theorem exec_loadAdapter {d : Fetched} {s : State} (w : (Instr.loadAdapter d).wf = true) :
    exec (.loadAdapter d) s = .next ((whenServing (takeEffect loadAdapterEffect d)) s) :=
  run_wf s (whenServing (takeEffect loadAdapterEffect d)) w

theorem exec_unloadAdapter {d : Fetched} {s : State} (w : (Instr.unloadAdapter d).wf = true) :
    exec (.unloadAdapter d) s = .next ((whenServing (takeEffect unloadAdapterEffect d)) s) :=
  run_wf s (whenServing (takeEffect unloadAdapterEffect d)) w

theorem exec_loadTable {d : Fetched} {s : State} (w : (Instr.loadTable d).wf = true) :
    exec (.loadTable d) s = .next ((whenServing (takeEffect loadTableEffect d)) s) :=
  run_wf s (whenServing (takeEffect loadTableEffect d)) w

theorem exec_replay {d : Fetched} {s : State} (w : (Instr.replay d).wf = true) :
    exec (.replay d) s = .next ((whenServing (takeEffect replayEffect d)) s) :=
  run_wf s (whenServing (takeEffect replayEffect d)) w

theorem exec_setTenant {d : Fetched} {s : State} (w : (Instr.setTenant d).wf = true) :
    exec (.setTenant d) s = .next ((whenServing (takeEffect setTenantEffect d)) s) :=
  run_wf s (whenServing (takeEffect setTenantEffect d)) w

theorem exec_loadFinish {host : HostUpdate} {s : State} (w : (Instr.loadFinish host).wf = true) :
    exec (.loadFinish host) s = .next ((whenServing fun s => finishRunning (hostChange host s)) s) :=
  run_wf s (whenServing fun s => finishRunning (hostChange host s)) w

theorem exec_sweepDone {slot tensor : Nat} {s : State} (w : (Instr.sweepDone slot tensor).wf = true) :
    exec (.sweepDone slot tensor) s = .next ((whenServing (finishSweep slot tensor)) s) :=
  run_wf s (whenServing (finishSweep slot tensor)) w

theorem exec_stepBoundary {input : BoundaryInput} {s : State} (w : (Instr.stepBoundary input).wf = true) :
    exec (.stepBoundary input) s = .next ((whenServing (stepBoundary input)) s) :=
  run_wf s (whenServing (stepBoundary input)) w

theorem exec_waitPeriod {s : State} (w : (Instr.waitPeriod).wf = true) :
    exec .waitPeriod s = .next ((whenServing waitPeriod) s) :=
  run_wf s (whenServing waitPeriod) w

theorem exec_stepStart {work : List EngineOp} {s : State} (w : (Instr.stepStart work).wf = true) :
    exec (.stepStart work) s = .next ((whenServing (startStep work)) s) :=
  run_wf s (whenServing (startStep work)) w

theorem exec_routingPoint {layer : Nat} {routes : List RouteRow} {s : State} (w : (Instr.routingPoint layer routes).wf = true) :
    exec (.routingPoint layer routes) s = .next ((whenServing (routeLayer layer routes)) s) :=
  run_wf s (whenServing (routeLayer layer routes)) w

theorem exec_holdPoint {blocks : List Nat} {s : State} (w : (Instr.holdPoint blocks).wf = true) :
    exec (.holdPoint blocks) s = .next ((whenServing (holdTest blocks)) s) :=
  run_wf s (whenServing (holdTest blocks)) w

theorem exec_holdTimeout {block : Nat} {s : State} (w : (Instr.holdTimeout block).wf = true) :
    exec (.holdTimeout block) s = .next ((whenServing (timeoutHold block)) s) :=
  run_wf s (whenServing (timeoutHold block)) w

theorem exec_hostWindow {q layer : Nat} {s : State} (w : (Instr.hostWindow q layer).wf = true) :
    exec (.hostWindow q layer) s = .next ((whenServing (serveWindow (q * 8 + layer))) s) :=
  run_wf s (whenServing (serveWindow (q * 8 + layer))) w

theorem exec_timingFault {domain : DomainId} {unit slot : Nat} {s : State} (w : (Instr.timingFault domain unit slot).wf = true) :
    exec (.timingFault domain unit slot) s = .next ((whenServing (timingFault domain unit slot)) s) :=
  run_wf s (whenServing (timingFault domain unit slot)) w

theorem exec_controlFault {domain : DomainId} {unit slot : Nat} {commandError : Bool} {s : State} (w : (Instr.controlFault domain unit slot commandError).wf = true) :
    exec (.controlFault domain unit slot commandError) s = .next ((whenServing (controlFault domain unit slot commandError)) s) :=
  run_wf s (whenServing (controlFault domain unit slot commandError)) w

theorem exec_dataError {target : Damaged} {err : DataErr} {consumed : Bool} {s : State} (w : (Instr.dataError target err consumed).wf = true) :
    exec (.dataError target err consumed) s = .next ((whenServing (dataError target err consumed)) s) :=
  run_wf s (whenServing (dataError target err consumed)) w

theorem exec_refetchDone {block : Nat} {ok : Bool} {s : State} (w : (Instr.refetchDone block ok).wf = true) :
    exec (.refetchDone block ok) s = .next ((whenServing (refetchDone block ok)) s) :=
  run_wf s (whenServing (refetchDone block ok)) w

theorem exec_promotionDone {block : Nat} {err : Option DataErr} {s : State} (w : (Instr.promotionDone block err).wf = true) :
    exec (.promotionDone block err) s = .next ((whenServing (promotionDone block err)) s) :=
  run_wf s (whenServing (promotionDone block err)) w

theorem exec_demotionDone {block : Nat} {err : Option DataErr} {s : State} (w : (Instr.demotionDone block err).wf = true) :
    exec (.demotionDone block err) s = .next ((whenServing (demotionDone block err)) s) :=
  run_wf s (whenServing (demotionDone block err)) w

theorem exec_spillDone {lgn : Nat} {s : State} (w : (Instr.spillDone lgn).wf = true) :
    exec (.spillDone lgn) s = .next ((whenServing (spillDone lgn)) s) :=
  run_wf s (whenServing (spillDone lgn)) w

theorem exec_prefetchDone {lgn : Nat} {ok : Bool} {s : State} (w : (Instr.prefetchDone lgn ok).wf = true) :
    exec (.prefetchDone lgn ok) s = .next ((whenServing (prefetchDone lgn ok)) s) :=
  run_wf s (whenServing (prefetchDone lgn ok)) w

theorem exec_tailCopyDone {ctx : Nat} {s : State} (w : (Instr.tailCopyDone ctx).wf = true) :
    exec (.tailCopyDone ctx) s = .next ((whenServing (tailCopyDone ctx)) s) :=
  run_wf s (whenServing (tailCopyDone ctx)) w

theorem exec_diversionCopyDone {q layer quad : Nat} {s : State} (w : (Instr.diversionCopyDone q layer quad).wf = true) :
    exec (.diversionCopyDone q layer quad) s = .next ((whenServing (diversionDone q layer quad)) s) :=
  run_wf s (whenServing (diversionDone q layer quad)) w

theorem exec_prefixHashDone {ctx page : Nat} {s : State} (w : (Instr.prefixHashDone ctx page).wf = true) :
    exec (.prefixHashDone ctx page) s = .next ((whenServing (hashDone ctx page)) s) :=
  run_wf s (whenServing (hashDone ctx page)) w

theorem exec_prefixLookupDone {ctx : Nat} {s : State} (w : (Instr.prefixLookupDone ctx).wf = true) :
    exec (.prefixLookupDone ctx) s = .next ((whenServing (lookupDone ctx)) s) :=
  run_wf s (whenServing (lookupDone ctx)) w

theorem exec_scrubPass {findings : List ScrubFinding} {s : State} (w : (Instr.scrubPass findings).wf = true) :
    exec (.scrubPass findings) s = .next ((whenServing (scrub findings)) s) :=
  run_wf s (whenServing (scrub findings)) w

theorem exec_sluiceSeal {block : Nat} {s : State} (w : (Instr.sluiceSeal block).wf = true) :
    exec (.sluiceSeal block) s = .next ((whenExposed (queueSluice .seal block)) s) :=
  run_wf s (whenExposed (queueSluice .seal block)) w

theorem exec_sluiceUnseal {block : Nat} {s : State} (w : (Instr.sluiceUnseal block).wf = true) :
    exec (.sluiceUnseal block) s = .next ((whenExposed (queueSluice .unseal block)) s) :=
  run_wf s (whenExposed (queueSluice .unseal block)) w

theorem exec_sluiceRelease {block : Nat} {s : State} (w : (Instr.sluiceRelease block).wf = true) :
    exec (.sluiceRelease block) s = .next ((whenExposed (queueSluice .release block)) s) :=
  run_wf s (whenExposed (queueSluice .release block)) w

theorem exec_qpEnable {path : RegPath} {tenant qp : Nat} {s : State} (w : (Instr.qpEnable path tenant qp).wf = true) :
    exec (.qpEnable path tenant qp) s = .next ((whenExposed (enableQp path tenant qp)) s) :=
  run_wf s (whenExposed (enableQp path tenant qp)) w

theorem exec_qpDisable {path : RegPath} {tenant qp : Nat} {s : State} (w : (Instr.qpDisable path tenant qp).wf = true) :
    exec (.qpDisable path tenant qp) s = .next ((whenExposed (disableQp path tenant qp)) s) :=
  run_wf s (whenExposed (disableQp path tenant qp)) w

theorem exec_moderationWrite {path : RegPath} {tenant vector count time : Nat} {s : State} (w : (Instr.moderationWrite path tenant vector count time).wf = true) :
    exec (.moderationWrite path tenant vector count time) s = .next ((whenExposed (writeTenantWord path tenant (0x3100 + 4 * vector) (count % 2 ^ 9 + time % 2 ^ 10 * 2 ^ 16))) s) :=
  run_wf s (whenExposed (writeTenantWord path tenant (0x3100 + 4 * vector) (count % 2 ^ 9 + time % 2 ^ 10 * 2 ^ 16))) w

theorem exec_vectorTimeThreshold {tenant vector : Nat} {s : State} (w : (Instr.vectorTimeThreshold tenant vector).wf = true) :
    exec (.vectorTimeThreshold tenant vector) s = .next ((whenServing fun s =>
    if moderationMet s tenant vector then fireVector tenant vector s else s) s) :=
  run_wf s (whenServing fun s =>
    if moderationMet s tenant vector then fireVector tenant vector s else s) w

theorem exec_msixUnmask {tenant : Nat} {change : MsixChange} {s : State} (w : (Instr.msixUnmask tenant change).wf = true) :
    exec (.msixUnmask tenant change) s = .next ((whenExposed (changeMsix tenant change)) s) :=
  run_wf s (whenExposed (changeMsix tenant change)) w

theorem exec_latchCapture {path : RegPath} {time : Bool} {tenant : Nat} {latches : BitVec 2} {s : State} (w : (Instr.latchCapture path time tenant latches).wf = true) :
    exec (.latchCapture path time tenant latches) s = .next ((whenExposed (capture path time tenant latches)) s) :=
  run_wf s (whenExposed (capture path time tenant latches)) w

theorem exec_tenantSeal {path : RegPath} {tenant : Nat} {s : State} (w : (Instr.tenantSeal path tenant).wf = true) :
    exec (.tenantSeal path tenant) s = .next ((whenExposed (writeTenantWord path tenant 0x18 1)) s) :=
  run_wf s (whenExposed (writeTenantWord path tenant 0x18 1)) w

theorem exec_sealSet {bits : BitVec 6} {s : State} (w : (Instr.sealSet bits).wf = true) :
    exec (.sealSet bits) s = .next ((whenAnswering (setSeals bits)) s) :=
  run_wf s (whenAnswering (setSeals bits)) w

theorem exec_registerWrite {path : RegPath} {offset size : Nat} {value : Word64} {s : State} (w : (Instr.registerWrite path offset size value).wf = true) :
    exec (.registerWrite path offset size value) s = .next ((whenAnswering (hostWriteRegister path offset size value.toNat)) s) :=
  run_wf s (whenAnswering (hostWriteRegister path offset size value.toNat)) w

theorem exec_coldReset {cause : ColdCause} {s : State} (w : (Instr.coldReset cause).wf = true) :
    exec (.coldReset cause) s = .next ((whenOn (requestCold cause)) s) :=
  run_wf s (whenOn (requestCold cause)) w

theorem exec_warmReset {cause : WarmCause} {s : State} (w : (Instr.warmReset cause).wf = true) :
    exec (.warmReset cause) s = .next ((whenAnswering (requestWarm (decide (cause = .hotReset)))) s) :=
  run_wf s (whenAnswering (requestWarm (decide (cause = .hotReset)))) w

theorem exec_functionLevelReset {tenant : Nat} {s : State} (w : (Instr.functionLevelReset tenant).wf = true) :
    exec (.functionLevelReset tenant) s = .next ((whenAnswering (resetFunction tenant)) s) :=
  run_wf s (whenAnswering (resetFunction tenant)) w

theorem exec_flrClearDone {tenant : Nat} {s : State} (w : (Instr.flrClearDone tenant).wf = true) :
    exec (.flrClearDone tenant) s = .next ((whenAnswering (finishFlr tenant)) s) :=
  run_wf s (whenAnswering (finishFlr tenant)) w

theorem exec_removeReq {s : State} (w : (Instr.removeReq).wf = true) :
    exec .removeReq s = .next ((whenAnswering requestRemoval) s) :=
  run_wf s (whenAnswering requestRemoval) w

theorem exec_dumpRelease {s : State} (w : (Instr.dumpRelease).wf = true) :
    exec .dumpRelease s = .next ((whenAnswering releaseDump) s) :=
  run_wf s (whenAnswering releaseDump) w

theorem exec_powerOn {perstAsserted : Bool} {s : State} (w : (Instr.powerOn perstAsserted).wf = true) :
    exec (.powerOn perstAsserted) s = .next ((fun s => if s.power.on then s else powerUp perstAsserted s) s) :=
  run_wf s (fun s => if s.power.on then s else powerUp perstAsserted s) w

theorem exec_trainingComplete {linkWidth linkRate : Nat} {cxlCache : Bool} {s : State} (w : (Instr.trainingComplete linkWidth linkRate cxlCache).wf = true) :
    exec (.trainingComplete linkWidth linkRate cxlCache) s = .next ((whenAnswering (completeTraining linkWidth linkRate cxlCache)) s) :=
  run_wf s (whenAnswering (completeTraining linkWidth linkRate cxlCache)) w

theorem exec_wipeDone {s : State} (w : (Instr.wipeDone).wf = true) :
    exec .wipeDone s = .next ((whenAnswering finishWipe) s) :=
  run_wf s (whenAnswering finishWipe) w

theorem exec_cxlLinkRetrain {width rate : Nat} {cxlCache : Bool} {s : State} (w : (Instr.cxlLinkRetrain width rate cxlCache).wf = true) :
    exec (.cxlLinkRetrain width rate cxlCache) s = .next ((whenAnswering (trainLink width rate cxlCache)) s) :=
  run_wf s (whenAnswering (trainLink width rate cxlCache)) w

theorem exec_powerWarn {vin : Nat} {s : State} (w : (Instr.powerWarn vin).wf = true) :
    exec (.powerWarn vin) s = .next ((whenOn fun s =>
    if outOfRange vin then settleAlert { s with power := { s.power with vin := vin, warn := true } } else s) s) :=
  run_wf s (whenOn fun s =>
    if outOfRange vin then settleAlert { s with power := { s.power with vin := vin, warn := true } } else s) w

theorem exec_powerWarnClear {vin : Nat} {s : State} (w : (Instr.powerWarnClear vin).wf = true) :
    exec (.powerWarnClear vin) s = .next ((whenOn fun s =>
    if outOfRange vin then s else settleAlert { s with power := { s.power with vin := vin, warn := false } }) s) :=
  run_wf s (whenOn fun s =>
    if outOfRange vin then s else settleAlert { s with power := { s.power with vin := vin, warn := false } }) w

theorem exec_inputInterruption {s : State} (w : (Instr.inputInterruption).wf = true) :
    exec .inputInterruption s = .next ((whenOn fun s =>
    { s with power := { s.power with interruptions := (s.power.interruptions + 1) % 2 ^ 32 } }) s) :=
  run_wf s (whenOn fun s =>
    { s with power := { s.power with interruptions := (s.power.interruptions + 1) % 2 ^ 32 } }) w

theorem exec_powerLoss {s : State} (w : (Instr.powerLoss).wf = true) :
    exec .powerLoss s = .next ((whenOn losePower) s) :=
  run_wf s (whenOn losePower) w

theorem exec_phaseFault {phase : Nat} {s : State} (w : (Instr.phaseFault phase).wf = true) :
    exec (.phaseFault phase) s = .next ((whenServing (phaseFault phase)) s) :=
  run_wf s (whenServing (phaseFault phase)) w

theorem exec_railFault {s : State} (w : (Instr.railFault).wf = true) :
    exec .railFault s = .next ((whenAnswering (fatal 0x14 noDomain)) s) :=
  run_wf s (whenAnswering (fatal 0x14 noDomain)) w

theorem exec_cxlLinkLoss {s : State} (w : (Instr.cxlLinkLoss).wf = true) :
    exec .cxlLinkLoss s = .next ((whenAnswering linkLoss) s) :=
  run_wf s (whenAnswering linkLoss) w

theorem exec_layerOvertemp {q layer : Nat} {quarterDegrees : Int} {s : State} (w : (Instr.layerOvertemp q layer quarterDegrees).wf = true) :
    exec (.layerOvertemp q layer quarterDegrees) s = .next ((whenServing (layerOvertemp q layer quarterDegrees)) s) :=
  run_wf s (whenServing (layerOvertemp q layer quarterDegrees)) w

theorem exec_wearThreshold {domain : DomainId} {unit : Nat} {s : State} (w : (Instr.wearThreshold domain unit).wf = true) :
    exec (.wearThreshold domain unit) s = .next ((whenServing (wear domain unit)) s) :=
  run_wf s (whenServing (wear domain unit)) w

theorem exec_escalation {domain : DomainId} {unit : Nat} {s : State} (w : (Instr.escalation domain unit).wf = true) :
    exec (.escalation domain unit) s = .next ((whenServing (escalateDomain domain unit)) s) :=
  run_wf s (whenServing (escalateDomain domain unit)) w

theorem exec_coreWatchdog {core : Nat} {s : State} (w : (Instr.coreWatchdog core).wf = true) :
    exec (.coreWatchdog core) s = .next ((whenServing (haltCore core 0x0A)) s) :=
  run_wf s (whenServing (haltCore core 0x0A)) w

theorem exec_coreRestartDone {core : Nat} {passed : Bool} {s : State} (w : (Instr.coreRestartDone core passed).wf = true) :
    exec (.coreRestartDone core passed) s = .next ((whenServing (restartCore core passed)) s) :=
  run_wf s (whenServing (restartCore core passed)) w

theorem exec_channelTrainingLoss {tier channel : Nat} {s : State} (w : (Instr.channelTrainingLoss tier channel).wf = true) :
    exec (.channelTrainingLoss tier channel) s = .next ((whenServing (loseChannel tier channel 0x09)) s) :=
  run_wf s (whenServing (loseChannel tier channel 0x09)) w

theorem exec_channelRetrained {tier channel : Nat} {s : State} (w : (Instr.channelRetrained tier channel).wf = true) :
    exec (.channelRetrained tier channel) s = .next ((whenServing (retrainedChannel tier channel)) s) :=
  run_wf s (whenServing (retrainedChannel tier channel)) w

theorem exec_fatalFault {cause : Nat} {domain : DomainId} {hasQuad : Bool} {s : State} (w : (Instr.fatalFault cause domain hasQuad).wf = true) :
    exec (.fatalFault cause domain hasQuad) s = .next ((whenAnswering (fatalFault cause domain hasQuad)) s) :=
  run_wf s (whenAnswering (fatalFault cause domain hasQuad)) w

theorem exec_dumpDone {hostWriteFailed : Bool} {s : State} (w : (Instr.dumpDone hostWriteFailed).wf = true) :
    exec (.dumpDone hostWriteFailed) s = .next ((whenAnswering (finishDump hostWriteFailed)) s) :=
  run_wf s (whenAnswering (finishDump hostWriteFailed)) w

theorem exec_attentionPress {heldMs : Nat} {s : State} (w : (Instr.attentionPress heldMs).wf = true) :
    exec (.attentionPress heldMs) s = .next ((whenOn (closeButton heldMs)) s) :=
  run_wf s (whenOn (closeButton heldMs)) w

theorem exec_latchOpen {s : State} (w : (Instr.latchOpen).wf = true) :
    exec .latchOpen s = .next ((whenOn openLatch) s) :=
  run_wf s (whenOn openLatch) w

theorem exec_latchClose {s : State} (w : (Instr.latchClose).wf = true) :
    exec .latchClose s = .next ((whenOn closeLatch) s) :=
  run_wf s (whenOn closeLatch) w

theorem exec_latchTimeout {s : State} (w : (Instr.latchTimeout).wf = true) :
    exec .latchTimeout s = .next ((whenOn fun s =>
    if s.boot.latchOpen ∧ s.boot.linkWidth ≠ 0 then { s with boot := { s.boot with latchExpired := true } } else s) s) :=
  run_wf s (whenOn fun s =>
    if s.boot.latchOpen ∧ s.boot.linkWidth ≠ 0 then { s with boot := { s.boot with latchExpired := true } } else s) w

theorem exec_refInLock {steer : Int} {s : State} (w : (Instr.refInLock steer).wf = true) :
    exec (.refInLock steer) s = .next ((whenAnswering (lockRef steer)) s) :=
  run_wf s (whenAnswering (lockRef steer)) w

theorem exec_refInLoss {s : State} (w : (Instr.refInLoss).wf = true) :
    exec .refInLoss s = .next ((whenAnswering loseRef) s) :=
  run_wf s (whenAnswering loseRef) w

theorem exec_ppsOut {s : State} (w : (Instr.ppsOut).wf = true) :
    exec .ppsOut s = .next ((whenAnswering pulse) s) :=
  run_wf s (whenAnswering pulse) w

theorem exec_timeRequest {s : State} (w : (Instr.timeRequest).wf = true) :
    exec .timeRequest s = .next ((whenAnswering requestTime) s) :=
  run_wf s (whenAnswering requestTime) w

theorem exec_timeReply {head : MsgHead} {body : TimeReplyBody} {s : State} (w : (Instr.timeReply head body).wf = true) :
    exec (.timeReply head body) s = .next ((whenAnswering (takeTimeReply head body)) s) :=
  run_wf s (whenAnswering (takeTimeReply head body)) w

theorem exec_timeSet {value : Word64} {s : State} (w : (Instr.timeSet value).wf = true) :
    exec (.timeSet value) s = .next ((whenExposed (setTime value.toNat)) s) :=
  run_wf s (whenExposed (setTime value.toNat)) w

theorem exec_portEnable {port : Nat} {cableOk : Bool} {s : State} (w : (Instr.portEnable port cableOk).wf = true) :
    exec (.portEnable port cableOk) s = .next ((whenExposed (enablePort port cableOk)) s) :=
  run_wf s (whenExposed (enablePort port cableOk)) w

theorem exec_portDisable {port : Nat} {s : State} (w : (Instr.portDisable port).wf = true) :
    exec (.portDisable port) s = .next ((whenExposed (disablePort port)) s) :=
  run_wf s (whenExposed (disablePort port)) w

theorem exec_retrain {port : Nat} {s : State} (w : (Instr.retrain port).wf = true) :
    exec (.retrain port) s = .next ((whenExposed (retrainPort port)) s) :=
  run_wf s (whenExposed (retrainPort port)) w

theorem exec_trainingDone {port : Nat} {rx tx : LaneTest} {hello : Hello} {s : State} (w : (Instr.trainingDone port rx tx hello).wf = true) :
    exec (.trainingDone port rx tx hello) s = .next ((whenAnswering (finishTraining port rx tx hello)) s) :=
  run_wf s (whenAnswering (finishTraining port rx tx hello)) w

theorem exec_laneLockLoss {port : Nat} {replays : Bool} {s : State} (w : (Instr.laneLockLoss port replays).wf = true) :
    exec (.laneLockLoss port replays) s = .next ((whenAnswering fun s =>
    if (s.port port).state = .up then losePort port (if replays then 5 else 6) s else s) s) :=
  run_wf s (whenAnswering fun s =>
    if (s.port port).state = .up then losePort port (if replays then 5 else 6) s else s) w

theorem exec_laneErrorPeriod {port : Nat} {errors : List Nat} {s : State} (w : (Instr.laneErrorPeriod port errors).wf = true) :
    exec (.laneErrorPeriod port errors) s = .next ((whenAnswering (wearLanes port errors)) s) :=
  run_wf s (whenAnswering (wearLanes port errors)) w

theorem exec_flitReceive {port : Nat} {flit : Flit} {s : State} (w : (Instr.flitReceive port flit).wf = true) :
    exec (.flitReceive port flit) s = .next ((whenAnswering (receiveFlit port flit)) s) :=
  run_wf s (whenAnswering (receiveFlit port flit)) w

theorem exec_ackTimer {port : Nat} {s : State} (w : (Instr.ackTimer port).wf = true) :
    exec (.ackTimer port) s = .next ((whenAnswering fun s =>
    if (s.port port).state = .up then modPort port (fun x => { x with acksSent := x.acksSent + 1, sinceAck := 0 }) s
    else s) s) :=
  run_wf s (whenAnswering fun s =>
    if (s.port port).state = .up then modPort port (fun x => { x with acksSent := x.acksSent + 1, sinceAck := 0 }) s
    else s) w

theorem exec_roleSet {head : MsgHead} {grant : RoleGrant} {s : State} (w : (Instr.roleSet head grant).wf = true) :
    exec (.roleSet head grant) s = .next ((whenAnswering (takeRoleSet head grant)) s) :=
  run_wf s (whenAnswering (takeRoleSet head grant)) w

theorem exec_roleAck {head : MsgHead} {position : Nat} {accepted : Bool} {s : State} (w : (Instr.roleAck head position accepted).wf = true) :
    exec (.roleAck head position accepted) s = .next ((whenAnswering (takeRoleAck head position accepted)) s) :=
  run_wf s (whenAnswering (takeRoleAck head position accepted)) w

theorem exec_resolve {head : MsgHead} {byPosition : Bool} {which : Nat} {s : State} (w : (Instr.resolve head byPosition which).wf = true) :
    exec (.resolve head byPosition which) s = .next ((whenAnswering (answerResolve head byPosition which)) s) :=
  run_wf s (whenAnswering (answerResolve head byPosition which)) w

theorem exec_resolveReply {head : MsgHead} {moduleId epoch : Nat} {found : Bool} {s : State} (w : (Instr.resolveReply head moduleId epoch found).wf = true) :
    exec (.resolveReply head moduleId epoch found) s = .next ((whenAnswering (takeResolve head moduleId epoch found)) s) :=
  run_wf s (whenAnswering (takeResolve head moduleId epoch found)) w

theorem exec_stepPlan {head : MsgHead} {plan : PlanBody} {s : State} (w : (Instr.stepPlan head plan).wf = true) :
    exec (.stepPlan head plan) s = .next ((whenServing (takePlan head plan)) s) :=
  run_wf s (whenServing (takePlan head plan)) w

theorem exec_evacuate {head : MsgHead} {phase worker spare : Nat} {s : State} (w : (Instr.evacuate head phase worker spare).wf = true) :
    exec (.evacuate head phase worker spare) s = .next ((whenServing (takeEvacuate head phase worker spare)) s) :=
  run_wf s (whenServing (takeEvacuate head phase worker spare)) w

theorem exec_ready {head : MsgHead} {body : ReadyBody} {s : State} (w : (Instr.ready head body).wf = true) :
    exec (.ready head body) s = .next ((whenServing (takeReady head body)) s) :=
  run_wf s (whenServing (takeReady head body)) w

theorem exec_readyTimeout {missing : List Nat} {s : State} (w : (Instr.readyTimeout missing).wf = true) :
    exec (.readyTimeout missing) s = .next ((whenServing (abandonStep missing)) s) :=
  run_wf s (whenServing (abandonStep missing)) w

theorem exec_joinTimeout {position : Nat} {s : State} (w : (Instr.joinTimeout position).wf = true) :
    exec (.joinTimeout position) s = .next ((whenServing fun s =>
    match (if s.junction.role = .manager then memberAt s position else none) with
    | some m => if m.joined then s else declareFailed position s
    | none => s) s) :=
  run_wf s (whenServing fun s =>
    match (if s.junction.role = .manager then memberAt s position else none) with
    | some m => if m.joined then s else declareFailed position s
    | none => s) w

theorem exec_start {head : MsgHead} {startTime : Nat} {s : State} (w : (Instr.start head startTime).wf = true) :
    exec (.start head startTime) s = .next ((whenServing (takeStart head startTime)) s) :=
  run_wf s (whenServing (takeStart head startTime)) w

theorem exec_abort {head : MsgHead} {s : State} (w : (Instr.abort head).wf = true) :
    exec (.abort head) s = .next ((whenServing (takeAbort head)) s) :=
  run_wf s (whenServing (takeAbort head)) w

theorem exec_act {head : MsgHead} {buffer : Nat} {data : List Word32} {s : State} (w : (Instr.act head buffer data).wf = true) :
    exec (.act head buffer data) s = .next ((whenServing (takeAct head buffer data)) s) :=
  run_wf s (whenServing (takeAct head buffer data)) w

theorem exec_read {head : MsgHead} {s : State} (w : (Instr.read head).wf = true) :
    exec (.read head) s = .next ((whenAnswering (serveReadMsg head)) s) :=
  run_wf s (whenAnswering (serveReadMsg head)) w

theorem exec_readData {head : MsgHead} {status : Nat} {data : List Byte} {s : State} (w : (Instr.readData head status data).wf = true) :
    exec (.readData head status data) s = .next ((whenAnswering (takeResponse head status data)) s) :=
  run_wf s (whenAnswering (takeResponse head status data)) w

theorem exec_write {head : MsgHead} {data : List Byte} {s : State} (w : (Instr.write head data).wf = true) :
    exec (.write head data) s = .next ((whenAnswering (serveWriteMsg head data)) s) :=
  run_wf s (whenAnswering (serveWriteMsg head data)) w

theorem exec_writeAck {head : MsgHead} {status : Nat} {s : State} (w : (Instr.writeAck head status).wf = true) :
    exec (.writeAck head status) s = .next ((whenAnswering (takeResponse head status [])) s) :=
  run_wf s (whenAnswering (takeResponse head status [])) w

theorem exec_atomic {head : MsgHead} {elemType : Nat} {data : List Byte} {s : State} (w : (Instr.atomic head elemType data).wf = true) :
    exec (.atomic head elemType data) s = .next ((whenAnswering (serveAtomicMsg head elemType data)) s) :=
  run_wf s (whenAnswering (serveAtomicMsg head elemType data)) w

theorem exec_pageData {head : MsgHead} {lgn fill : Nat} {content : List Byte} {s : State} (w : (Instr.pageData head lgn fill content).wf = true) :
    exec (.pageData head lgn fill content) s = .next ((whenServing fun s =>
    if s.junction.role = .spare ∧ (s.junction.evacState = 2 ∨ s.junction.evacState = 3) then takePage head lgn fill content s else s) s) :=
  run_wf s (whenServing fun s =>
    if s.junction.role = .spare ∧ (s.junction.evacState = 2 ∨ s.junction.evacState = 3) then takePage head lgn fill content s else s) w

theorem exec_pageAck {head : MsgHead} {lgns : List Nat} {s : State} (w : (Instr.pageAck head lgns).wf = true) :
    exec (.pageAck head lgns) s = .next ((whenServing (takePageAck lgns)) s) :=
  run_wf s (whenServing (takePageAck lgns)) w

theorem exec_bulkData {head : MsgHead} {block offset : Nat} {content : List Byte} {s : State} (w : (Instr.bulkData head block offset content).wf = true) :
    exec (.bulkData head block offset content) s = .next ((whenServing (takeBulk head block offset content)) s) :=
  run_wf s (whenServing (takeBulk head block offset content)) w

theorem exec_requestTimeout {destination tag : Nat} {s : State} (w : (Instr.requestTimeout destination tag).wf = true) :
    exec (.requestTimeout destination tag) s = .next ((whenAnswering (timeoutRequest destination tag)) s) :=
  run_wf s (whenAnswering (timeoutRequest destination tag)) w

theorem exec_raGo {s : State} (w : (Instr.raGo).wf = true) :
    exec .raGo s = .next ((whenExposed goRa) s) :=
  run_wf s (whenExposed goRa) w

theorem exec_becomeDomainManager {s : State} (w : (Instr.becomeDomainManager).wf = true) :
    exec .becomeDomainManager s = .next ((whenExposed becomeManager) s) :=
  run_wf s (whenExposed becomeManager) w

theorem exec_returnToStandalone {s : State} (w : (Instr.returnToStandalone).wf = true) :
    exec .returnToStandalone s = .next ((whenExposed leaveManager) s) :=
  run_wf s (whenExposed leaveManager) w

theorem exec_evacuationWipe {s : State} (w : (Instr.evacuationWipe).wf = true) :
    exec .evacuationWipe s = .next ((whenServing wipeEvacuated) s) :=
  run_wf s (whenServing wipeEvacuated) w

theorem exec_ideStreamInsecure {stream : Nat} {s : State} (w : (Instr.ideStreamInsecure stream).wf = true) :
    exec (.ideStreamInsecure stream) s = .next ((whenAnswering fun s =>
    if (fmFind s.security.ide stream).isSome then modStream stream (fun x => { x with secure := false }) s else s) s) :=
  run_wf s (whenAnswering fun s =>
    if (fmFind s.security.ide stream).isSome then modStream stream (fun x => { x with secure := false }) s else s) w

theorem exec_provision {c : SignedCommand} {s : State} (w : (Instr.provision c).wf = true) :
    exec (.provision c) s = .next ((whenAnswering (transition [.blank] .provisioned c.signedByOwner (takeOwnership c.payload) c)) s) :=
  run_wf s (whenAnswering (transition [.blank] .provisioned c.signedByOwner (takeOwnership c.payload) c)) w

theorem exec_activate {c : SignedCommand} {s : State} (w : (Instr.activate c).wf = true) :
    exec (.activate c) s = .next ((whenAnswering (transition [.provisioned] .operational c.signedByOwner id c)) s) :=
  run_wf s (whenAnswering (transition [.provisioned] .operational c.signedByOwner id c)) w

theorem exec_deactivate {c : SignedCommand} {s : State} (w : (Instr.deactivate c).wf = true) :
    exec (.deactivate c) s = .next ((whenAnswering (transition [.operational] .provisioned c.signedByOwner dropKeys c)) s) :=
  run_wf s (whenAnswering (transition [.operational] .provisioned c.signedByOwner dropKeys c)) w

theorem exec_debugEnter {c : SignedCommand} {s : State} (w : (Instr.debugEnter c).wf = true) :
    exec (.debugEnter c) s = .next ((whenAnswering (transition [.provisioned, .operational] .debug (c.signedByOwner && c.signedByZuloth) id c)) s) :=
  run_wf s (whenAnswering (transition [.provisioned, .operational] .debug (c.signedByOwner && c.signedByZuloth) id c)) w

theorem exec_debugExit {c : SignedCommand} {s : State} (w : (Instr.debugExit c).wf = true) :
    exec (.debugExit c) s = .next ((whenAnswering (transition [.debug] .provisioned c.signedByOwner id c)) s) :=
  run_wf s (whenAnswering (transition [.debug] .provisioned c.signedByOwner id c)) w

theorem exec_rmaEnter {c : SignedCommand} {s : State} (w : (Instr.rmaEnter c).wf = true) :
    exec (.rmaEnter c) s = .next ((whenAnswering (transition [.provisioned, .operational, .debug] .rma (c.signedByOwner && c.signedByZuloth)
    (fun k => { dropKeys k with owner := none }) c)) s) :=
  run_wf s (whenAnswering (transition [.provisioned, .operational, .debug] .rma (c.signedByOwner && c.signedByZuloth)
    (fun k => { dropKeys k with owner := none }) c)) w

theorem exec_rmaExit {c : SignedCommand} {s : State} (w : (Instr.rmaExit c).wf = true) :
    exec (.rmaExit c) s = .next ((whenAnswering (transition [.rma] .blank c.signedByZuloth id c)) s) :=
  run_wf s (whenAnswering (transition [.rma] .blank c.signedByZuloth id c)) w

theorem exec_retire {c : SignedCommand} {s : State} (w : (Instr.retire c).wf = true) :
    exec (.retire c) s = .next ((whenAnswering (retire c)) s) :=
  run_wf s (whenAnswering (retire c)) w

theorem exec_enroll {c : SignedCommand} {s : State} (w : (Instr.enroll c).wf = true) :
    exec (.enroll c) s = .next ((whenAnswering (enroll c)) s) :=
  run_wf s (whenAnswering (enroll c)) w

theorem exec_revoke {c : SignedCommand} {s : State} (w : (Instr.revoke c).wf = true) :
    exec (.revoke c) s = .next ((whenAnswering (revoke c)) s) :=
  run_wf s (whenAnswering (revoke c)) w

theorem exec_fwUpdate {c : SignedCommand} {bundle : FwBundle} {s : State} (w : (Instr.fwUpdate c bundle).wf = true) :
    exec (.fwUpdate c bundle) s = .next ((whenAnswering (takeUpdate c bundle)) s) :=
  run_wf s (whenAnswering (takeUpdate c bundle)) w

theorem exec_commitSvn {c : SignedCommand} {s : State} (w : (Instr.commitSvn c).wf = true) :
    exec (.commitSvn c) s = .next ((whenAnswering (commitVersion c)) s) :=
  run_wf s (whenAnswering (commitVersion c)) w

theorem exec_getVersion {fn : Nat} {s : State} (w : (Instr.getVersion fn).wf = true) :
    exec (.getVersion fn) s = .next ((whenAttesting fun s =>
    reply (.spdmVersions [0x12, 0x13]) (modSpdm fn (fun x => { x with version := true, capabilities := false, algorithms := false }) s)) s) :=
  run_wf s (whenAttesting fun s =>
    reply (.spdmVersions [0x12, 0x13]) (modSpdm fn (fun x => { x with version := true, capabilities := false, algorithms := false }) s)) w

theorem exec_getCapabilities {fn : Nat} {s : State} (w : (Instr.getCapabilities fn).wf = true) :
    exec (.getCapabilities fn) s = .next ((whenAttesting fun s =>
    after (s.spdmOf fn).version (fun s => reply (.spdmCapabilities false true true true true true true) (modSpdm fn (fun x => { x with capabilities := true }) s)) s) s) :=
  run_wf s (whenAttesting fun s =>
    after (s.spdmOf fn).version (fun s => reply (.spdmCapabilities false true true true true true true) (modSpdm fn (fun x => { x with capabilities := true }) s)) s) w

theorem exec_negotiateAlgorithms {fn : Nat} {s : State} (w : (Instr.negotiateAlgorithms fn).wf = true) :
    exec (.negotiateAlgorithms fn) s = .next ((whenAttesting fun s =>
    after (s.spdmOf fn).capabilities (fun s => reply .spdmAlgorithms (modSpdm fn (fun x => { x with algorithms := true }) s)) s) s) :=
  run_wf s (whenAttesting fun s =>
    after (s.spdmOf fn).capabilities (fun s => reply .spdmAlgorithms (modSpdm fn (fun x => { x with algorithms := true }) s)) s) w

theorem exec_getDigests {fn : Nat} {s : State} (w : (Instr.getDigests fn).wf = true) :
    exec (.getDigests fn) s = .next ((whenAttesting (negotiated fn fun s =>
    reply (.spdmDigests [0] (sha384 (Config.rsaChain (aliasName s)))) s)) s) :=
  run_wf s (whenAttesting (negotiated fn fun s =>
    reply (.spdmDigests [0] (sha384 (Config.rsaChain (aliasName s)))) s)) w

theorem exec_getCertificate {fn certSlot offset length : Nat} {s : State} (w : (Instr.getCertificate fn certSlot offset length).wf = true) :
    exec (.getCertificate fn certSlot offset length) s = .next ((whenAttesting (negotiated fn (certificate certSlot offset length))) s) :=
  run_wf s (whenAttesting (negotiated fn (certificate certSlot offset length))) w

theorem exec_challenge {fn certSlot : Nat} {nonce : BitVec 256} {s : State} (w : (Instr.challenge fn certSlot nonce).wf = true) :
    exec (.challenge fn certSlot nonce) s = .next ((whenAttesting (negotiated fn fun s =>
    if certSlot = 0 then signResponse fn 1 s else reply (.spdmError spInvalid) s)) s) :=
  run_wf s (whenAttesting (negotiated fn fun s =>
    if certSlot = 0 then signResponse fn 1 s else reply (.spdmError spInvalid) s)) w

theorem exec_getMeasurements {fn index : Nat} {signed : Bool} {nonce : BitVec 256} {s : State} (w : (Instr.getMeasurements fn index signed nonce).wf = true) :
    exec (.getMeasurements fn index signed nonce) s = .next ((whenAttesting (negotiated fn (measurements fn index signed))) s) :=
  run_wf s (whenAttesting (negotiated fn (measurements fn index signed))) w

theorem exec_keyExchange {fn certSlot : Nat} {share : List Byte} {s : State} (w : (Instr.keyExchange fn certSlot share).wf = true) :
    exec (.keyExchange fn certSlot share) s = .next ((whenAttesting (negotiated fn (beginSession fn certSlot))) s) :=
  run_wf s (whenAttesting (negotiated fn (beginSession fn certSlot))) w

theorem exec_finish {fn session : Nat} {macOk : Bool} {s : State} (w : (Instr.finish fn session macOk).wf = true) :
    exec (.finish fn session macOk) s = .next ((whenAttesting (finishSession fn session macOk)) s) :=
  run_wf s (whenAttesting (finishSession fn session macOk)) w

theorem exec_heartbeat {fn session : Nat} {s : State} (w : (Instr.heartbeat fn session).wf = true) :
    exec (.heartbeat fn session) s = .next ((whenAttesting (inSession fn session (reply (.spdmHeartbeat session)))) s) :=
  run_wf s (whenAttesting (inSession fn session (reply (.spdmHeartbeat session)))) w

theorem exec_keyUpdate {fn session operation : Nat} {s : State} (w : (Instr.keyUpdate fn session operation).wf = true) :
    exec (.keyUpdate fn session operation) s = .next ((whenAttesting (inSession fn session (updateKeys fn session operation))) s) :=
  run_wf s (whenAttesting (inSession fn session (updateKeys fn session operation))) w

theorem exec_endSession {fn session : Nat} {s : State} (w : (Instr.endSession fn session).wf = true) :
    exec (.endSession fn session) s = .next ((whenAttesting (inSession fn session fun s =>
    reply (.spdmEnd session) (modSpdm fn (fun x => { x with sessions := x.sessions.filter (· != session) }) s))) s) :=
  run_wf s (whenAttesting (inSession fn session fun s =>
    reply (.spdmEnd session) (modSpdm fn (fun x => { x with sessions := x.sessions.filter (· != session) }) s))) w

theorem exec_getPqSignature {fn : Nat} {s : State} (w : (Instr.getPqSignature fn).wf = true) :
    exec (.getPqSignature fn) s = .next ((whenAttesting (negotiated fn (pqSignature fn))) s) :=
  run_wf s (whenAttesting (negotiated fn (pqSignature fn))) w

theorem exec_getPqCertificate {fn offset : Nat} {s : State} (w : (Instr.getPqCertificate fn offset).wf = true) :
    exec (.getPqCertificate fn offset) s = .next ((whenAttesting (negotiated fn fun s =>
    reply (.pqCertificate offset (((Config.slhChain (aliasName s)).drop offset).take 65536)) s)) s) :=
  run_wf s (whenAttesting (negotiated fn fun s =>
    reply (.pqCertificate offset (((Config.slhChain (aliasName s)).drop offset).take 65536)) s)) w

theorem exec_sidebandPowerRead {command : Nat} {s : State} (w : (Instr.sidebandPowerRead command).wf = true) :
    exec (.sidebandPowerRead command) s = .next ((whenOn (readPower command)) s) :=
  run_wf s (whenOn (readPower command)) w

theorem exec_sidebandBmcLimit {value : Option Word32} {s : State} (w : (Instr.sidebandBmcLimit value).wf = true) :
    exec (.sidebandBmcLimit value) s = .next ((whenOn (bmcLimit value)) s) :=
  run_wf s (whenOn (bmcLimit value)) w

theorem exec_sidebandIndicators {value : Option Word32} {s : State} (w : (Instr.sidebandIndicators value).wf = true) :
    exec (.sidebandIndicators value) s = .next ((whenOn (indicators value)) s) :=
  run_wf s (whenOn (indicators value)) w

theorem exec_sidebandColdReset {s : State} (w : (Instr.sidebandColdReset).wf = true) :
    exec .sidebandColdReset s = .next ((whenOn (requestCold .sideband)) s) :=
  run_wf s (whenOn (requestCold .sideband)) w

theorem exec_sidebandWarmReset {s : State} (w : (Instr.sidebandWarmReset).wf = true) :
    exec .sidebandWarmReset s = .next ((whenOn (requestWarm false)) s) :=
  run_wf s (whenOn (requestWarm false)) w

theorem exec_sidebandStatusRead {s : State} (w : (Instr.sidebandStatusRead).wf = true) :
    exec .sidebandStatusRead s = .next ((whenOn fun s => answerWord (readWord 0 s 0x10) s) s) :=
  run_wf s (whenOn fun s => answerWord (readWord 0 s 0x10) s) w

theorem exec_sidebandCauseRead {s : State} (w : (Instr.sidebandCauseRead).wf = true) :
    exec .sidebandCauseRead s = .next ((whenOn fun s => answerWord (readWord 0 s 0x14) s) s) :=
  run_wf s (whenOn fun s => answerWord (readWord 0 s 0x14) s) w

theorem exec_sidebandIndirectAddress {value : Option Word32} {s : State} (w : (Instr.sidebandIndirectAddress value).wf = true) :
    exec (.sidebandIndirectAddress value) s = .next ((whenOn (indirectAddress value)) s) :=
  run_wf s (whenOn (indirectAddress value)) w

theorem exec_sidebandIndirectRead {s : State} (w : (Instr.sidebandIndirectRead).wf = true) :
    exec .sidebandIndirectRead s = .next ((whenOn readIndirect) s) :=
  run_wf s (whenOn readIndirect) w

theorem exec_i3cDynamicAddress {address : Nat} {s : State} (w : (Instr.i3cDynamicAddress address).wf = true) :
    exec (.i3cDynamicAddress address) s = .next ((whenOn fun s => { s with boot := { s.boot with i3c := some address } }) s) :=
  run_wf s (whenOn fun s => { s with boot := { s.boot with i3c := some address } }) w

theorem exec_fuseRead {q : Nat} {s : State} (w : (Instr.fuseRead q).wf = true) :
    exec (.fuseRead q) s = .next ((whenOn (whenRepairable (readFuses q))) s) :=
  run_wf s (whenOn (whenRepairable (readFuses q))) w

theorem exec_spareMap {q layer bank : Nat} {s : State} (w : (Instr.spareMap q layer bank).wf = true) :
    exec (.spareMap q layer bank) s = .next ((whenOn (whenRepairable (readSpares q layer bank))) s) :=
  run_wf s (whenOn (whenRepairable (readSpares q layer bank))) w

theorem exec_healthRead {q : Nat} {s : State} (w : (Instr.healthRead q).wf = true) :
    exec (.healthRead q) s = .next ((whenOn (whenRepairable fun s => reply (.health s.health) s)) s) :=
  run_wf s (whenOn (whenRepairable fun s => reply (.health s.health) s)) w

theorem exec_repairStage {r : Repair} {s : State} (w : (Instr.repairStage r).wf = true) :
    exec (.repairStage r) s = .next ((whenOn (whenRepairable fun s => { s with boot := { s.boot with staged := s.boot.staged ++ [r] } })) s) :=
  run_wf s (whenOn (whenRepairable fun s => { s with boot := { s.boot with staged := s.boot.staged ++ [r] } })) w

theorem exec_timeRequestReceived {head : MsgHead} {sequence t1 requestCorrection : Nat} {s : State} (w : (Instr.timeRequestReceived head sequence t1 requestCorrection).wf = true) :
    exec (.timeRequestReceived head sequence t1 requestCorrection) s = .next ((whenAnswering (answerTime head sequence t1 requestCorrection)) s) :=
  run_wf s (whenAnswering (answerTime head sequence t1 requestCorrection)) w

theorem exec_refInPresent {s : State} (w : (Instr.refInPresent).wf = true) :
    exec .refInPresent s = .next ((whenAnswering fun s => { s with clock := { s.clock with refPresent := true } }) s) :=
  run_wf s (whenAnswering fun s => { s with clock := { s.clock with refPresent := true } }) w

theorem exec_perstDeassert {s : State} (w : (Instr.perstDeassert).wf = true) :
    exec .perstDeassert s = .next ((whenOn deassertPerst) s) :=
  run_wf s (whenOn deassertPerst) w

theorem exec_weirRefill {s : State} (w : (Instr.weirRefill).wf = true) :
    exec .weirRefill s = .next ((whenAnswering weirSlot) s) :=
  run_wf s (whenAnswering weirSlot) w

theorem exec_ideKm {stream : Nat} {secured : Bool} {operation : Nat} {s : State} (w : (Instr.ideKm stream secured operation).wf = true) :
    exec (.ideKm stream secured operation) s = .next ((whenAttesting (takeKm stream secured operation)) s) :=
  run_wf s (whenAttesting (takeKm stream secured operation)) w

theorem exec_doeDiscovery {fn index : Nat} {s : State} (w : (Instr.doeDiscovery fn index).wf = true) :
    exec (.doeDiscovery fn index) s = .next ((whenAnswering (discover index)) s) :=
  run_wf s (whenAnswering (discover index)) w

/-- The path on which a tenant writes its own fields is one the LT9 has, reaches its block and passes Table 18-1. -/
theorem ownPath_wf {t : Nat} (h : t < 256) : (ownPath t).wf = true := by
  unfold ownPath
  split
  · rfl
  · simp only [RegPath.wf, tenantOk, Bool.and_eq_true, decide_eq_true_eq]; omega

theorem ownPath_reaches (t : Nat) : pathReaches (ownPath t) t = true := by
  unfold ownPath
  split
  · rfl
  · exact beq_self_eq_true t

theorem ownPath_kind (t : Nat) : ownFieldKind (ownPath t) t = 0 := by
  unfold ownPath
  split
  · exact if_pos ‹_›
  · rfl

/-- Sending a message does what `Sent` says and nothing else. -/
theorem sendMsg_sent (m : SentMsg) (s : State) : Sent m s (sendMsg m s) := by
  unfold sendMsg
  dsimp only
  constructor
  · intro h
    by_cases d : m.destination = s.moduleId
    · rw [if_pos d]
    · rw [if_neg d]
      cases e : routePort s s.moduleId m.destination with
      | some p => rfl
      | none => rw [e] at h; rcases h with h | h
                · exact absurd h d
                · cases h
  · intro n e
    rw [if_neg n, e]

end Sys2Proof.Laws
end

