-- ==== Sys2Proof/Laws/Signed.lean ====
section
/-! SUPPORT. What the signed commands do to the life cycle and the fuses, and `Kept` for all other commands at once. -/

set_option Elab.async false

namespace Sys2Proof.Laws

open Sys2Proof.Machine

/-- A transition of a signed command: the life cycle goes from one of the states listed to the target and is counted; the
queue and the other fuses stay, and a well-formed state stays well formed. -/
def Entered (sources : List LifeCycle) (target : LifeCycle) (s t : State) : Prop :=
  sources.contains s.security.state = true ∧ t.security.state = target ∧ t.security.count = s.security.count + 1 ∧
    t.security.minSvn = s.security.minSvn ∧ t.security.gradeS = s.security.gradeS ∧ t.security.fusedPos = s.security.fusedPos ∧
    t.pending = s.pending ∧ (Formed s → Formed t)

/-- Keys change, fuses do not. -/
def KeysOnly (f : Security → Security) : Prop :=
  ∀ c, (f c).state = c.state ∧ (f c).count = c.count ∧ (f c).minSvn = c.minSvn ∧ (f c).gradeS = c.gradeS ∧ (f c).fusedPos = c.fusedPos

theorem enterState_entered {s : State} {sources : List LifeCycle} {target : LifeCycle} {keys : Security → Security}
    (hk : KeysOnly keys) (hs : sources.contains s.security.state = true) : Entered sources target s (enterState target keys s) := by
  unfold enterState
  extract_lets c
  obtain ⟨a, b, d, e, g⟩ := hk { c with state := target, count := c.count + 1 }
  have h := requestCold_lasting (cause := .register) (Lasting.refl { s with security := keys { c with state := target, count := c.count + 1 } })
  obtain ⟨h1, h2⟩ := h
  unfold fuseOf at h1
  simp only [Prod.mk.injEq] at h1
  obtain ⟨p, q, r, u, v, w⟩ := h1
  exact ⟨hs, q.trans a, r.trans b, u.trans d, v.trans e, w.trans g, p, fun f => h2 f⟩

/-- A signed command that passes no check changes nothing that is kept; one that passes has its effect on a state that
differs in the mailbox alone. -/
theorem runCommand_cases {c : SignedCommand} {l : List Nat} {b : Bool} {f : State → State} {s : State} :
    Kept s (runCommand c l b f s) ∨ (l = [] ∧ runCommand c l b f s = f (endCommand mbOk s)) := by
  unfold runCommand
  split
  · exact .inl (failCommand_kept (Kept.refl s))
  · rename_i h
    simp only [not_or, Bool.not_eq_true', Bool.not_eq_false', Bool.not_eq_true, List.isEmpty_iff] at h
    exact .inr ⟨by simpa using h.2, rfl⟩

theorem endCommand_fuses (r : Nat) (s : State) : fuseOf (endCommand r s) = fuseOf s := rfl

theorem stateFailures_empty {sources : List LifeCycle} {b : Bool} {s : State} (h : stateFailures sources b s = []) :
    sources.contains s.security.state = true ∧ (b = true ∨ s.security.count < 63) := by
  unfold stateFailures at h
  split at h
  · assumption
  · cases h

theorem transition_cases {sources : List LifeCycle} {target : LifeCycle} {b : Bool} {keys : Security → Security}
    {c : SignedCommand} {s : State} (hk : KeysOnly keys) :
    Kept s (transition sources target b keys c s) ∨ Entered sources target s (transition sources target b keys c s) := by
  unfold transition
  rcases runCommand_cases (c := c) (b := false) (f := enterState target keys)
    (l := recordFailures c b s ++ stateFailures sources (decide (target = .retired)) s ++ busyFailures s) (s := s) with h | ⟨hl, h⟩
  · exact .inl h
  · rw [h]
    right
    have hs := (stateFailures_empty (List.append_eq_nil_iff.mp (List.append_eq_nil_iff.mp hl).1).2).1
    have hE := endCommand_kept (reason := mbOk) (Kept.refl s)
    have e := endCommand_fuses mbOk s
    unfold fuseOf at e
    simp only [Prod.mk.injEq] at e
    obtain ⟨p, q, r, u, v, w⟩ := e
    obtain ⟨-, a2, a3, a4, a5, a6, a7, a8⟩ :=
      enterState_entered (target := target) hk (s := endCommand mbOk s) (sources := sources) (by rw [q]; exact hs)
    exact ⟨hs, a2, a3.trans (by rw [r]), a4.trans u, a5.trans v, a6.trans w, a7.trans p, fun f => a8 (hE.2.2 f)⟩

theorem keysOnly_id : KeysOnly id := fun _ => ⟨rfl, rfl, rfl, rfl, rfl⟩

theorem keysOnly_own (p : List Byte) : KeysOnly (takeOwnership p) := fun _ => ⟨rfl, rfl, rfl, rfl, rfl⟩

theorem keysOnly_drop : KeysOnly dropKeys := fun _ => ⟨rfl, rfl, rfl, rfl, rfl⟩

theorem keysOnly_rma : KeysOnly fun k => { dropKeys k with owner := none } := fun _ => ⟨rfl, rfl, rfl, rfl, rfl⟩

theorem keysOnly_retire : KeysOnly fun k => { k with secret := false, owner := none } := fun _ => ⟨rfl, rfl, rfl, rfl, rfl⟩

theorem whenAnswering_cases {P : State → Prop} {f : State → State} {s : State} (h : P s) (k : P (f s)) : P (whenAnswering f s) := by
  unfold whenAnswering
  split <;> assumption


theorem execProvision_cases {c : SignedCommand} {s t : State} (h : execProvision c s = .next t) : Kept s t ∨ Entered [.blank] .provisioned s t := by
  obtain ⟨-, rfl⟩ := run_next s h
  exact whenAnswering_cases (P := fun t => Kept s t ∨ Entered _ _ s t) (.inl (Kept.refl s)) (transition_cases (keysOnly_own c.payload))

theorem execActivate_cases {c : SignedCommand} {s t : State} (h : execActivate c s = .next t) : Kept s t ∨ Entered [.provisioned] .operational s t := by
  obtain ⟨-, rfl⟩ := run_next s h
  exact whenAnswering_cases (P := fun t => Kept s t ∨ Entered _ _ s t) (.inl (Kept.refl s)) (transition_cases keysOnly_id)

theorem execDeactivate_cases {c : SignedCommand} {s t : State} (h : execDeactivate c s = .next t) : Kept s t ∨ Entered [.operational] .provisioned s t := by
  obtain ⟨-, rfl⟩ := run_next s h
  exact whenAnswering_cases (P := fun t => Kept s t ∨ Entered _ _ s t) (.inl (Kept.refl s)) (transition_cases keysOnly_drop)

theorem execDebugEnter_cases {c : SignedCommand} {s t : State} (h : execDebugEnter c s = .next t) : Kept s t ∨ Entered [.provisioned, .operational] .debug s t := by
  obtain ⟨-, rfl⟩ := run_next s h
  exact whenAnswering_cases (P := fun t => Kept s t ∨ Entered _ _ s t) (.inl (Kept.refl s)) (transition_cases keysOnly_id)

theorem execDebugExit_cases {c : SignedCommand} {s t : State} (h : execDebugExit c s = .next t) : Kept s t ∨ Entered [.debug] .provisioned s t := by
  obtain ⟨-, rfl⟩ := run_next s h
  exact whenAnswering_cases (P := fun t => Kept s t ∨ Entered _ _ s t) (.inl (Kept.refl s)) (transition_cases keysOnly_id)

theorem execRmaEnter_cases {c : SignedCommand} {s t : State} (h : execRmaEnter c s = .next t) : Kept s t ∨ Entered [.provisioned, .operational, .debug] .rma s t := by
  obtain ⟨-, rfl⟩ := run_next s h
  exact whenAnswering_cases (P := fun t => Kept s t ∨ Entered _ _ s t) (.inl (Kept.refl s)) (transition_cases keysOnly_rma)

theorem execRmaExit_cases {c : SignedCommand} {s t : State} (h : execRmaExit c s = .next t) : Kept s t ∨ Entered [.rma] .blank s t := by
  obtain ⟨-, rfl⟩ := run_next s h
  exact whenAnswering_cases (P := fun t => Kept s t ∨ Entered _ _ s t) (.inl (Kept.refl s)) (transition_cases keysOnly_id)

theorem execRetire_cases {c : SignedCommand} {s t : State} (h : execRetire c s = .next t) : Kept s t ∨ Entered [.blank, .provisioned, .operational, .debug, .rma] .retired s t := by
  obtain ⟨-, rfl⟩ := run_next s h
  exact whenAnswering_cases (P := fun t => Kept s t ∨ Entered _ _ s t) (.inl (Kept.refl s)) (transition_cases keysOnly_retire)

/-- What FW_UPDATE does: a bank, BOOT_BANK and the mailbox; in BOOT_FAIL a cold reset. -/
theorem execFwUpdate_lasting {c : SignedCommand} {x : FwBundle} {s t : State} (h : execFwUpdate c x s = .next t) : Lasting s t := by
  obtain ⟨-, rfl⟩ := run_next s h
  refine whenAnswering_cases (P := Lasting s) (Lasting.refl s) ?_
  unfold takeUpdate
  extract_lets r
  have h1 : Lasting s r := (updateFirmware_kept (Kept.refl s)).lasting
  clear_value r
  split
  · exact coldReset_lasting h1
  · exact h1

/-- What COMMIT_SVN may change: the mailbox, and the fused minimum version. -/
def Committed (s t : State) : Prop :=
  t.pending = s.pending ∧ t.seals = s.seals ∧ t.power.on = s.power.on ∧ t.boot.phase = s.boot.phase ∧
    t.security.state = s.security.state ∧ t.security.count = s.security.count ∧
    t.security.minSvn = max s.security.minSvn (runningSvn s.security) ∧ t.security.gradeS = s.security.gradeS ∧
    t.security.fusedPos = s.security.fusedPos ∧ (s.faults.fatal = true → t.faults.fatal = true) ∧ (Formed s → Formed t)

theorem execCommitSvn_cases {c : SignedCommand} {s t : State} (h : execCommitSvn c s = .next t) : Kept s t ∨ Committed s t := by
  obtain ⟨-, rfl⟩ := run_next s h
  refine whenAnswering_cases (P := fun t => Kept s t ∨ Committed s t) (.inl (Kept.refl s)) ?_
  unfold commitVersion
  rcases runCommand_cases (c := c) (b := false)
    (f := fun s => { s with security := { s.security with minSvn := max s.security.minSvn (runningSvn s.security) } })
    (l := recordFailures c c.signedByOwner s ++ stateFailures [.provisioned, .operational] false s) (s := s) with h | ⟨-, h⟩
  · exact .inl h
  · rw [h]
    exact .inr ⟨rfl, rfl, rfl, rfl, rfl, rfl, rfl, rfl, rfl, id, id⟩

/-- Every command that neither resets nor fuses. -/
theorem exec_lived {c : Instr} {s t : State} (h : exec c s = .next t) (hr : mayReset c = false) (hf : mayFuse c = false) :
    Lived s t := by
  cases c with
  | doorbellInvalidate _ _ _ => exact (execDoorbellInvalidate_kept h).lived
  | doorbellPoll _ _ _ => exact (execDoorbellPoll_kept h).lived
  | atsInvalidation _ _ _ _ => exact (execAtsInvalidation_kept h).lived
  | openSeq _ => exact (execOpenSeq_kept h).lived
  | append _ => exact (execAppend_kept h).lived
  | pause _ => exact (execPause_kept h).lived
  | resume _ => exact (execResume_kept h).lived
  | cancel _ => exact (execCancel_kept h).lived
  | close _ => exact (execClose_kept h).lived
  | exportPrefix _ => exact (execExportPrefix_kept h).lived
  | importPrefix _ => exact (execImportPrefix_kept h).lived
  | dropPrefix _ => exact (execDropPrefix_kept h).lived
  | embedLookup _ => exact (execEmbedLookup_kept h).lived
  | query _ => exact (execQuery_kept h).lived
  | fence _ => exact (execFence_kept h).lived
  | loadModel _ => exact (execLoadModel_kept h).lived
  | unloadModel _ => exact (execUnloadModel_kept h).lived
  | loadAdapter _ => exact (execLoadAdapter_kept h).lived
  | unloadAdapter _ => exact (execUnloadAdapter_kept h).lived
  | loadTable _ => exact (execLoadTable_kept h).lived
  | replay _ => exact (execReplay_kept h).lived
  | setTenant _ => exact (execSetTenant_kept h).lived
  | loadFinish _ => exact (execLoadFinish_kept h).lived
  | sweepDone _ _ => exact (execSweepDone_kept h).lived
  | stepBoundary _ => exact execStepBoundary_lived h
  | waitPeriod => exact (execWaitPeriod_kept h).lived
  | stepStart _ => exact execStepStart_lived h
  | routingPoint _ _ => exact (execRoutingPoint_kept h).lived
  | holdPoint _ => exact (execHoldPoint_kept h).lived
  | holdTimeout _ => exact (execHoldTimeout_kept h).lived
  | hostWindow _ _ => exact (execHostWindow_kept h).lived
  | timingFault _ _ _ => exact (execTimingFault_kept h).lived
  | controlFault _ _ _ _ => exact (execControlFault_kept h).lived
  | dataError _ _ _ => exact (execDataError_kept h).lived
  | refetchDone _ _ => exact (execRefetchDone_kept h).lived
  | promotionDone _ _ => exact (execPromotionDone_kept h).lived
  | demotionDone _ _ => exact (execDemotionDone_kept h).lived
  | spillDone _ => exact (execSpillDone_kept h).lived
  | prefetchDone _ _ => exact (execPrefetchDone_kept h).lived
  | tailCopyDone _ => exact (execTailCopyDone_kept h).lived
  | diversionCopyDone _ _ _ => exact (execDiversionCopyDone_kept h).lived
  | prefixHashDone _ _ => exact (execPrefixHashDone_kept h).lived
  | prefixLookupDone _ => exact (execPrefixLookupDone_kept h).lived
  | scrubPass _ => exact (execScrubPass_kept h).lived
  | cxlMemRead _ => exact (execCxlMemRead_kept h).lived
  | cxlMemWrite _ _ => exact (execCxlMemWrite_kept h).lived
  | sluiceSeal _ => exact (execSluiceSeal_kept h).lived
  | sluiceUnseal _ => exact (execSluiceUnseal_kept h).lived
  | sluiceRelease _ => exact (execSluiceRelease_kept h).lived
  | qpEnable _ _ _ => exact (execQpEnable_kept h).lived
  | qpDisable _ _ _ => exact (execQpDisable_kept h).lived
  | moderationWrite _ _ _ _ _ => exact (execModerationWrite_kept h).lived
  | vectorTimeThreshold _ _ => exact (execVectorTimeThreshold_kept h).lived
  | msixUnmask _ _ => exact (execMsixUnmask_kept h).lived
  | latchCapture _ _ _ _ => exact (execLatchCapture_kept h).lived
  | tenantSeal _ _ => exact (execTenantSeal_kept h).lived
  | sealSet _ => cases hf
  | registerWrite _ _ _ _ => cases hr
  | coldReset _ => cases hr
  | warmReset _ => cases hr
  | functionLevelReset _ => cases hr
  | flrClearDone _ => exact (execFlrClearDone_kept h).lived
  | removeReq => exact (execRemoveReq_kept h).lived
  | dumpRelease => exact (execDumpRelease_kept h).lived
  | powerOn _ => cases hr
  | trainingComplete _ _ _ => cases hr
  | wipeDone => cases hr
  | cxlLinkRetrain _ _ _ => exact (execCxlLinkRetrain_kept h).lived
  | powerWarn _ => exact (execPowerWarn_kept h).lived
  | powerWarnClear _ => exact (execPowerWarnClear_kept h).lived
  | inputInterruption => exact (execInputInterruption_kept h).lived
  | powerLoss => cases hr
  | phaseFault _ => exact (execPhaseFault_kept h).lived
  | railFault => exact (execRailFault_kept h).lived
  | cxlLinkLoss => exact (execCxlLinkLoss_kept h).lived
  | layerOvertemp _ _ _ => exact (execLayerOvertemp_kept h).lived
  | wearThreshold _ _ => exact (execWearThreshold_kept h).lived
  | escalation _ _ => exact (execEscalation_kept h).lived
  | coreWatchdog _ => exact (execCoreWatchdog_kept h).lived
  | coreRestartDone _ _ => exact (execCoreRestartDone_kept h).lived
  | channelTrainingLoss _ _ => exact (execChannelTrainingLoss_kept h).lived
  | channelRetrained _ _ => exact (execChannelRetrained_kept h).lived
  | fatalFault _ _ _ => exact (execFatalFault_kept h).lived
  | dumpDone _ => exact (execDumpDone_kept h).lived
  | attentionPress _ => exact (execAttentionPress_kept h).lived
  | latchOpen => exact (execLatchOpen_kept h).lived
  | latchClose => exact (execLatchClose_kept h).lived
  | latchTimeout => exact (execLatchTimeout_kept h).lived
  | refInLock _ => exact (execRefInLock_kept h).lived
  | refInLoss => exact (execRefInLoss_kept h).lived
  | ppsOut => exact (execPpsOut_kept h).lived
  | timeRequest => exact (execTimeRequest_kept h).lived
  | timeReply _ _ => exact (execTimeReply_kept h).lived
  | timeSet _ => exact (execTimeSet_kept h).lived
  | portEnable _ _ => exact (execPortEnable_kept h).lived
  | portDisable _ => exact (execPortDisable_kept h).lived
  | retrain _ => exact (execRetrain_kept h).lived
  | trainingDone _ _ _ _ => exact (execTrainingDone_kept h).lived
  | laneLockLoss _ _ => exact (execLaneLockLoss_kept h).lived
  | laneErrorPeriod _ _ => exact (execLaneErrorPeriod_kept h).lived
  | flitReceive _ _ => exact (execFlitReceive_kept h).lived
  | ackTimer _ => exact (execAckTimer_kept h).lived
  | roleSet _ _ => exact (execRoleSet_kept h).lived
  | roleAck _ _ _ => exact (execRoleAck_kept h).lived
  | resolve _ _ _ => exact (execResolve_kept h).lived
  | resolveReply _ _ _ _ => exact (execResolveReply_kept h).lived
  | stepPlan _ _ => exact (execStepPlan_kept h).lived
  | evacuate _ _ _ _ => exact (execEvacuate_kept h).lived
  | ready _ _ => exact (execReady_kept h).lived
  | readyTimeout _ => exact (execReadyTimeout_kept h).lived
  | joinTimeout _ => exact (execJoinTimeout_kept h).lived
  | start _ _ => exact (execStart_kept h).lived
  | abort _ => exact (execAbort_kept h).lived
  | act _ _ _ => exact (execAct_kept h).lived
  | read _ => exact (execRead_kept h).lived
  | readData _ _ _ => exact (execReadData_kept h).lived
  | write _ _ => exact (execWrite_kept h).lived
  | writeAck _ _ => exact (execWriteAck_kept h).lived
  | atomic _ _ _ => exact (execAtomic_kept h).lived
  | pageData _ _ _ _ => exact (execPageData_kept h).lived
  | pageAck _ _ => exact (execPageAck_kept h).lived
  | bulkData _ _ _ _ => exact (execBulkData_kept h).lived
  | requestTimeout _ _ => exact (execRequestTimeout_kept h).lived
  | raGo => exact (execRaGo_kept h).lived
  | becomeDomainManager => exact (execBecomeDomainManager_kept h).lived
  | returnToStandalone => exact (execReturnToStandalone_kept h).lived
  | evacuationWipe => exact execEvacuationWipe_lived h
  | ideStreamInsecure _ => exact (execIdeStreamInsecure_kept h).lived
  | provision _ => cases hr
  | activate _ => cases hr
  | deactivate _ => cases hr
  | debugEnter _ => cases hr
  | debugExit _ => cases hr
  | rmaEnter _ => cases hr
  | rmaExit _ => cases hr
  | retire _ => cases hr
  | enroll _ => exact (execEnroll_kept h).lived
  | revoke _ => exact (execRevoke_kept h).lived
  | fwUpdate _ _ => cases hr
  | commitSvn _ => cases hf
  | getVersion _ => exact (execGetVersion_kept h).lived
  | getCapabilities _ => exact (execGetCapabilities_kept h).lived
  | negotiateAlgorithms _ => exact (execNegotiateAlgorithms_kept h).lived
  | getDigests _ => exact (execGetDigests_kept h).lived
  | getCertificate _ _ _ _ => exact (execGetCertificate_kept h).lived
  | challenge _ _ _ => exact (execChallenge_kept h).lived
  | getMeasurements _ _ _ _ => exact (execGetMeasurements_kept h).lived
  | keyExchange _ _ _ => exact (execKeyExchange_kept h).lived
  | finish _ _ _ => exact (execFinish_kept h).lived
  | heartbeat _ _ => exact (execHeartbeat_kept h).lived
  | keyUpdate _ _ _ => exact (execKeyUpdate_kept h).lived
  | endSession _ _ => exact (execEndSession_kept h).lived
  | getPqSignature _ => exact (execGetPqSignature_kept h).lived
  | getPqCertificate _ _ => exact (execGetPqCertificate_kept h).lived
  | sidebandPowerRead _ => exact (execSidebandPowerRead_kept h).lived
  | sidebandBmcLimit _ => exact (execSidebandBmcLimit_kept h).lived
  | sidebandIndicators _ => exact (execSidebandIndicators_kept h).lived
  | sidebandColdReset => cases hr
  | sidebandWarmReset => cases hr
  | sidebandStatusRead => exact (execSidebandStatusRead_kept h).lived
  | sidebandCauseRead => exact (execSidebandCauseRead_kept h).lived
  | sidebandIndirectAddress _ => exact (execSidebandIndirectAddress_kept h).lived
  | sidebandIndirectRead => exact (execSidebandIndirectRead_kept h).lived
  | i3cDynamicAddress _ => exact (execI3cDynamicAddress_kept h).lived
  | fuseRead _ => exact (execFuseRead_kept h).lived
  | spareMap _ _ _ => exact (execSpareMap_kept h).lived
  | healthRead _ => exact (execHealthRead_kept h).lived
  | repairStage _ => exact (execRepairStage_kept h).lived
  | timeRequestReceived _ _ _ _ => exact (execTimeRequestReceived_kept h).lived
  | refInPresent => exact (execRefInPresent_kept h).lived
  | perstDeassert => cases hr
  | weirRefill => exact (execWeirRefill_kept h).lived
  | ideKm _ _ _ => exact (execIdeKm_kept h).lived
  | doeDiscovery _ _ => exact (execDoeDiscovery_kept h).lived

end Sys2Proof.Laws
end

