-- ==== Sys2Proof/Tests/Slice0.lean ====
section
/-! SUPPORT. Small tests: every check of WellFormed refuses an ill-formed term, the spec's worked examples, and for every
obligation with hypotheses a state and operands that meet them. Expected values are the spec's or counted by hand. -/

set_option Elab.async false

namespace Sys2Proof.Tests

open Sys2Proof.Machine

/-! ## States to test on -/

/-- A booted module whose link is up, with nothing loaded. -/
def served : State :=
  { State.reset with boot := { freshBoot with phase := .ready, wipeDone := true, linkWidth := 8, linkRate := 6, cxlCache := true } }

/-- Tenant `t` has a PASID, one readable and writable window over the lowest 4 GiB, and the IOMMU translates it. -/
def hosted (t : Nat) (s : State) : State :=
  let b := tenantBase t
  let s := setReg (b + 0x10) 0 5 (setReg (b + 0x10) 31 1 s)
  let s := setReg (b + 0x2008) 0 (2 ^ 32) (setReg (b + 0x2010) 0 1 (setReg (b + 0x2010) 1 1 s))
  { s with host := { mem := s.host.mem, ranges := [{ pasid := 5, base := 0, size := 2 ^ 32, target := 0, read := true, write := true }] } }

/-- A queue pair of 16 entries, in a state and a doorbell mode. -/
def withQp (t q : Nat) (st : QpState) (polled : Bool) (s : State) : State :=
  let b := qpBase t q
  let s := setReg b 0 0x10000 (setReg (b + 0x08) 0 0x20000 (setReg (b + 0x10) 0 0x1000 s))
  let s := setReg (b + 0x18) 0 16 (setReg (b + 0x1C) 0 16 s)
  modQp t q (fun _ => { freshQp with state := st, polled := polled, held := !polled }) s

/-- A descriptor of an opcode with a handle, operands given as a number shifted to byte 0x10. -/
def desc (t q op handle operands : Nat) (early : Option (Nat × Nat)) : Fetched :=
  { tenant := t, qp := q, index := 0, desc := BitVec.ofNat 512 (op + 0x200 + handle * 2 ^ 64 + operands * 2 ^ 128), req := none, early := early }

/-- Context 0 of tenant `t` in a state. -/
def withCtx (t : Nat) (st : SeqState) (s : State) : State :=
  modCtx 0 (fun c => { c with state := st, tenant := t, slot := 2, prior := .decode }) s

/-- A message of no tenant from a module. -/
def noUpdate : HostUpdate := { writes := [], ranges := none }

/-! ## WellFormed refuses what the LT9 does not have -/

theorem test_wf_tenant : (Instr.functionLevelReset 256).wf = false := by decide
theorem test_wf_queue_pair : (Instr.qpEnable .pf 0 16).wf = false := by decide
theorem test_wf_pasid : (Instr.atsInvalidation (2 ^ 20) 0 64 noUpdate).wf = false := by decide
theorem test_wf_opcode : (Instr.append (desc 0 0 3 0 0 none)).wf = false := by decide +kernel
theorem test_wf_open_needs_a_request : (Instr.openSeq (desc 0 0 1 0 0 none)).wf = false := by decide +kernel
theorem test_wf_slot : (Instr.sweepDone 16 0).wf = false := by decide
theorem test_wf_block : (Instr.sluiceSeal 2097152).wf = false := by decide
theorem test_wf_layer : (Instr.hostWindow 0 8).wf = false := by decide
theorem test_wf_quad : (Instr.diversionCopyDone 0 0 256).wf = false := by decide
theorem test_wf_context : (Instr.tailCopyDone 65536).wf = false := by decide
theorem test_wf_domain : (Instr.escalation ⟨1, 0, 128⟩ 0).wf = false := by decide
theorem test_wf_domain_quadrant : (Instr.fatalFault 0x10 ⟨0, 4, 0⟩ true).wf = false := by decide
theorem test_wf_finding : (Instr.scrubPass [⟨3, 0, 0, true⟩]).wf = false := by decide
theorem test_wf_path : (Instr.tenantSeal (.vf 0) 0).wf = false := by decide
theorem test_wf_vector : (Instr.vectorTimeThreshold 0 64).wf = false := by decide
theorem test_wf_table_entry : (Instr.msixUnmask 0 (.entry 64 0 0 false)).wf = false := by decide
theorem test_wf_bar : (Instr.registerWrite (.vf 7) 0x10000 4 0).wf = false := by decide
theorem test_wf_write_size : (Instr.registerWrite .pf 0x10 0 0).wf = false := by decide
theorem test_wf_link_width : (Instr.trainingComplete 3 6 true).wf = false := by decide
theorem test_wf_link_rate : (Instr.cxlLinkRetrain 8 7 true).wf = false := by decide
theorem test_wf_phase : (Instr.phaseFault 26).wf = false := by decide
theorem test_wf_core : (Instr.coreWatchdog 2).wf = false := by decide
theorem test_wf_channel : (Instr.channelRetrained 2 16).wf = false := by decide
theorem test_wf_port : (Instr.retrain 8).wf = false := by decide
theorem test_wf_position : (Instr.joinTimeout 64).wf = false := by decide
theorem test_wf_sideband_address : (Instr.i3cDynamicAddress 128).wf = false := by decide
theorem test_wf_die : (Instr.fuseRead 4).wf = false := by decide
theorem test_wf_bank : (Instr.spareMap 0 0 1024).wf = false := by decide
theorem test_wf_repair : (Instr.repairStage { quad := 4, layer := 0, bank := 0, isRow := true, line := 0 }).wf = false := by decide
theorem test_ill_formed_command_stops : exec (.retrain 8) served = .fault .noSuchUnit := rfl
theorem test_line_outside_the_range_stops : exec (.cxlMemRead (2 ^ 42)) served = .fault .outsideRange := rfl

/-! ## The spec's worked examples -/

/-- Chapter 17's example of check unit 4 of Q1: the address of its configuration register and the CRC-32C of its check string. -/
theorem test_check_unit_address : ckuBase 20 = 0x00502400 := by decide
theorem test_check_unit_value :
    (ckuPoint 0x0003203C, ckuEnabled 0x0003203C, ckuWidth 0x0003203C, ckuFilter 0x0003203C, ckuAll 0x0003203C) = (0, true, 32, 3, false) := by decide
theorem test_crc32c_check_string : crc32c [0x31, 0x32, 0x33, 0x34, 0x35, 0x36, 0x37, 0x38, 0x39] = 0xE3069283 := by decide +kernel

/-- Chapter 5's example after R113: the tree of 16,777,216.0, 1.0 and 1.0 loses both ones; adding the two small ones first
gives 16,777,218.0. -/
theorem test_tree_of_three : pairTree [0x4B800000, 0x3F800000, 0x3F800000] = 0x4B800000 := by decide +kernel
theorem test_small_pair_first : f32Add 0x4B800000 (f32Add 0x3F800000 0x3F800000) = 0x4B800001 := by decide +kernel

/-- Chapter 5's example after R120 in INT8: scale 1,613 * 2^-16, elements 127 and -41; in INT4: minimum -0.75, scale
1,639 * 2^-13, elements 15 and 6. -/
theorem test_kv_int8_example :
    let g := quantInt8 [.fin true 1 0, .fin false 25 (-3)]
    (fp16.decode g.scale = .fin false 1613 (-16) ∧ g.codes = [0xD7, 0x7F]) := by decide +kernel
theorem test_kv_int4_example :
    let g := quantInt4 [.fin true 3 (-2), .fin false 9 (-2), .fin false 1 (-1)]
    (g.minimum = 0xBA00 ∧ fp16.decode g.scale = .fin false 1639 (-13) ∧ g.codes = [0, 15, 6]) := by decide +kernel

/-- Chapter 18's example: through the VF the tenant writes queue-pair fields but no window, and with a quota of 0 ENABLE
leaves the queue pair DISABLED with QUOTA. -/
theorem test_tenant_may_not_write_its_window :
    ∃ t, exec (.registerWrite (.vf 7) 0x2008 8 0x200000000) served = .next t ∧ (t.tenant 7).refusedKind = 9 := ⟨_, rfl, by decide +kernel⟩
theorem test_tenant_without_quota : enableReason { served with security := { freshSecurity with state := .operational } } 7 0 = rsQuota := by decide +kernel

/-- R5: tenant 7's mirror at 0x0107_0000. -/
theorem test_tenant_mirror : tenantBase 7 = 0x01070000 := by decide

/-- R25: the empty queue passes one slot of 64 aclk: ten reference edges and four aclk (R344). -/
theorem test_idle_slot : step served = .next { served with clock := { freshClock with count := 10 * 0x000A000000000000, phase := 4 } } := rfl

/-- Table 02-7 and R375: DUMP_RELEASE clears the reserve and destroys its key. -/
theorem test_dump_release :
    let s := { served with faults := { freshFaults with dumpInReserve := true, reserve := [1] }, security := { freshSecurity with dumpKey := some 1 } }
    exec .dumpRelease s = .next { s with faults := { freshFaults with dumpInReserve := false }, security := { freshSecurity with dumpKey := none } } := rfl

/-- Table 17-2: SEAL_SET adds. -/
theorem test_seal_adds : exec (.sealSet 0b100000) { served with seals := 1 } = .next { served with seals := 0b100001 } := rfl

/-! ## States and operands that meet the statements' hypotheses -/

theorem witness_idle_queue : served.pending = [] ∧ served.answers = true ∧ State.reset.answers = false := by decide +kernel
theorem witness_front_command : ({ served with pending := [.dumpRelease, .waitPeriod] } : State).pending = .dumpRelease :: [.waitPeriod] := rfl
theorem witness_forms : Formed served ∧ ∃ t, step served = .next t :=
  ⟨⟨⟨rfl, rfl, rfl⟩, by decide, by decide⟩, _, rfl⟩
theorem witness_queue_untouched : ∃ t, exec .waitPeriod served = .next t := ⟨_, rfl⟩
theorem witness_wf_completes :
    (Instr.cxlMemRead 0x3FFFFFFFFC0).wf = true ∧ carried (.cxlMemRead 0x3FFFFFFFFC0) = true ∧ isCxlMem (.retrain 8) = false ∧
      (Instr.retrain 8).wf = false ∧ carried (.cxlMemRead 1) = false := by decide
theorem witness_seal : mayReset (.sealSet 1) = false ∧ ∃ t, exec (.sealSet 1) served = .next t := ⟨rfl, _, rfl⟩
theorem witness_fatal_stands : mayReset .waitPeriod = false ∧ ({ served with faults := { freshFaults with fatal := true } } : State).faults.fatal = true ∧
    ∃ t, exec .waitPeriod { served with faults := { freshFaults with fatal := true } } = .next t := ⟨rfl, rfl, _, rfl⟩
theorem witness_no_power : ({ served with power := { freshPower with on := false } } : State).power.on = false ∧
    ∃ t, exec .waitPeriod { served with power := { freshPower with on := false } } = .next t := ⟨rfl, _, rfl⟩
theorem witness_not_serving : needsService .waitPeriod = true ∧ State.reset.serving = false ∧ needsExposure .raGo = true ∧ State.reset.exposed = false ∧
    needsSecrets (.getVersion 0) = true ∧ alwaysExposed .pf 0x310000 = false ∧ ∃ t, exec .waitPeriod State.reset = .next t :=
  ⟨rfl, by decide, rfl, by decide, rfl, by decide, _, rfl⟩

/-- A tenant with a line it can reach, in cached and in polled mode, at the highest tenant and queue pair. -/
theorem witness_doorbell :
    let s (p : Bool) := withQp 255 15 .active p (hosted 255 served)
    (((s false).qp 255 15).state = .active ∧ lineReadable (s false) 255 = true ∧ (readHost (s false) 255 ((s false).dbAddr 255 15) 64).isSome = true ∧
      ((s false).qp 255 15).polled = false ∧ ((s true).qp 255 15).polled = true ∧ lineReadable (s true) 255 = true) := by decide +kernel

/-- A line one queue pair's DB_ADDR lies in, and one nobody's does; without translation it fails. -/
theorem witness_invalidation :
    let s := withQp 255 15 .active false (hosted 255 served)
    (coveredQps s 5 0x1000 64 = [(255, 15)] ∧ coveredQps s 5 0x2000 64 = [] ∧ coveredQps s 6 0x1000 64 = [] ∧ lineReadable s 255 = true ∧
      translates { s with host := { s.host with ranges := [] } } 255 (s.dbAddr 255 15) 64 false = false) := by decide +kernel

/-- A queue pair that passes every check of ENABLE, polled and cached, and one for each reason that comes before them. -/
theorem witness_enable :
    let s := withQp 0 15 .disabled false (hosted 0 served)
    (enableReason s 0 15 = 0 ∧ s.exposed = true ∧ s.dbMode 0 15 ≠ 1 ∧ lineReadable s 0 = true ∧
      enableReason State.reset 0 0 = rsNotReady ∧ enableReason served 1 0 = rsLifecycle ∧
      enableReason (modTenant 0 (fun x => { x with resetPending := true }) served) 0 0 = rsResetting ∧
      enableReason { served with security := { freshSecurity with state := .operational } } 255 0 = rsQuota) := by decide +kernel
theorem witness_disable :
    ((withQp 255 15 .active false served).qp 255 15).state = .active ∧ ((withQp 255 15 .error false served).qp 255 15).state = .error ∧
      ((withQp 255 15 .stopping false served).qp 255 15).state = .stopping ∧ (served.qp 255 15).state = .disabled ∧ served.exposed = true ∧
      (served.tenant 255).resetPending = false := by decide +kernel

/-- Moderation at the least and the greatest count, with a pending event whose time is over. -/
theorem witness_moderation :
    let s := modVector 255 63 (fun e => { e with pending := 256, oldest := 0 }) served
    (served.modCount 255 63 = 1 ∧ (256 ≠ s.modCount 255 63) ∧ (s.vector 255 63).pending = 256 ∧ (s.vector 255 63).oldest + ofNs 0 ≤ s.now ∧
      (served.vector 255 63).pending = 0 ∧ (0 ≠ served.modCount 255 63)) := by decide +kernel
theorem witness_time_threshold :
    let s := modVector 0 63 (fun e => { e with pending := 1, oldest := 0 }) served
    (s.serving = true ∧ (s.vector 0 63).pending ≠ 0 ∧ (s.vector 0 63).oldest + ofNs (1000 * s.modTime 0 63) ≤ s.now) := by decide +kernel
theorem witness_unmask : (MsixChange.entry 63 0 0 false).wf = true ∧ served.exposed = true ∧ (served.tenant 255).resetPending = false := by decide +kernel
theorem witness_seals : served.answers = true ∧ served.exposed = true ∧ (served.tenant 0).resetPending = false := by decide +kernel
theorem witness_register_fields :
    (0 < 3 ∧ 0x1FFFFFD + 3 ≤ 0x2000000 ∧ (3 ≠ 4 ∧ 3 ≠ 8)) ∧ (({ served with seals := 0b100001 } : State).seals.getLsbD 0 = true) ∧
      ({ served with seals := 0b100001 } : State).seals.getLsbD 5 = true ∧ (1 : Nat) % 2 ^ 32 % 2 ≠ served.reg 0x4C 0 0 := by decide +kernel

/-- A descriptor that failed at fetch, and one that did not, on a handle that names a context and on one that does not. -/
theorem witness_failed_at_fetch : (desc 0 0 2 0 0 (some (2, 24))).early = some (2, 24) ∧ Instr.wf (.append (desc 0 0 2 0 0 (some (2, 24)))) = true ∧ served.serving = true := by decide +kernel
theorem witness_handles :
    namedCtx served 0 0 = none ∧ namedCtx (withCtx 0 .decode served) 0 0 = some 0 ∧ Instr.wf (.append (desc 0 0 2 0 0 none)) = true ∧
      ({ served with junction := { freshJunction with role := .worker } } : State).junction.role = .worker := by decide +kernel
theorem witness_append :
    let s := withCtx 0 .decode (hosted 0 served)
    (servesSequences s ∧ namedCtx s 0 0 = some 0 ∧ (s.ctx 0).state = .decode ∧ totalTokens (s.ctx 0) + 1048575 ≤ 1048576 ∧
      1048576 < totalTokens (s.ctx 0) + 1048577 ∧ (readHost s 0 0 4).isSome = true ∧ readHost served 0 0 4 = none) := by decide +kernel
theorem witness_pause_resume :
    let s (st : SeqState) := withCtx 0 st served
    (servesSequences (s .decode) ∧ ((s .parked).ctx 0).state = .parked ∧ ((s .dormant).ctx 0).state = .dormant ∧ budgetGone (s .dormant) 0 = false ∧
      budgetGone { s .dormant with tenants := [(0, { freshTenant with params := some { tenant0Params with perPeriod := 1 }, budget := 0 })] } 0 = true) := by decide +kernel
theorem witness_cancel_close :
    let s (st : SeqState) := withCtx 0 st served
    (((s .admitted).ctx 0).state.live = true ∧ ((s .done).ctx 0).state.live = false ∧ ((s .draining).ctx 0).state = .draining ∧ ((s .faulted).ctx 0).state = .faulted) := by decide +kernel
theorem witness_query_fence :
    Instr.wf (.query (desc 0 0 0x11 0 0 none)) = true ∧ dField (desc 0 0 0x11 0 0 none).desc 0x10 1 = 0 ∧ dField (desc 0 0 0x11 0 1 none).desc 0x10 1 = 1 ∧
      dField (desc 0 0 0x11 0 2 none).desc 0x10 1 = 2 ∧ Instr.wf (.fence (desc 0 0 0x12 0 0 none)) = true := by decide +kernel

/-- An OPEN of a model in slot 2 on a module that holds it READY: its 512-byte request names 8 prompt tokens and 8 new ones. -/
def openRequest : RequestCopy :=
  { block := BitVec.ofNat 4096 (2 + 2 * 2 ^ 32 + 0xFFFF * 2 ^ 48 + 0x4000 * 2 ^ 64 + 8 * 2 ^ 128 + 8 * 2 ^ 160), bias := [], stops := [] }

/-- An EXPORT_PREFIX of the first 256 tokens of a DORMANT sequence with one page. -/
def exporting (s : State) : State :=
  modSlot 2 (fun x => { x with state := .ready }) (modCtx 0 (fun c => { c with committed := 256, kvLen := 256, pages := [some 0] }) (withCtx 0 .dormant s))

theorem witness_open :
    let s := modSlot 2 (fun x => { x with state := .ready }) served
    (rSlot openRequest.block = 2 ∧ rPrefixValid openRequest.block = false ∧ adapterOk s 0 2 (rAdapter openRequest.block) = true ∧
      rPromptLen openRequest.block + rMaxNew openRequest.block = 16 ∧ takeCtx s = some 0 ∧ s.ctxCount 0 < (s.tenant 0).ctxQuota ∧
      rClass openRequest.block ≤ (s.tenant 0).highest ∧ (s.slot 2).state = .ready ∧ rBitmap openRequest.block = false ∧
      vocabularyFault openRequest 64 = none) := by decide +kernel
theorem witness_export :
    let s := exporting served
    (namedCtx s 0 0 = some 0 ∧ (s.slot (s.ctx 0).slot).state = .ready ∧ exportLengthBad s 0 256 = false ∧ exportLengthBad s 0 257 = true ∧
      pagesReady s 0 256 = true ∧ s.bindings = [] ∧ piecesFor (ceilDiv 256 256) ≤ freePieces s ∧
      pagesReady (modCtx 0 (fun c => { c with pages := [] }) s) 0 256 = false) := by decide +kernel
theorem witness_import :
    let b : PrefixBinding := { tenant := 0, value := 32, slot := 2, adapter := 0xFFFF, length := 256, lgns := [0], tokens := [], used := 0, pieces := 1 }
    let s := { served with bindings := [b] }
    (bindingFor s 0 33 = none ∧ bindingFor s 0 32 = some b ∧
      (∀ g ∈ b.lgns, ((modGroup 0 (fun x => { x with residence := .t0 }) s).group g).residence = .t0) ∧
      (∃ g ∈ b.lgns, ((modGroup 0 (fun x => { x with residence := .t1 }) s).group g).residence = .t1)) := by decide +kernel

/-! ## Hypotheses that can be met, continued -/

/-- A model package of 64 words of vocabulary, with nothing in it that these tests read. -/
def tinyPackage : Package :=
  { kind := 0, draftHeads := false, hash := 0, linkedHash := 0, modelId := 0, layersCount := 1, width := 64, queryHeads := 1, kvHeads := 1, headDim := 64, experts := 0, topK := 0, sharedExperts := 0, vocabulary := 64, maxContext := 1024, kvInt4 := false, layerNorm := false, draftSource := 0, normEpsilon := 0, rotaryBase := 0, rotaryDims := 0, rotaryScale := 0, rank := 0, adapterScale := 0, tableCount := 0, bf16Out := true, layers := [], tensors := [], scales := [], codecs := [], draft := none, templates := [], origins := [], tables := [], dataLength := 0 }

/-- An OPEN of it, fetched with its request. -/
def openFetched : Fetched := { desc 0 0 1 0 0 none with req := some openRequest }

theorem witness_open_passes :
    OpenPasses openFetched openRequest (modSlot 2 (fun x => { x with state := .ready, package := some tinyPackage }) served) 0 tinyPackage none none := by
  refine ⟨⟨by decide +kernel, by decide +kernel, by decide +kernel⟩, by decide +kernel, ⟨by decide +kernel, by decide +kernel⟩, .inl ⟨by decide +kernel, rfl⟩,
    by decide +kernel, by decide +kernel, by decide +kernel, by decide +kernel, by decide +kernel, by decide +kernel, by decide +kernel,
    .inl ⟨by decide +kernel, rfl⟩, by decide +kernel⟩

theorem witness_set_tenant :
    let s := hosted 0 served
    ((readHost s 0 0 64).isSome = true ∧ 0 < (withCtx 7 .prompt s).ctxCount 7 ∧ s.ctxCount 7 = 0 ∧ s.bindings = [] ∧ s.adapters = [] ∧
        paramsBad 1 = false ∧ (readParams 1).enabled = true ∧ paramsBad 0 = false ∧ (readParams 0).enabled = false ∧ (s.tenant 7).enabled = false ∧
        (s.tenant 0).enabled = true ∧ Instr.wf (.setTenant (desc 0 0 0x26 0 0 none)) = true) := by decide +kernel

theorem witness_pins :
    let closed := served
    let opened := { served with boot := { served.boot with latchOpen := true } }
    (closed.power.on = true ∧ closed.boot.removeReady = false ∧ closed.boot.latchOpen = false ∧ (3999 < 4000 ∨ 5700 < 3999) ∧
      (5701 < 4000 ∨ 5700 < 5701) ∧ 4000 ≤ 4000 ∧ 5700 ≤ 5700 ∧ opened.boot.latchOpen = true ∧ opened.boot.linkWidth ≠ 0) := by decide +kernel
theorem witness_attention :
    let worker := { served with junction := { freshJunction with role := .worker } }
    let leaving := { served with junction := { freshJunction with role := .worker, evacState := 1 } }
    (99 < 100 ∧ 100 ≤ 3000 ∧ 3000 < 3001 ∧ served.power.on = true ∧ served.boot.phase ≠ .bootFail ∧ served.faults.fatal = false ∧
      served.junction.role = .standalone ∧ worker.junction.evacState = 0 ∧ leaving.junction.evacState ≠ 0) := by decide +kernel
theorem witness_cold_reset :
    (served.power.on = true ∧ coldRunning served = false ∧ coldRunning { served with boot := { served.boot with phase := .training } } = true) := by decide +kernel
theorem witness_warm_reset :
    (served.answers = true ∧ served.power.on = true ∧ served.boot.phase = .ready ∧ ({ served with boot := { served.boot with phase := .wiping } } : State).answers = true) := by decide +kernel
theorem witness_boot :
    let at' (p : BootPhase) : State := { State.reset with boot := { freshBoot with phase := p } }
    (8 ∈ [1, 2, 4, 8] ∧ 6 ∈ [1, 2, 3, 4, 5, 6] ∧ served.power.on = true ∧ ({ served with power := { freshPower with on := false } } : State).power.on = false ∧
      (at' .held).power.on = true ∧ (at' .training).answers = true ∧ (at' .wiping).answers = true ∧ (at' .training).boot.linkWidth = 0) := by decide +kernel

/-- A record that passes every check in a state. -/
def goodRecord (s : State) : SignedCommand :=
  { payloadLength := 0, identity := Config.identityId, nonce := s.security.nonce, payloadHash := sha384 [], payload := [], reservedZero := true, signedByOwner := true, signedByZuloth := true }

theorem good_record (s : State) : RecordGood (goodRecord s) s := ⟨Nat.zero_le _, rfl, rfl, rfl, rfl, rfl⟩

/-- The module in a life-cycle state. -/
def inState (l : LifeCycle) : State := { served with security := { freshSecurity with state := l } }

theorem witness_transition :
    let k := goodRecord (inState .blank)
    lifeStep (.provision k) = some (k, [.blank], .provisioned) ∧ (inState .blank).answers = true ∧ (inState .blank).boot.phase ≠ .bootFail ∧
      RecordGood k (inState .blank) ∧ SignedFor (.provision k) (inState .blank) ∧ (inState .blank).security.state ∈ [LifeCycle.blank] ∧
      (inState .blank).security.count < 63 ∧ AtRest (inState .blank) ∧ coldRunning (inState .blank) = false ∧
      (inState .retired).security.state ∉ [LifeCycle.blank] :=
  ⟨rfl, by decide +kernel, by decide +kernel, good_record _, rfl, by decide +kernel, by decide +kernel, ⟨(by decide +kernel : ∀ x ∈ (inState .blank).ctxs, x.2.state = .free), by decide +kernel⟩, by decide +kernel, by decide +kernel⟩
theorem witness_enrolment :
    let s := inState .provisioned
    let full := { s with security := { s.security with enrolled := List.replicate 8 { rsa := 1, slh := 1 } } }
    s.answers = true ∧ s.boot.phase ≠ .bootFail ∧ RecordGood (goodRecord s) s ∧ (goodRecord s).signedByOwner = true ∧ s.security.count < 63 ∧
      s.security.state = .provisioned ∧ s.security.enrolled.length + (s.security.enrolling.filter Prod.fst).length < 8 ∧ full.security.enrolled.length = 8 ∧
      s.security.booted < 2 ∧ bundleOk s.security.minSvn s.security.bank0 = true ∧
      bundleOk s.security.minSvn { s.security.bank0 with training := { s.security.bank0.training with rsaOk := false } } = false :=
  ⟨by decide +kernel, by decide +kernel, good_record _, rfl, by decide +kernel, by decide +kernel, by decide +kernel, by decide +kernel, by decide +kernel, by decide +kernel, by decide +kernel⟩

/-- The responder of function 0 in this condition. -/
def responder (y : Spdm) : State := { served with security := { freshSecurity with spdm := [(0, y)] } }

theorem witness_attestation :
    let v := responder { freshSpdm with version := true }
    let c := responder { freshSpdm with version := true, capabilities := true }
    let a := responder { freshSpdm with version := true, capabilities := true, algorithms := true, lastSigned := some 0 }
    (attests served ∧ attests v ∧ attests c ∧ attests a ∧ (served.spdmOf 0).version = false ∧ (served.spdmOf 0).capabilities = false ∧ (served.spdmOf 0).algorithms = false ∧
      (v.spdmOf 0).version = true ∧ (c.spdmOf 0).capabilities = true ∧ (a.spdmOf 0).algorithms = true ∧ (a.spdmOf 0).lastSigned = some 0 ∧ (served.spdmOf 0).lastSigned = none) := by decide +kernel
theorem witness_sessions :
    let s := responder { freshSpdm with algorithms := true, handshaking := [3], sessions := [4] }
    let k := { s with security := { s.security with ide := [(2, { programmed := true, secure := true, keyGen := 1 })] } }
    (attests s ∧ attests k ∧ (s.spdmOf 0).algorithms = true ∧ 3 ∈ (s.spdmOf 0).handshaking ∧ 5 ∉ (s.spdmOf 0).handshaking ∧ 4 ∈ (s.spdmOf 0).sessions ∧
      5 ∉ (s.spdmOf 0).sessions ∧ (k.spdmOf 0).sessions ≠ [] ∧ (served.spdmOf 0).sessions = [] ∧
      (fmGet k.security.ide 2 { programmed := false, secure := false, keyGen := 0 }).programmed = true ∧ (fmFind k.security.ide 2).isSome = true ∧
      (setReg 0x4C 0 1 k).reg 0x4C 0 0 = 1) := by decide +kernel
theorem witness_sideband :
    (served.power.on = true ∧ (7 : Word32).toNat % 4 = 3 ∧ (0x101 : Word32).toNat % 4 ≠ 3 ∧ served.security.state ≠ .retired ∧ (inState .retired).security.state = .retired ∧
      (inState .retired).power.on = true ∧ ({ isRow := true, quad := 3, layer := 7, bank := 1023, line := 0 } : Repair).wf = true) := by decide +kernel
theorem witness_reference :
    let on := { setReg 0x10004 0 1 served with clock := { freshClock with refPresent := true } }
    let later := { served with clock := { freshClock with count := 2000000000 * 2 ^ 48 } }
    let worker := { served with junction := { freshJunction with role := .worker } }
    (on.answers = true ∧ on.reg 0x10004 0 0 = 1 ∧ on.clock.refPresent = true ∧ on.junction.role = .standalone ∧ served.reg 0x10004 0 0 ≠ 1 ∧
      served.clock.refPresent = false ∧ later.clock.lastPulse < later.now / 65536 / 1000000000 ∧ served.now / 65536 / 1000000000 ≤ served.clock.lastPulse ∧
      served.exposed = true ∧ (7 : Word64).toNat ≠ served.reg 0x10028 0 0 ∧ ({ served with seals := 2 } : State).seals.getLsbD 1 = true ∧ served.seals.getLsbD 1 = false ∧
      worker.exposed = true ∧ (withCtx 0 .prompt served).exposed = true ∧ ((withCtx 0 .prompt served).ctxs.any fun c => c.2.state.live) = true) := by decide +kernel
theorem witness_time_exchange :
    let h : MsgHead := { source := 5, tag := 9, epoch := 0, address := 0, length := 0, tenant := 0, step := 0 }
    let o : Outstanding := { destination := 5, tag := 9, op := 4, resolving := false, retried := false }
    let w := { served with junction := { freshJunction with role := .worker, managerId := 5, outstanding := [o] }, clock := { freshClock with exchange := some 1 } }
    let m := { served with junction := { freshJunction with role := .manager } }
    (h.wf = true ∧ served.junction.role = .standalone ∧ w.answers = true ∧ w.junction.role = .worker ∧ w.clock.exchange = some 1 ∧ requestOf w 5 9 = some o ∧
      m.junction.role = .manager ∧ h.epoch = m.junction.epoch ∧ ({ h with epoch := 1 } : MsgHead).epoch ≠ m.junction.epoch ∧
      (w.junction.outstanding.filter fun x => x.destination == w.junction.managerId).length < 4096 ∧ w.ctxs = []) := by decide +kernel
/-- Port 0 in this condition. -/
def portIn (y : Port) : State := { served with ports := [(0, y)] }

theorem witness_ports :
    let h : Hello := { moduleId := 7, domainId := 0, role := 0, epoch := 0, identityOk := true }
    let t := portIn { freshPort with state := .training }
    let u := portIn { freshPort with state := .up, wearRun := [(0, 9)] }
    let f := portIn { freshPort with state := .failed, autoTrainings := 3 }
    (served.exposed = true ∧ t.exposed = true ∧ u.exposed = true ∧ f.exposed = true ∧ (served.port 0).state = .down ∧ (t.port 0).state = .training ∧
      (u.port 0).state = .up ∧ (u.port 0).pending ≠ 1 ∧ (f.port 0).state = .failed ∧ h.domainId = t.reg 0x310004 0 0 ∧ h.moduleId ≠ t.moduleId ∧
      selectLanes [2] = some 2 ∧ selectLanes [] = some 7 ∧ selectLanes [1, 4] = none ∧ selectLanes [0, 3] = none ∧ selectLanes [4] = some 7 ∧
      (u.port 0).autoTrainings < 3 ∧ 3 ≤ (f.port 0).autoTrainings ∧ 9 ≤ fmGet (u.port 0).wearRun 0 0 ∧ 0 ∉ (u.port 0).laneWear) := by decide +kernel
theorem witness_flits :
    let y : Port := { freshPort with state := .up, unacked := [7, 8], replayRun := 15, credits := [(2, 1)] }
    let i : Port := { freshPort with state := .up, lastSeq := 4095, sinceAck := 63, credits := [(2, 1)] }
    let s := portIn y
    let r := setReg (0x310000 + 0x2000 + 9) 0 2 { portIn i with ports := [(0, i), (1, i)] }
    let f : Flit := { kind := 0, vc := 2, sequence := 0, ack := 7, nak := true, creditVc := 2, credit := 3, destination := 9, source := 4, good := true, reserved := 0, responds := true, wellTyped := true }
    (s.answers = true ∧ r.answers = true ∧ (s.port 0).state = .up ∧ (served.port 0).state ≠ .up ∧ (s.port 0).waiting = [] ∧ (s.port 0).unacked = [] ++ f.ack :: [8] ∧
      9 ∉ (s.port 0).unacked ∧ 15 ≤ (s.port 0).replayRun ∧ (r.port 0).unacked = [] ∧ f.sequence = ((r.port 0).lastSeq + 1) % 4096 ∧ (r.port 0).sinceAck = 63 ∧
      f.destination ≠ r.moduleId ∧ routePort { r with latched := r.regs } f.source f.destination = some 1 ∧ routePort r f.source f.destination = none ∧
      0 < fmGet (r.port 1).credits f.vc 0 ∧ (r.port 1).waiting = []) := by decide +kernel

/-- Block `n` in this condition. -/
def blockIn (n : Nat) (b : Block) (s : State) : State := { s with blocks := [(n, b)] }

/-- A step that runs. -/
def runningStep : Step :=
  { kind := .main, slot := 2, counter := 5, cls := 0, mode := 0, hot := false, derated := false, level := 0, rows := [], lookups := [], sections := [], slots := 10, generation := 0, started := true, startTime := 0, voided := false, voidedBlocks := [], substituted := false, heldPeriods := 0, expertFill := [], results := [] }

theorem witness_host_accesses :
    let m : Block := { unmappedBlock with state := .mapped, t0 := some 8 }
    let is (b : Block) : State := blockIn 0 b served
    let busy := { is m with step := some runningStep }
    let asked := { is m with hostQueues := [(3, [.write 0x40 (List.replicate 64 1)])] }
    (lineOk 0x40 = true ∧ served.answers = true ∧ served.boot.wipeDone = true ∧ served.security.state ≠ .retired ∧ (inState .retired).answers = true ∧
      (served.block 0).state = .unmapped ∧ 0 < hostLimit served ∧ (served.block 0x80000).state = .unmapped ∧ ¬0x80000 < hostLimit served ∧ Memory.wf served.mem = true ∧
      ((is m).block 0).state = .mapped ∧ ((is m).block 0).t0 ≠ none ∧ (is m).step = none ∧ (is m).poisoned = [] ∧ 1 ∈ ({ is m with poisoned := [1] } : State).poisoned ∧
      (∀ l, fmGet (is m).hostQueues l [] = []) ∧ busy.step = some runningStep ∧ runningStep.started = true ∧
      quadPlain busy (framePlace 8).1 (framePlace 8).2.2.2 (framePlace 8).2.2.1 = false ∧
      ((is { m with sealed := true, t0 := none, image := some 3 }).block 0).keyOwner = 0 ∧ ((is { m with sealed := true, keyOwner := 7 }).block 0).keyOwner ≠ 0 ∧
      ((is { m with state := .promoting }).block 0).state = .promoting ∧ ((is { m with state := .refetching, t0 := none }).block 0).image = none ∧
      ((is { m with state := .lost }).block 0).state = .lost ∧ asked.serving = true ∧ fmGet asked.hostQueues (0 * 8 + 3) [] = [.write 0x40 (List.replicate 64 1)]) := by
  refine ⟨by decide +kernel, by decide +kernel, by decide +kernel, by decide +kernel, by decide +kernel, by decide +kernel, by decide +kernel, by decide +kernel, by decide +kernel, by decide +kernel, by decide +kernel, by decide +kernel, by decide +kernel, by decide +kernel, by decide +kernel, fun _ => rfl, rfl, rfl, ?_⟩
  decide +kernel
theorem witness_fresh_frame : takeT0 served (0 % 4) false = some 98303 ∧ takeT0 served (3 % 4) false = some 393215 := by decide +kernel
theorem witness_sluice_weirs :
    let k (n : Nat) : State := { served with sluice := { freshSluice with commands := List.replicate n (.seal, 0) } }
    let s := setReg 0x600000 0 256 { served with governed := [{ who := .reads 1 0 0, partition := 0, bucket := 0, left := [5000] }] }
    ((k 63).exposed = true ∧ (k 63).sluice.commands.length < 64 ∧ 64 ≤ (k 64).sluice.commands.length ∧ served.lookups = [] ∧ served.governed = [] ∧
      s.answers = true ∧ s.reg 0x600000 0 0xFFFFFFFF ≠ 0xFFFFFFFF) := by decide +kernel
theorem witness_roles :
    let h : MsgHead := { source := 5, tag := 9, epoch := 0, address := 0, length := 0, tenant := 0, step := 0 }
    let g : RoleGrant := { role := 2, position := 63, manager := 5, domainManager := 5, level := 0, newEpoch := 1, leaving := none }
    let s := setReg 0x310008 0 5 (setReg 0x310008 15 1 served)
    let m := { served with junction := { freshJunction with role := .manager, members := [(7, { id := 6, role := .worker, epoch := 0, joined := true, aborts := 0 })] } }
    let lone := { served with junction := { freshJunction with role := .manager } }
    (h.wf = true ∧ s.answers = true ∧ s.reg 0x310008 15 0 = 1 ∧ h.source = s.reg 0x310008 0 0 ∧ s.ctxs = [] ∧ groupLive s = false ∧ g.role = 2 ∧ h.epoch = s.junction.epoch ∧
      served.reg 0x310008 15 0 ≠ 1 ∧ ({ h with epoch := 1 } : MsgHead).epoch ≠ s.junction.epoch ∧ m.junction.role = .manager ∧ memberAt m 63 = none ∧ 63 < 64 ∧
      memberAt m 1 = none ∧ (∀ c ∈ m.junction.changes, c.target ≠ h.source) ∧ served.junction.role = .standalone ∧ ({ served with seals := 32 } : State).seals.getLsbD 5 = true ∧
      served.anyLive = false ∧ lone.junction.members = [] ∧ groupLive lone = false ∧ lone.exposed = true) := by decide +kernel

/-- A message of module 5 at epoch 0. -/
def msg5 : MsgHead := { source := 5, tag := 9, epoch := 0, address := 0, length := 0, tenant := 0, step := 5 }

/-- A module in a role, at epoch 0. -/
def inRole (r : Role) : State := { served with junction := { freshJunction with role := r, managerId := 5 } }

theorem witness_members :
    let w := { inRole .worker with step := some { runningStep with started := false } }
    let p : PlanBody := { slot := 2, mode := 0, cls := 0, variant := 0, steps := 10, starts := [3], rows := [(0, 1)], edits := [] }
    (msg5.wf = true ∧ w.serving = true ∧ ({ msg5 with epoch := 1 } : MsgHead).epoch ≠ w.junction.epoch ∧ msg5.epoch = w.junction.epoch ∧ served.junction.role ≠ .worker ∧
      w.junction.role = .worker ∧ w.step = some { runningStep with started := false } ∧ ({ runningStep with started := false } : Step).counter = msg5.step ∧ p.edits = [] ∧
      w.clock.timeLocked = false ∧ w.now ≤ 0 ∧ 0 < ({ w with clock := { w.clock with count := 2 ^ 48 } } : State).now ∧ served.step = none) := by decide +kernel
theorem witness_manager :
    let b : ReadyBody := { position := 1, readyTime := 7, slots := [], da := [], pa := [], hot := false, derated := false, level := 0 }
    let p : PlanBody := { slot := 2, mode := 0, cls := 0, variant := 0, steps := 10, starts := [], rows := [], edits := [] }
    let m : Member := { id := 5, role := .worker, epoch := 0, joined := false, aborts := 2 }
    let x := inRole .manager
    let g := setReg 0x313008 31 1 (setReg 0x313008 0 2 { x with step := some { runningStep with started := false }, junction := { x.junction with members := [(1, m)], plan := some p, readies := [b] } })
    (b.position < 64 ∧ g.serving = true ∧ g.junction.role = .manager ∧ memberAt g b.position = some m ∧ memberAt x b.position = none ∧ m.id = msg5.source ∧ m.epoch = msg5.epoch ∧
      x.step = none ∧ g.step = some { runningStep with started := false } ∧ g.junction.plan.isSome = true ∧ g.junction.startAt = none ∧ groupStep g 2 = true ∧ modelSpan g 2 = 2 ∧
      g.junction.paused = false ∧ readyOf g 1 ≠ none ∧ 2 ≤ m.aborts ∧ m.joined = false ∧ b.position ∉ g.junction.lost) := by decide +kernel
theorem witness_evacuation :
    let j (r : Role) (e : Nat) : State := { inRole r with junction := { (inRole r).junction with evacState := e, evacWorker := 1, evacSpare := 2, members := [(1, { id := 5, role := .worker, epoch := 0, joined := true, aborts := 0 }), (2, { id := 6, role := .spare, epoch := 0, joined := true, aborts := 0 })] } }
    (msg5.wf = true ∧ (j .manager 2).serving = true ∧ msg5.epoch = (j .manager 2).junction.epoch ∧ ({ msg5 with epoch := 3 } : MsgHead).epoch ≠ (j .manager 2).junction.epoch ∧
      (j .manager 2).junction.evacWorker = 1 ∧ (memberAt (j .manager 2) 1).isSome = true ∧ (memberAt (j .manager 2) 2).isSome = true ∧ (j .manager 2).step = none ∧
      (j .manager 3).junction.evacState = 3 ∧ (inRole .manager).junction.members = [] ∧ (j .manager 0).junction.evacState = 0 ∧ (j .worker 1).junction.evacState = 1 ∧
      (j .worker 2).groups = [] ∧ (j .worker 2).junction.unacked = [] ∧ (j .spare 2).blocks = [] ∧ (inRole .standalone).junction.role = .standalone) := by decide +kernel
theorem witness_pages :
    let p : Pool := { layers := 1, heads := 1, headDim := 64, int4 := false, recurrent := false, ring := 0, window := 0, plain := [], extents := [[0], [0], [0], [0]], freeSets := [0], usable := 1, withdrawn := [], lacked := 0, idle := [] }
    let s := setReg 0x313000 31 1 { inRole .spare with pools := [(0, p)], junction := { (inRole .spare).junction with evacState := 2 } }
    let w := { inRole .worker with junction := { (inRole .worker).junction with evacState := 3, unacked := [7] } }
    let m := blockIn 0 { unmappedBlock with state := .mapped, t0 := some 8 } (inRole .worker)
    (s.serving = true ∧ s.junction.role = .spare ∧ s.junction.evacState = 2 ∧ slotForContent s (slotBytes p) = some 0 ∧ fmFind s.pools 0 = some p ∧ (s.group 3).residence ≠ .t0 ∧
      p.freeSets = 0 :: [] ∧ Memory.wf s.bank = true ∧ w.junction.unacked ≠ [] ∧ w.junction.evacState = 3 ∧ m.serving = true ∧ (m.block 0).state ≠ .unmapped ∧ 0x200000 - 1 + 1 ≤ 0x200000 ∧
      (m.block 1).state = .unmapped ∧ ({ inRole .standalone with junction := { freshJunction with evacState := 4 } } : State).serving = true ∧ (inRole .manager).junction.role = .manager) := by decide +kernel
theorem witness_remote :
    let h (a : Nat) (n : Nat) : MsgHead := { msg5 with address := BitVec.ofNat 64 a, length := n }
    let b : Block := { unmappedBlock with state := .mapped, t0 := some 8 }
    let s := blockIn 0 b served
    let k := blockIn 0 { b with sealed := true, keyOwner := 7 } served
    let busy := { s with step := some runningStep }
    (s.answers = true ∧ rangeOk (h 64 64).address 64 = true ∧ rangeOk (h 64 63).address 63 = false ∧ rangeOk (h 0 4096).address 4096 = true ∧ rangeOk (h (0x200000 - 64) 128).address 128 = false ∧
      (h 64 64).epoch = s.junction.epoch ∧ s.boot.wipeDone = true ∧ s.security.state ≠ .retired ∧ (s.block 0).state = .mapped ∧ (s.block 0).sealed = false ∧ (s.block 0).t0 ≠ none ∧
      s.poisoned = [] ∧ (k.block 0).sealed = true ∧ (k.block 0).keyOwner ≠ 0 ∧ gaClass (h (64 + 2 ^ 56) 64).address = 1 ∧ gaPosted (h (64 + 2 ^ 58) 64).address = true ∧
      gaPosted (h 64 64).address = false ∧ Memory.wf s.mem = true ∧ (gaOk (h 64 8).address && atomicOk 64 0 (List.replicate 8 0)) = true ∧ (gaOk (h 64 8).address && atomicOk 64 9 (List.replicate 8 0)) = false ∧
      queueFor s 64 = none ∧ queueFor busy 64 = some 0 ∧ (served.block 0).state = .unmapped ∧ ((blockIn 0 { b with state := .lost } served).block 0).state = .lost) := by decide +kernel
theorem witness_mailbox :
    let o : Outstanding := { destination := 5, tag := 9, op := 1, resolving := false, retried := false }
    let w (o : Outstanding) : State := { inRole .worker with junction := { (inRole .worker).junction with outstanding := [o] } }
    let s := setReg 0x314008 0 1 (setReg 0x314000 0 (5 * 2 ^ 46) (portIn { freshPort with state := .up }))
    let r := { s with latched := [(fieldKey (0x310000 + 0x2000 + 5) 0, 1)] }
    (s.exposed = true ∧ s.junction.raBusy = false ∧ raOp s = 1 ∧ raOp served = 0 ∧ gaModule (BitVec.ofNat 64 (s.reg 0x314000 0 0)) = 5 ∧ 5 ≠ s.moduleId ∧
      routePort s s.moduleId 5 = none ∧ (routePort r r.moduleId 5).isSome = true ∧ gaPosted (BitVec.ofNat 64 (s.reg 0x314000 0 0)) = false ∧ (w o).answers = true ∧
      requestOf (w o) msg5.source msg5.tag = some o ∧ requestOf served msg5.source msg5.tag = none ∧ o.op ≠ 4 ∧ requestOf (w { o with retried := true }) msg5.source msg5.tag = some { o with retried := true } ∧
      (w o).junction.role ≠ .manager ∧ (w { o with resolving := true }).junction.outstanding = [{ o with resolving := true }]) := by decide +kernel

end Sys2Proof.Tests
end

section
/-! PROOFS. The empty queue: what a pass of device time does to the clock, and the step that takes no command. -/

namespace Sys2Proof.Machine

/-- In a module whose registers answer, passing aclk advances the clock and nothing else (R343, R344). -/
theorem passAclk_of_answers {s : State} (h : s.answers = true) (n : Nat) :
    passAclk n s = { s with clock := s.clock.advance n } :=
  if_pos h

/-- Without power, or before the boot ROM has started the counter, no device time passes (R343, R405). -/
theorem passAclk_of_not_answers {s : State} (h : s.answers = false) (n : Nat) : passAclk n s = s :=
  if_neg (Bool.eq_false_iff.mp h)

/-- The idle block passes the 64 aclk of one slot (R7). -/
theorem idle_eq_passAclk (s : State) : idle s = passAclk 64 s := rfl

/-- A step with no command waiting is the idle block's. -/
theorem step_of_pending_nil {s : State} (h : s.pending = []) : step s = .next (idle s) := by
  rw [step, h]

/-- Settles O2, by whether the module's registers answer: the step is idle, and idle passes 64 aclk or none. -/
theorem emptyQueuePassesOneSlot : Obligations.EmptyQueuePassesOneSlot := by
  intro s hempty
  rw [step_of_pending_nil hempty, idle_eq_passAclk]
  constructor
  · intro hanswers
    rw [passAclk_of_answers hanswers, Clock.advance]
  · intro hsilent
    rw [passAclk_of_not_answers hsilent]

end Sys2Proof.Machine
end

section
/-! PROOFS. The waiting command: the step that takes the queue's front. -/

namespace Sys2Proof.Machine

/-- A step with a command waiting runs the oldest one on the state with the queue's rest (R25). -/
theorem step_of_pending_cons {s : State} {c : Instr} {r : List Instr} (h : s.pending = c :: r) :
    step s = exec c { s with pending := r } := by
  rw [step, h]

/-- Settles O1: it is the equation of a step whose queue has a front. -/
theorem stepRunsTheFrontCommand : Obligations.StepRunsTheFrontCommand :=
  fun _ _ _ => step_of_pending_cons

end Sys2Proof.Machine
end

section
/-! PROOFS. The state after reset: tables with nothing listed read their defaults. -/

namespace Sys2Proof.Machine

/-- A table with nothing listed has the reader's default under every key. -/
theorem fmGet_nil {α : Type} (n : Nat) (d : α) : fmGet [] n d = d := rfl

/-- After reset only tenant 0 has parameters, those of R38. -/
theorem tenant_reset_zero : State.reset.tenant 0 = { freshTenant with params := some tenant0Params } := rfl

/-- After reset every tenant above 0 is a fresh one (R38). -/
theorem tenant_reset_of_ne_zero {t : Nat} (h : t ≠ 0) : State.reset.tenant t = freshTenant := by
  simp [State.tenant, State.reset, fmGet, fmFind, h.symm]

/-- Settles O3: the reset state's tables list tenant 0 alone, so every other entry is its table's fresh value. -/
theorem resetLeavesTheResetValues : Obligations.ResetLeavesTheResetValues := by
  have tenants : ∀ t, (State.reset.tenant t).sealed = false ∧ ((State.reset.tenant t).params.isSome ↔ t = 0) := by
    intro t
    by_cases h : t = 0
    · subst h
      simp [tenant_reset_zero, freshTenant]
    · simp [tenant_reset_of_ne_zero h, freshTenant, h]
  refine ⟨rfl, rfl, rfl, rfl, fun t q => ?_, fun i => ?_, fun k => ?_, fun n => ?_, fun p => ?_, tenants,
    rfl, rfl, rfl, rfl, rfl, rfl, rfl, rfl, rfl, rfl, rfl, rfl, rfl, fun a => rfl⟩
  · exact congrArg Qp.state (fmGet_nil (t * 16 + q) freshQp)
  · exact congrArg Ctx.state (fmGet_nil i freshCtx)
  · exact congrArg ModelSlot.state (fmGet_nil k emptySlot)
  · exact congrArg Block.state (fmGet_nil n unmappedBlock)
  · exact congrArg Port.state (fmGet_nil p freshPort)

end Sys2Proof.Machine
end

section
/-! PROOFS. Descriptors taking effect (chapter 2): each leaves its queue, and one that failed at fetch, names no sequence,
or asks a WORKER or SPARE for one, only completes. -/

namespace Sys2Proof.Machine

variable {c : Instr} {d : Fetched} {s : State}

/-! ## A descriptor leaves its queue and completes -/

/-- A descriptor's completion after it has left its queue is all that happens. -/
theorem completeFetched_consume (status detail handle : Nat) (result : BitVec 128) :
    completeFetched d status detail handle result (consume d s) = answered d status detail handle result s := rfl

/-- The same with the descriptor's own handle and no result. -/
theorem complete_consume (status detail : Nat) :
    complete d status detail (consume d s) = answered d status detail (ownHandle d) 0 s := rfl

/-- A descriptor that failed a check at fetch completes with that failure, whatever its effect would be (R35). -/
theorem takeEffect_of_early (f : Fetched → State → State) {status detail : Nat} (h : d.early = some (status, detail)) :
    takeEffect f d s = answered d status detail (ownHandle d) 0 s := by
  rw [takeEffect, h]
  exact complete_consume status detail

/-- A descriptor that passed checks 1 to 7 has its effect once it has left its queue (R35). -/
theorem takeEffect_of_passed (f : Fetched → State → State) (h : d.early = none) : takeEffect f d s = f d (consume d s) := by
  rw [takeEffect, h]

/-! ## Roles (R325) -/

/-- A module that is no WORKER and no SPARE serves every descriptor itself. -/
theorem roleStale_of_servesSequences (h : servesSequences s) (w : DescWord) : roleStale s w = false := by
  obtain ⟨hworker, hspare⟩ := h
  simp [roleStale, hworker, hspare]

/-- A WORKER or SPARE serves no descriptor of an opcode below QUERY's. -/
theorem roleStale_of_member (h : s.junction.role = .worker ∨ s.junction.role = .spare) {w : DescWord} (hop : dOpcode w < 0x11) :
    roleStale s w = true := by
  have hle : dOpcode w ≤ 17 := by omega
  have hne : dOpcode w ≠ 17 := by omega
  simp [roleStale, h, hle, hne]

/-! ## Commands that take effect -/

/-- A fetched descriptor of a command has the command's opcode in its byte 0 (R33). -/
theorem dOpcode_of_wf {op : Nat} (h : d.wf op = true) : dOpcode d.desc = op := by
  simp only [Fetched.wf, Bool.and_eq_true, decide_eq_true_eq] at h
  obtain ⟨_, hopcode⟩ := h
  simpa [dOpcode, dField, fieldAt, bitsOf] using hopcode

/-- Every descriptor's command takes effect in a module that serves. -/
theorem exec_descriptorCommand (h : c ∈ descriptorCommands d) (w : c.wf = true) :
    ∃ f, ∀ s, exec c s = .next (whenServing (takeEffect f d) s) := by
  simp only [descriptorCommands, List.mem_cons, List.not_mem_nil, or_false] at h
  rcases h with rfl | rfl | rfl | rfl | rfl | rfl | rfl | rfl | rfl | rfl | rfl | rfl | rfl | rfl | rfl | rfl | rfl | rfl | rfl
  · exact ⟨openEffect, fun _ => Laws.exec_openSeq w⟩
  · exact ⟨appendEffect, fun _ => Laws.exec_append w⟩
  · exact ⟨pauseEffect, fun _ => Laws.exec_pause w⟩
  · exact ⟨resumeEffect, fun _ => Laws.exec_resume w⟩
  · exact ⟨cancelEffect, fun _ => Laws.exec_cancel w⟩
  · exact ⟨closeEffect, fun _ => Laws.exec_close w⟩
  · exact ⟨exportEffect, fun _ => Laws.exec_exportPrefix w⟩
  · exact ⟨importEffect, fun _ => Laws.exec_importPrefix w⟩
  · exact ⟨dropEffect, fun _ => Laws.exec_dropPrefix w⟩
  · exact ⟨lookupEffect, fun _ => Laws.exec_embedLookup w⟩
  · exact ⟨queryEffect, fun _ => Laws.exec_query w⟩
  · exact ⟨fenceEffect, fun _ => Laws.exec_fence w⟩
  · exact ⟨loadModelEffect, fun _ => Laws.exec_loadModel w⟩
  · exact ⟨unloadModelEffect, fun _ => Laws.exec_unloadModel w⟩
  · exact ⟨loadAdapterEffect, fun _ => Laws.exec_loadAdapter w⟩
  · exact ⟨unloadAdapterEffect, fun _ => Laws.exec_unloadAdapter w⟩
  · exact ⟨loadTableEffect, fun _ => Laws.exec_loadTable w⟩
  · exact ⟨replayEffect, fun _ => Laws.exec_replay w⟩
  · exact ⟨setTenantEffect, fun _ => Laws.exec_setTenant w⟩

/-- The commands on a sequence act on the context their handle names, and carry an opcode below QUERY's. -/
theorem exec_sequenceCommand (h : c ∈ [.append d, .pause d, .resume d, .cancel d, .close d, .exportPrefix d]) (w : c.wf = true) :
    dOpcode d.desc < 0x11 ∧ ∃ f, ∀ s, exec c s = .next (whenServing (takeEffect (onSeq f) d) s) := by
  have below {op : Nat} (hwf : d.wf op = true) (hop : op < 0x11 := by decide) : dOpcode d.desc < 0x11 :=
    dOpcode_of_wf hwf ▸ hop
  simp only [List.mem_cons, List.not_mem_nil, or_false] at h
  rcases h with rfl | rfl | rfl | rfl | rfl | rfl
  · exact ⟨below w, appendCtx, fun _ => Laws.exec_append w⟩
  · exact ⟨below w, pauseCtx, fun _ => Laws.exec_pause w⟩
  · exact ⟨below w, resumeCtx, fun _ => Laws.exec_resume w⟩
  · exact ⟨below w, cancelCtx, fun _ => Laws.exec_cancel w⟩
  · exact ⟨below w, closeCtx, fun _ => Laws.exec_close w⟩
  · exact ⟨below w, exportCtx, fun _ => Laws.exec_exportPrefix w⟩

/-! ## What fails before any effect -/

/-- Settles O24: every descriptor's command takes effect by one operation, which looks at the failure first. -/
theorem descriptorThatFailedAtFetchOnlyCompletes : Obligations.DescriptorThatFailedAtFetchOnlyCompletes := by
  intro c d s status detail hc hwf hserving hearly
  obtain ⟨f, hexec⟩ := exec_descriptorCommand hc hwf
  rw [hexec, Laws.whenServing_yes s hserving, takeEffect_of_early f hearly]

/-- A handle that names no sequence of its tenant (R34). -/
theorem onSeq_of_unnamed (f : Nat → Fetched → State → State) (h : namedCtx s d.tenant (dHandle d.desc) = none) :
    onSeq f d s = complete d stUnknownHandle 0 s := by
  rw [onSeq, h]

/-- A sequence that the MANAGER of the group serves (R325). -/
theorem onSeq_of_roleStale (f : Nat → Fetched → State → State) {i : Nat} (h : namedCtx s d.tenant (dHandle d.desc) = some i)
    (hrole : roleStale s d.desc = true) : onSeq f d s = complete d stRoleStale 0 s := by
  rw [onSeq, h]
  exact if_pos hrole

/-- Settles O25: both checks come before the effect on the context. -/
theorem handlesAreCheckedBeforeAnyEffect : Obligations.HandlesAreCheckedBeforeAnyEffect := by
  intro c d s hc ⟨hwf, hserving, hearly⟩
  obtain ⟨hop, f, hexec⟩ := exec_sequenceCommand hc hwf
  rw [hexec, Laws.whenServing_yes s hserving, takeEffect_of_passed _ hearly]
  constructor
  · intro hnone
    rw [onSeq_of_unnamed f (s := consume d s) hnone, complete_consume]
  · intro i hsome hmember
    rw [onSeq_of_roleStale f (s := consume d s) hsome (roleStale_of_member hmember hop), complete_consume]

/-! ## QUERY and FENCE -/

/-- QUERY of kind 0 reports a sequence's state, committed and delivered lengths (Table 02-8). -/
theorem queryEffect_sequence {i : Nat} (hkind : dField d.desc 0x10 1 = 0) (hi : namedCtx s d.tenant (dHandle d.desc) = some i)
    (hrole : roleStale s d.desc = false) :
    queryEffect d s = completeFetched d stOk 0 (dHandle d.desc)
      (BitVec.ofNat 128 ((s.ctx i).state.code + (s.ctx i).committed * 2 ^ 32 + (s.ctx i).delivered % 2 ^ 32 * 2 ^ 64)) s := by
  simp [queryEffect, hkind, hi, hrole]

/-- QUERY of kind 1 reports a tenant's tokens left and its next refill (Table 02-8). -/
theorem queryEffect_budget (hkind : dField d.desc 0x10 1 = 1) (hrole : roleStale s d.desc = false) :
    queryEffect d s = completeFetched d stOk 0 0
      (BitVec.ofNat 128 (tokensLeft (s.tenant d.tenant) + nextRefill (s.tenant d.tenant) % 2 ^ 64 * 2 ^ 64)) s := by
  simp [queryEffect, hkind, hrole]

/-- QUERY of kind 2 reports a READY slot's state and package hash, in any role (Table 02-8, R325). -/
theorem queryEffect_readySlot {p : Package} (hkind : dField d.desc 0x10 1 = 2)
    (hp : (s.slot (dField d.desc 0x11 1)).package = some p) (hready : (s.slot (dField d.desc 0x11 1)).state = .ready) :
    queryEffect d s = completeFetched d stOk 0 0 (BitVec.ofNat 128 (2 + p.hash.toNat % 2 ^ 64 * 2 ^ 64)) s := by
  simp [queryEffect, hkind, hp, hready]

/-- What a well-formed QUERY that passed its checks at fetch does in a module that serves. -/
theorem exec_query_of_passed (hwf : (Instr.query d).wf = true) (hserving : s.serving = true) (hearly : d.early = none) :
    exec (.query d) s = .next (queryEffect d (consume d s)) := by
  rw [Laws.exec_query hwf, Laws.whenServing_yes s hserving, takeEffect_of_passed _ hearly]

/-- Settles O30, by the kind of the QUERY; a FENCE starts to run and nothing more. -/
theorem queryReportsAndFenceWaits : Obligations.QueryReportsAndFenceWaits := by
  intro d s hserving hearly
  refine ⟨fun hwf hserves => ⟨fun i hkind hi => ?_, fun hkind => ?_⟩, fun hwf hkind p hp hready => ?_, fun hwf => ?_⟩
  · rw [exec_query_of_passed hwf hserving hearly, queryEffect_sequence (s := consume d s) hkind hi
      (roleStale_of_servesSequences hserves _), completeFetched_consume]
    rfl
  · rw [exec_query_of_passed hwf hserving hearly, queryEffect_budget (s := consume d s) hkind
      (roleStale_of_servesSequences hserves _), completeFetched_consume]
    rfl
  · rw [exec_query_of_passed hwf hserving hearly, queryEffect_readySlot (s := consume d s) hkind hp hready,
      completeFetched_consume]
  · rw [Laws.exec_fence hwf, Laws.whenServing_yes s hserving, takeEffect_of_passed _ hearly]
    rfl

end Sys2Proof.Machine
end

section
/-! PROOFS. Interrupt vectors (R50, R435, R457): what firing a vector does, and that events change interrupts alone. -/

namespace Sys2Proof.Machine

variable {t v : Nat} {s x y : State}

/-! ## One vector set -/

theorem vector_modVector_self (f : MsixVector → MsixVector) : (modVector t v f s).vector t v = f (s.vector t v) := by
  simp [modVector, State.vector]

theorem vector_modVector_other (f : MsixVector → MsixVector) {w : Nat} (h : w ≠ v) :
    (modVector t v f s).vector t w = s.vector t w := by
  simp [modVector, State.vector, Laws.fmGet_fmModify_other _ _ _ _ h]

theorem tenant_modVector_other (f : MsixVector → MsixVector) {u : Nat} (h : u ≠ t) : (modVector t v f s).tenant u = s.tenant u :=
  Laws.tenant_modTenant_other s _ h

/-! ## Firing -/

/-- A vector that fires leaves the other vectors of its tenant as they were. -/
theorem fireVector_vector_other {w : Nat} (h : w ≠ v) : (fireVector t v s).vector t w = s.vector t w := by
  unfold fireVector
  split
  · exact vector_modVector_other _ h
  · exact vector_modVector_other _ h

/-- A vector that fires leaves the other tenants as they were. -/
theorem fireVector_tenant_other {u : Nat} (h : u ≠ t) : (fireVector t v s).tenant u = s.tenant u := by
  unfold fireVector
  split
  · exact tenant_modVector_other _ h
  · exact tenant_modVector_other _ h

/-- A vector fires by its message where it can be sent, and by its PBA bit otherwise (R435, R457). -/
theorem fireVector_fired : Fired t v s (fireVector t v s) := by
  unfold fireVector
  split
  case isTrue hsend =>
    rw [Fired, vector_modVector_self]
    exact ⟨rfl, fun _ => ⟨rfl, rfl⟩, fun hheld => absurd hsend (Bool.eq_false_iff.mp hheld)⟩
  case isFalse hsend =>
    rw [Fired, vector_modVector_self]
    exact ⟨rfl, fun h => absurd h hsend, fun _ => ⟨rfl, rfl⟩⟩

/-! ## The frame of an event -/

/-- Only tenants' interrupt state and what has been sent may differ. -/
def InterruptsOnly (s x : State) : Prop := x = { s with tenants := x.tenants, out := x.out }

theorem InterruptsOnly.trans (h : InterruptsOnly s y) (k : InterruptsOnly y x) : InterruptsOnly s x :=
  Eq.trans k (congrArg (fun z : State => { z with tenants := x.tenants, out := x.out }) h)

/-- Events change no queue pair. -/
theorem InterruptsOnly.qps (h : InterruptsOnly s x) : x.qps = s.qps := (congrArg State.qps h :)

theorem modTenant_interruptsOnly (f : Tenant → Tenant) : InterruptsOnly s (modTenant t f s) := rfl

theorem fireVector_interruptsOnly : InterruptsOnly s (fireVector t v s) := by
  unfold fireVector
  split
  · rfl
  · rfl

theorem raiseVector_interruptsOnly : InterruptsOnly s (raiseVector t v s) := by
  unfold raiseVector
  dsimp only
  split
  · exact (modTenant_interruptsOnly _).trans fireVector_interruptsOnly
  · rfl

/-! ## The time threshold -/

/-- A vector whose oldest pending event has waited MOD_TIME meets its moderation (R50). -/
theorem moderationMet_of_waited (hpending : (s.vector t v).pending ≠ 0)
    (hwaited : (s.vector t v).oldest + ofNs (1000 * s.modTime t v) ≤ s.now) : moderationMet s t v = true := by
  simp [moderationMet, hpending, hwaited]

/-- A vector without a pending event meets no threshold (R435). -/
theorem moderationMet_of_idle (h : (s.vector t v).pending = 0) : moderationMet s t v = false := by
  simp [moderationMet, h]

/-- At a vector's time threshold a module that serves moderates the vector. -/
theorem exec_vectorTimeThreshold_of_serving (ht : t < 256) (hv : v < 64) (hserving : s.serving = true) :
    exec (.vectorTimeThreshold t v) s = .next (if moderationMet s t v then fireVector t v s else s) := by
  have hwf : (Instr.vectorTimeThreshold t v).wf = true := by simp [Instr.wf, tenantOk, ht, hv]
  rw [Laws.exec_vectorTimeThreshold hwf, Laws.whenServing_yes s hserving]

/-- Settles O19: the time threshold is one of those that moderation asks for, and without a pending event none is met. -/
theorem vectorFiresAtItsTimeThreshold : Obligations.VectorFiresAtItsTimeThreshold := by
  intro t v s ht hv hserving
  rw [exec_vectorTimeThreshold_of_serving ht hv hserving]
  constructor
  · intro hpending hwaited
    refine ⟨fireVector t v s, ?_, fireVector_fired, fun w => fireVector_vector_other, fun u => fireVector_tenant_other,
      fireVector_interruptsOnly⟩
    rw [if_pos (moderationMet_of_waited hpending hwaited)]
  · intro hidle
    rw [if_neg (Bool.eq_false_iff.mp (moderationMet_of_idle hidle))]

end Sys2Proof.Machine
end

section
/-! PROOFS. Doorbell lines (R31, R32, R37 to R41, R49): what a queue pair's error, the fetch and the read of a line make of
the queue pair, and that they change nothing else but counts and interrupts. -/

namespace Sys2Proof.Machine

variable {t q : Nat} {s x y : State}

/-! ## The frame of a queue pair -/

/-- Only this queue pair, counts and interrupts may differ. -/
def QueueOnly (t q : Nat) (s x : State) : Prop :=
  (∀ u r, r < 16 → (u, r) ≠ (t, q) → x.qp u r = s.qp u r) ∧ x = { s with qps := x.qps, tenants := x.tenants, out := x.out }

theorem QueueOnly.refl (t q : Nat) (s : State) : QueueOnly t q s s := ⟨fun _ _ _ _ => rfl, rfl⟩

theorem QueueOnly.trans (h : QueueOnly t q s y) (k : QueueOnly t q y x) : QueueOnly t q s x := by
  obtain ⟨hothers, hrest⟩ := h
  obtain ⟨kothers, krest⟩ := k
  exact ⟨fun u r hr hne => (kothers u r hr hne).trans (hothers u r hr hne),
    krest.trans (congrArg (fun z : State => { z with qps := x.qps, tenants := x.tenants, out := x.out }) hrest)⟩

/-- What changes no table of queue pairs leaves every queue pair as it is. -/
theorem InterruptsOnly.qp (h : InterruptsOnly s x) (u r : Nat) : x.qp u r = s.qp u r :=
  congrArg (fun m => fmGet m (u * 16 + r) freshQp) h.qps

theorem InterruptsOnly.queueOnly (h : InterruptsOnly s x) : QueueOnly t q s x :=
  ⟨fun u r _ _ => h.qp u r, by rw [h.qps]; exact h⟩

/-- Queue pairs of the 16 of a tenant have places of their own in the table. -/
theorem modQp_queueOnly (hq : q < 16) (f : Qp → Qp) : QueueOnly t q s (modQp t q f s) := by
  refine ⟨fun u r hr hne => Laws.qp_modQp_other s f fun hkey => hne ?_, rfl⟩
  rw [Prod.mk.injEq]
  omega

/-! ## A queue pair enters ERROR (Table 02-1) -/

/-- An ACTIVE queue pair enters ERROR with the reason and stays otherwise as it was. -/
theorem qp_qpError_of_active {reason : Nat} (h : (s.qp t q).state = .active) :
    (qpError t q reason s).qp t q = { s.qp t q with state := .error, reason := reason } := by
  rw [qpError, if_pos h, raiseVector_interruptsOnly.qp, Laws.qp_modQp_self]

theorem qpError_queueOnly (hq : q < 16) (reason : Nat) : QueueOnly t q s (qpError t q reason s) := by
  unfold qpError
  split
  · exact (modQp_queueOnly hq _).trans raiseVector_interruptsOnly.queueOnly
  · exact .refl t q s

/-! ## Fetching -/

/-- Descriptors of a queue pair with the indices from `n` on, in the order of the SQ. -/
def InSqOrder (t q n : Nat) (l : List Fetched) : Prop :=
  ∀ i d, l[i]? = some d → d.tenant = t ∧ d.qp = q ∧ d.index = n + i

theorem InSqOrder.nil (t q n : Nat) : InSqOrder t q n [] := by simp [InSqOrder]

theorem InSqOrder.singleton (d : Fetched) : InSqOrder d.tenant d.qp d.index [d] := by
  intro i e he
  obtain ⟨rfl, rfl⟩ : i = 0 ∧ d = e := by simpa [List.getElem?_singleton] using he
  exact ⟨rfl, rfl, rfl⟩

theorem InSqOrder.append {n : Nat} {l m : List Fetched} (hl : InSqOrder t q n l) (hm : InSqOrder t q (n + l.length) m) :
    InSqOrder t q n (l ++ m) := by
  intro i d hd
  by_cases hi : i < l.length
  · exact hl i d (List.getElem?_append_left hi ▸ hd)
  · have hge : l.length ≤ i := Nat.le_of_not_lt hi
    obtain ⟨ht, hq, hindex⟩ := hm (i - l.length) d (List.getElem?_append_right hge ▸ hd)
    exact ⟨ht, hq, by omega⟩

/-- A queue pair `b` that comes from `a` by fetching `l`: the descriptors stand behind those waiting and are counted in
FETCHED, and the state may show a fault of the fetch (R37). -/
def FetchedBy (l : List Fetched) (a b : Qp) : Prop :=
  b = { a with state := b.state, reason := b.reason, fetched := a.fetched + l.length, queue := a.queue ++ l }

theorem FetchedBy.refl (a : Qp) : FetchedBy [] a a := by simp [FetchedBy]

theorem FetchedBy.trans {l m : List Fetched} {a b c : Qp} (h : FetchedBy l a b) (k : FetchedBy m b c) :
    FetchedBy (l ++ m) a c := by
  unfold FetchedBy at h k ⊢
  rw [k, h]
  simp [Nat.add_assoc]

/-- Descriptors of this queue pair are fetched in SQ order, and nothing else changes but counts and interrupts. -/
def Fetches (t q : Nat) (s x : State) : Prop :=
  QueueOnly t q s x ∧ ∃ l, InSqOrder t q (s.qp t q).fetched l ∧ FetchedBy l (s.qp t q) (x.qp t q)

theorem Fetches.refl (t q : Nat) (s : State) : Fetches t q s s := ⟨.refl t q s, [], .nil t q _, .refl _⟩

theorem Fetches.trans (h : Fetches t q s y) (k : Fetches t q y x) : Fetches t q s x := by
  obtain ⟨hframe, l, hlorder, hl⟩ := h
  obtain ⟨kframe, m, kmorder, km⟩ := k
  have hcount : (y.qp t q).fetched = (s.qp t q).fetched + l.length := congrArg Qp.fetched hl
  exact ⟨hframe.trans kframe, l ++ m, hlorder.append (hcount ▸ kmorder), hl.trans km⟩

/-- A queue pair that enters ERROR fetches nothing. -/
theorem qpError_fetches (hq : q < 16) (reason : Nat) : Fetches t q s (qpError t q reason s) := by
  refine ⟨qpError_queueOnly hq reason, [], .nil t q _, ?_⟩
  by_cases hactive : (s.qp t q).state = .active
  · rw [qp_qpError_of_active hactive]
    simp [FetchedBy]
  · rw [qpError, if_neg hactive]
    exact .refl _

/-- The descriptor that a read of the SQ's next place gives, with what checks 1 to 7 make of it. -/
def nextFetched (t q : Nat) (bs : List Byte) (s : State) : Fetched :=
  let r := fetchCheck s t (BitVec.ofNat 512 (leNat bs))
  { tenant := t, qp := q, index := (s.qp t q).fetched, desc := BitVec.ofNat 512 (leNat bs), req := r.2, early := r.1 }

/-- One descriptor is fetched, or none where its bytes cannot be read (R37). -/
theorem fetchOne_fetches (hq : q < 16) : Fetches t q s (fetchOne t q s) := by
  unfold fetchOne
  dsimp only
  split
  · exact qpError_fetches hq _
  next bs _ =>
    refine ⟨(modQp_queueOnly hq _).trans (modTenant_interruptsOnly _).queueOnly, [nextFetched t q bs s],
      .singleton (nextFetched t q bs s), ?_⟩
    rw [count, (modTenant_interruptsOnly _).qp, Laws.qp_modQp_self]
    rfl

theorem fetchSome_fetches (hq : q < 16) (n : Nat) (s : State) : Fetches t q s (fetchSome t q n s) := by
  induction n generalizing s with
  | zero => exact .refl t q s
  | succ n ih =>
    unfold fetchSome
    dsimp only
    split
    · exact (fetchOne_fetches hq).trans (ih _)
    · exact .refl t q s

theorem fetchReady_fetches (hq : q < 16) (s : State) : Fetches t q s (fetchReady t q s) := by
  unfold fetchReady
  split
  · exact fetchSome_fetches hq _ s
  · exact .refl t q s

/-! ## Reading a line (R31, R39, R41) -/

/-- The state in which the tail and the head that a line shows have been taken. -/
def lineTaken (t q : Nat) (bs : List Byte) (s : State) : State :=
  modQp t q (fun x => { x with tail := leAt bs 0 4, head := leAt bs 4 4, held := !x.polled }) s

/-- The tail a line shows is behind what has been fetched, or further ahead than the SQ is long (R31). -/
def tailBeyond (t q : Nat) (bs : List Byte) (s : State) : Prop :=
  countDiff (leAt bs 0 4) (s.qp t q).fetched < 0 ∨ (s.sqSize t q : Int) < countDiff (leAt bs 0 4) (s.qp t q).fetched

/-- The head a line shows is past what has been written (R31). -/
def headBeyond (t q : Nat) (bs : List Byte) (s : State) : Prop := countDiff (s.qp t q).written (leAt bs 4 4) < 0

theorem qp_lineTaken (bs : List Byte) : (lineTaken t q bs s).qp t q =
    { s.qp t q with tail := leAt bs 0 4, head := leAt bs 4 4, held := !(s.qp t q).polled } :=
  Laws.qp_modQp_self s t q _

/-- What an ACTIVE queue pair makes of a line that the LT9 can read: the faults the line shows, or the fetch (R31, R41). -/
theorem readDoorbell_of_read {bs : List Byte} (hactive : (s.qp t q).state = .active) (hreadable : lineReadable s t = true)
    (hread : readHost s t (s.dbAddr t q) 64 = some bs) :
    (tailBeyond t q bs s → readDoorbell t q s = qpError t q rsSqOverflow (lineTaken t q bs s)) ∧
    (¬tailBeyond t q bs s → headBeyond t q bs s → readDoorbell t q s = qpError t q rsCqHead (lineTaken t q bs s)) ∧
    (¬tailBeyond t q bs s → ¬headBeyond t q bs s → readDoorbell t q s = fetchReady t q (lineTaken t q bs s)) := by
  let y := (lineTaken t q bs s).qp t q
  have hbody : readDoorbell t q s =
      if countDiff y.tail y.fetched < 0 ∨ (s.sqSize t q : Int) < countDiff y.tail y.fetched then
        qpError t q rsSqOverflow (lineTaken t q bs s)
      else if countDiff y.written y.head < 0 then qpError t q rsCqHead (lineTaken t q bs s)
      else fetchReady t q (lineTaken t q bs s) := by
    rw [readDoorbell, if_neg (not_not_intro hactive), if_neg (by simp [hreadable]), hread]
    rfl
  have hy : y = { s.qp t q with tail := leAt bs 0 4, head := leAt bs 4 4, held := !(s.qp t q).polled } := qp_lineTaken bs
  rw [hy] at hbody
  refine ⟨fun hlong => ?_, fun hshort hpast => ?_, fun hshort hinside => ?_⟩
  · exact hbody.trans (if_pos hlong)
  · exact (hbody.trans (if_neg hshort)).trans (if_pos hpast)
  · exact (hbody.trans (if_neg hshort)).trans (if_neg hinside)

/-- A read of a line that fetches in SQ order, and nothing at all where the line shows a fault, does what the line says. -/
theorem lineRead_of_fetchedBy {bs : List Byte} {l : List Fetched} (hframe : QueueOnly t q s x)
    (hqp : FetchedBy l ((lineTaken t q bs s).qp t q) (x.qp t q)) (horder : InSqOrder t q (s.qp t q).fetched l)
    (hlong : tailBeyond t q bs s → (x.qp t q).state = .error ∧ (x.qp t q).reason = rsSqOverflow ∧ l = [])
    (hpast : ¬tailBeyond t q bs s → headBeyond t q bs s → (x.qp t q).state = .error ∧ (x.qp t q).reason = rsCqHead ∧ l = []) :
    LineRead t q bs s x := by
  rw [qp_lineTaken] at hqp
  have hqueue : (x.qp t q).queue = (s.qp t q).queue ++ l := congrArg Qp.queue hqp
  have hfetched : (x.qp t q).fetched = (s.qp t q).fetched + l.length := congrArg Qp.fetched hqp
  refine ⟨congrArg Qp.tail hqp, congrArg Qp.head hqp, congrArg Qp.held hqp, (congrArg Qp.written hqp :),
    (congrArg Qp.running hqp :), fun h => ?_, fun h k => ?_, fun _ _ => ⟨l, hqueue, hfetched, horder⟩, hframe⟩
  · obtain ⟨hstate, hreason, rfl⟩ := hlong h
    exact ⟨hstate, hreason, by simpa using hqueue, by simpa using hfetched⟩
  · obtain ⟨hstate, hreason, rfl⟩ := hpast h k
    exact ⟨hstate, hreason, by simpa using hqueue, by simpa using hfetched⟩

/-- The read of a line that the LT9 can read does what the line says, and the line stays where it was translated to. -/
theorem readDoorbell_lineRead {bs : List Byte} (hq : q < 16) (hactive : (s.qp t q).state = .active)
    (hreadable : lineReadable s t = true) (hread : readHost s t (s.dbAddr t q) 64 = some bs) :
    LineRead t q bs s (readDoorbell t q s) ∧ ((readDoorbell t q s).qp t q).line = (s.qp t q).line := by
  obtain ⟨hlong, hpast, hfetch⟩ := readDoorbell_of_read hactive hreadable hread
  have htaken : QueueOnly t q s (lineTaken t q bs s) := modQp_queueOnly hq _
  have hstill : ((lineTaken t q bs s).qp t q).state = .active := by rw [qp_lineTaken]; exact hactive
  have faulted (reason : Nat) : QueueOnly t q s (qpError t q reason (lineTaken t q bs s)) ∧
      FetchedBy [] ((lineTaken t q bs s).qp t q) ((qpError t q reason (lineTaken t q bs s)).qp t q) := by
    refine ⟨htaken.trans (qpError_queueOnly hq reason), ?_⟩
    rw [qp_qpError_of_active hstill]
    simp [FetchedBy]
  have hline {l : List Fetched} {x : State} (h : FetchedBy l ((lineTaken t q bs s).qp t q) (x.qp t q)) :
      (x.qp t q).line = (s.qp t q).line := by
    rw [qp_lineTaken] at h
    exact (congrArg Qp.line h :)
  by_cases htail : tailBeyond t q bs s
  · rw [hlong htail]
    obtain ⟨hframe, hqp⟩ := faulted rsSqOverflow
    refine ⟨lineRead_of_fetchedBy hframe hqp (.nil t q _) (fun _ => ?_) fun h => absurd htail h, hline hqp⟩
    rw [qp_qpError_of_active hstill]
    exact ⟨rfl, rfl, rfl⟩
  by_cases hhead : headBeyond t q bs s
  · rw [hpast htail hhead]
    obtain ⟨hframe, hqp⟩ := faulted rsCqHead
    refine ⟨lineRead_of_fetchedBy hframe hqp (.nil t q _) (fun h => absurd h htail) fun _ _ => ?_, hline hqp⟩
    rw [qp_qpError_of_active hstill]
    exact ⟨rfl, rfl, rfl⟩
  · rw [hfetch htail hhead]
    obtain ⟨hframe, l, horder, hqp⟩ := fetchReady_fetches (t := t) hq (lineTaken t q bs s)
    have hcount : ((lineTaken t q bs s).qp t q).fetched = (s.qp t q).fetched := by rw [qp_lineTaken]
    exact ⟨lineRead_of_fetchedBy (htaken.trans hframe) hqp (hcount ▸ horder) (fun h => absurd h htail)
      fun _ h => absurd h hhead, hline hqp⟩

/-! ## The commands that read a line -/

/-- A host write brings its changes and has the line of a queue pair in cached mode read (R39). -/
theorem exec_doorbellInvalidate_of_lt (u : HostUpdate) (ht : t < 256) (hq : q < 16) : exec (.doorbellInvalidate t q u) s =
    .next (if (s.qp t q).polled then hostChange u s else readDoorbell t q (hostChange u s)) :=
  Laws.exec_doorbellInvalidate (by simp [Instr.wf, tenantOk, qpOk, ht, hq])

/-- An expired polling interval has the line of a queue pair in polled mode read (R40). -/
theorem exec_doorbellPoll_of_lt (u : HostUpdate) (ht : t < 256) (hq : q < 16) : exec (.doorbellPoll t q u) s =
    .next (if (s.qp t q).polled then readDoorbell t q (hostChange u s) else hostChange u s) :=
  Laws.exec_doorbellPoll (by simp [Instr.wf, tenantOk, qpOk, ht, hq])

/-- Settles O14, by the mode of the queue pair; the host's changes leave the queue pair and its registers. -/
theorem doorbellReadTakesTailAndHead : Obligations.DoorbellReadTakesTailAndHead := by
  intro t q u s bs ht hq hactive hreadable hread
  have hline : LineRead t q bs (hostChange u s) (readDoorbell t q (hostChange u s)) :=
    (readDoorbell_lineRead (s := hostChange u s) hq hactive hreadable hread).1
  rw [exec_doorbellInvalidate_of_lt u ht hq, exec_doorbellPoll_of_lt u ht hq]
  constructor
  · intro hcached
    rw [if_neg (Bool.eq_false_iff.mp hcached), if_neg (Bool.eq_false_iff.mp hcached)]
    exact ⟨⟨_, rfl, hline⟩, rfl⟩
  · intro hpolled
    rw [if_pos hpolled, if_pos hpolled]
    exact ⟨⟨_, rfl, hline⟩, rfl⟩

/-! ## Invalidated translations (R39, R49) -/

/-- The state in which a line has been dropped, at the address it will be read from next. -/
def lineDropped (t q line : Nat) (s : State) : State := modQp t q (fun y => { y with held := false, line := line }) s

/-- A tenant's windows cover the same in states with the same registers. -/
theorem windowsCover_of_regs_eq (h : x.regs = s.regs) (u a e : Nat) (wr : Bool) (fuel : Nat) :
    windowsCover x u a e wr fuel = windowsCover s u a e wr fuel := by
  have hreg : x.reg = s.reg := by unfold State.reg; rw [h]
  have hend : windowEnd x = windowEnd s := by unfold windowEnd; rw [hreg]
  induction fuel generalizing a with
  | zero => rfl
  | succ fuel ih => simp only [windowsCover, hend, ih]

/-- Host memory reads the same in states with the same registers, memory and IOMMU (R49). -/
theorem readHost_of_regs_eq (hregs : x.regs = s.regs) (hhost : x.host = s.host) (u a n : Nat) : readHost x u a n = readHost s u a n := by
  unfold readHost reachable inWindows translates State.pasid State.pasidValid State.reg
  rw [windowsCover_of_regs_eq hregs, hregs, hhost]

/-- An invalidation that covers no line only brings the host's changes. -/
theorem exec_atsInvalidation_of_none {p b n : Nat} {u : HostUpdate} (hp : p < 2 ^ 20) (hcovered : coveredQps (hostChange u s) p b n = []) :
    exec (.atsInvalidation p b n u) s = .next (hostChange u s) := by
  rw [Laws.exec_atsInvalidation (by simpa [Instr.wf] using hp)]
  dsimp only
  rw [hcovered]
  rfl

/-- An invalidation that covers the line of one ACTIVE queue pair in cached mode drops it and has it read again where it
translates, and is an error of the queue pair where it does not. -/
theorem exec_atsInvalidation_of_one {p b n : Nat} {u : HostUpdate} (hp : p < 2 ^ 20)
    (hcovered : coveredQps (hostChange u s) p b n = [(t, q)]) (hactive : (s.qp t q).state = .active)
    (hcached : (s.qp t q).polled = false) (hserving : s.serving = true) :
    exec (.atsInvalidation p b n u) s = .next
      (if translates (hostChange u s) t (s.dbAddr t q) 64 false then
        readDoorbell t q (lineDropped t q ((translate (hostChange u s).host.ranges p (s.dbAddr t q)).getD 0) (hostChange u s))
      else qpError t q rsDbFault (modQp t q (fun y => { y with held := false }) (hostChange u s))) := by
  have hcovers : ((hostChange u s).qp t q).state = .active ∧ (!((hostChange u s).qp t q).polled) = true :=
    ⟨hactive, by rw [Bool.not_eq_true']; exact hcached⟩
  have hserves : (!(hostChange u s).serving) = false := by rw [Bool.not_eq_false']; exact hserving
  rw [Laws.exec_atsInvalidation (by simpa [Instr.wf] using hp)]
  simp only [hcovered, forEach, List.foldl_cons, List.foldl_nil, if_pos hcovers, hserves, Bool.false_eq_true, false_or]
  rfl

/-- A line can be read only by a module that serves. -/
theorem serving_of_lineReadable (h : lineReadable s t = true) : s.serving = true := by
  simp only [lineReadable, Bool.and_eq_true] at h
  obtain ⟨⟨hserving, _⟩, _⟩ := h
  exact hserving

/-- What can be read for a tenant translates (R49). -/
theorem translates_of_readHost {a n : Nat} {bs : List Byte} (h : readHost s t a n = some bs) : translates s t a n false = true := by
  unfold readHost at h
  split at h
  case isTrue hreach =>
    obtain ⟨_, htranslates⟩ := (Bool.and_eq_true _ _).mp hreach
    exact htranslates
  case isFalse => exact absurd h (by simp)

/-- The read of a line after it has been dropped is a read of the line as it stood. -/
theorem LineRead.of_lineDropped {bs : List Byte} {line : Nat} (hq : q < 16) (h : LineRead t q bs (lineDropped t q line s) x) :
    LineRead t q bs s x := by
  have hdropped : QueueOnly t q s (lineDropped t q line s) := modQp_queueOnly hq _
  have hqp : (lineDropped t q line s).qp t q = { s.qp t q with held := false, line := line } := Laws.qp_modQp_self s t q _
  unfold LineRead at h ⊢
  rw [hqp] at h
  obtain ⟨htail, hhead, hheld, hwritten, hrunning, hlong, hpast, hfetch, hframe⟩ := h
  exact ⟨htail, hhead, hheld, hwritten, hrunning, hlong, hpast, hfetch, hdropped.trans hframe⟩

/-- Settles O15: the covered queue pair's line is dropped, and then read or found not to translate. -/
theorem invalidatedLineIsReadAgain : Obligations.InvalidatedLineIsReadAgain := by
  intro p b n t q u s hp _ hq
  refine ⟨exec_atsInvalidation_of_none hp, fun hcovered hactive hcached hreadable => ?_⟩
  rw [exec_atsInvalidation_of_one hp hcovered hactive hcached (serving_of_lineReadable hreadable)]
  refine ⟨fun hmiss => ?_, fun bs hread => ?_⟩
  · rw [if_neg (Bool.eq_false_iff.mp hmiss)]
    let y := modQp t q (fun y => { y with held := false }) (hostChange u s)
    have hy : y.qp t q = { s.qp t q with held := false } := Laws.qp_modQp_self (hostChange u s) t q _
    have hqp : (qpError t q rsDbFault y).qp t q = { s.qp t q with held := false, state := .error, reason := rsDbFault } := by
      rw [qp_qpError_of_active (by rw [hy]; exact hactive), hy]
    obtain ⟨hothers, hrest⟩ := (modQp_queueOnly hq _).trans (qpError_queueOnly (t := t) (s := y) hq rsDbFault)
    exact ⟨_, rfl, congrArg Qp.state hqp, congrArg Qp.reason hqp, congrArg Qp.held hqp, (congrArg Qp.queue hqp :), hothers, hrest⟩
  · rw [if_pos (translates_of_readHost hread)]
    let line := (translate (hostChange u s).host.ranges p (s.dbAddr t q)).getD 0
    let y := lineDropped t q line (hostChange u s)
    have hy : y.qp t q = { s.qp t q with held := false, line := line } := Laws.qp_modQp_self (hostChange u s) t q _
    have hstill : (y.qp t q).state = .active := by rw [hy]; exact hactive
    have hbytes : readHost y t (s.dbAddr t q) 64 = some bs :=
      (readHost_of_regs_eq (x := y) (s := hostChange u s) rfl rfl t _ 64).trans hread
    obtain ⟨hread', hline⟩ := readDoorbell_lineRead (s := y) hq hstill hreadable hbytes
    exact ⟨_, rfl, hread'.of_lineDropped hq, by rw [hline, hy]⟩

/-! ## Disabling (R32, R432) -/

/-- A tenant's own path reaches its own block and no other tenant's. -/
theorem pathReaches_ownPath (t : Nat) : pathReaches (ownPath t) t = true := by
  unfold ownPath
  split <;> simp [pathReaches]

/-- Table 18-1 refuses a tenant none of its own fields on its own path. -/
theorem ownFieldKind_ownPath (t : Nat) : ownFieldKind (ownPath t) t = 0 := by
  unfold ownPath
  split <;> simp [ownFieldKind, *]

/-- A tenant's own path names a function the LT9 has. -/
theorem wf_ownPath (ht : t < 256) : (ownPath t).wf = true := by
  unfold ownPath
  split
  · rfl
  next h => simp [RegPath.wf, tenantOk, ht, Nat.pos_of_ne_zero h]

/-- What a disable through the tenant's own path comes to. -/
theorem disableQp_ownPath : disableQp (ownPath t) t q s =
    if (s.tenant t).resetPending then refuseWrite (ownPath t) (pathOffset (ownPath t) t (0x128 + 0x100 * q)) 11 s
    else if (s.qp t q).state = .active ∨ (s.qp t q).state = .error then modQp t q (fun x => { x with state := .stopping }) s
    else s := by
  simp [disableQp, pathReaches_ownPath, ownFieldKind_ownPath]

/-- A disable through the tenant's own path has its effect where the tenant block is exposed. -/
theorem exec_qpDisable_ownPath (ht : t < 256) (hq : q < 16) (hexposed : s.exposed = true) :
    exec (.qpDisable (ownPath t) t q) s = .next (disableQp (ownPath t) t q s) := by
  have hwf : (Instr.qpDisable (ownPath t) t q).wf = true := by simp [Instr.wf, wf_ownPath ht, tenantOk, qpOk, ht, hq]
  rw [Laws.exec_qpDisable hwf, Laws.whenExposed_yes s hexposed]

/-- Settles O17, by whether the tenant is being reset and by the queue pair's state. -/
theorem disableBeginsToStop : Obligations.DisableBeginsToStop := by
  intro t q s ht hq hexposed
  rw [exec_qpDisable_ownPath ht hq hexposed, disableQp_ownPath]
  refine ⟨fun hidle => ⟨fun hrunning => ?_, fun hstopped => ?_⟩, fun hreset => ?_⟩
  · rw [if_neg (Bool.eq_false_iff.mp hidle), if_pos hrunning]
  · have hnot : ¬((s.qp t q).state = .active ∨ (s.qp t q).state = .error) := by
      rcases hstopped with h | h
      · simp [h]
      · simp [h]
    rw [if_neg (Bool.eq_false_iff.mp hidle), if_neg hnot]
  · rw [if_pos hreset]

end Sys2Proof.Machine
end

section
/-! PROOFS. The life of a sequence (chapter 3): APPEND, PAUSE, RESUME, CANCEL and CLOSE on the context a handle names. -/

namespace Sys2Proof.Machine

variable {d : Fetched} {s : State} {i : Nat}

/-! ## A descriptor on the sequence its handle names -/

/-- A descriptor that passed checks 1 to 7 reaches the context its handle names, in a module that serves its sequences itself
(R34, R35, R325). -/
structure Reaches (d : Fetched) (s : State) (i : Nat) : Prop where
  serving : s.serving = true
  passed : d.early = none
  named : namedCtx s d.tenant (dHandle d.desc) = some i
  serves : servesSequences s

/-- A sequence whose handle and role checks pass meets the effect itself. -/
theorem onSeq_of_named (f : Nat → Fetched → State → State) (hnamed : namedCtx s d.tenant (dHandle d.desc) = some i)
    (hrole : roleStale s d.desc = false) : onSeq f d s = f i d s := by
  rw [onSeq, hnamed]
  exact if_neg (Bool.eq_false_iff.mp hrole)

/-- A descriptor that reaches a sequence leaves its queue and has its effect on the context. -/
theorem Reaches.takeEffect_onSeq (h : Reaches d s i) (f : Nat → Fetched → State → State) :
    whenServing (takeEffect (onSeq f) d) s = f i d (consume d s) := by
  rw [Laws.whenServing_yes s h.serving, takeEffect_of_passed _ h.passed,
    onSeq_of_named f (s := consume d s) h.named (roleStale_of_servesSequences h.serves _)]

theorem Reaches.exec_append (h : Reaches d s i) (hwf : (Instr.append d).wf = true) :
    exec (.append d) s = .next (appendCtx i d (consume d s)) :=
  (Laws.exec_append hwf).trans (congrArg _ (h.takeEffect_onSeq appendCtx))

theorem Reaches.exec_pause (h : Reaches d s i) (hwf : (Instr.pause d).wf = true) :
    exec (.pause d) s = .next (pauseCtx i d (consume d s)) :=
  (Laws.exec_pause hwf).trans (congrArg _ (h.takeEffect_onSeq pauseCtx))

theorem Reaches.exec_resume (h : Reaches d s i) (hwf : (Instr.resume d).wf = true) :
    exec (.resume d) s = .next (resumeCtx i d (consume d s)) :=
  (Laws.exec_resume hwf).trans (congrArg _ (h.takeEffect_onSeq resumeCtx))

theorem Reaches.exec_cancel (h : Reaches d s i) (hwf : (Instr.cancel d).wf = true) :
    exec (.cancel d) s = .next (cancelCtx i d (consume d s)) :=
  (Laws.exec_cancel hwf).trans (congrArg _ (h.takeEffect_onSeq cancelCtx))

theorem Reaches.exec_close (h : Reaches d s i) (hwf : (Instr.close d).wf = true) :
    exec (.close d) s = .next (closeCtx i d (consume d s)) :=
  (Laws.exec_close hwf).trans (congrArg _ (h.takeEffect_onSeq closeCtx))

/-- A handle names no FREE context (R34). -/
theorem Reaches.not_free (h : Reaches d s i) : (s.ctx i).state ≠ .free := by
  have hnamed := h.named
  unfold namedCtx at hnamed
  dsimp only at hnamed
  split at hnamed
  next hlive =>
    cases hnamed
    exact hlive.1
  next => cases hnamed

/-- A context changed before its descriptor completes is a context changed after it. -/
theorem complete_modCtx_consume (status detail : Nat) (f : Ctx → Ctx) :
    complete d status detail (modCtx i f (consume d s)) = modCtx i f (answered d status detail (ownHandle d) 0 s) := rfl

/-- The states from which sequences are taken into steps (Table 03-1). -/
theorem working_iff (x : SeqState) : x.working = true ↔ x = .admitted ∨ x = .prompt ∨ x = .decode := by
  cases x <;> simp [SeqState.working]

/-- A change of a context is what it makes of that context. -/
theorem modCtx_congr {f g : Ctx → Ctx} (h : f (s.ctx i) = g (s.ctx i)) : modCtx i f s = modCtx i g s :=
  congrArg (fun c => { s with ctxs := fmSet s.ctxs i c }) h

/-- The context a descriptor changes is the one it found. -/
theorem ctx_modCtx_answered_self (status detail handle : Nat) (result : BitVec 128) (f : Ctx → Ctx) :
    (modCtx i f (answered d status detail handle result s)).ctx i = f (s.ctx i) :=
  Laws.ctx_modCtx_self (answered d status detail handle result s) i f

/-- No other context changes with it. -/
theorem ctx_modCtx_answered_other (status detail handle : Nat) (result : BitVec 128) (f : Ctx → Ctx) {j : Nat} (h : j ≠ i) :
    (modCtx i f (answered d status detail handle result s)).ctx j = s.ctx j :=
  Laws.ctx_modCtx_other (answered d status detail handle result s) f h

/-! ## PAUSE (R71) -/

/-- Held as DORMANT, a sequence keeps the working state it was in, or else the one already recorded (Table 03-1). -/
theorem holdSeq_dormant {c : Ctx} (h : c.state ≠ .admitted) : holdSeq .dormant c =
    { c with state := .dormant, prior := if c.state = .prompt ∨ c.state = .decode then c.state else c.prior } := by
  simp only [holdSeq, working_iff, h, false_or]
  split <;> rfl

theorem pauseCtx_of_held (h : (s.ctx i).state ∈ [.prompt, .decode, .siding, .parked]) :
    pauseCtx i d s = complete d stOk 0 (modCtx i (fun c =>
      { c with state := .dormant, prior := if c.state = .prompt ∨ c.state = .decode then c.state else c.prior, expiry := s.stamp + ofNs (dField d.desc 0x10 4 * 1000000), sidingMark := false }) s) := by
  have hheld : (s.ctx i).state ≠ .admitted := by
    intro hadmitted
    simp [hadmitted] at h
  have hpause : pauseCtx i d s = complete d stOk 0 (modCtx i (fun c =>
      { holdSeq .dormant c with expiry := s.stamp + ofNs (dField d.desc 0x10 4 * 1000000), sidingMark := false }) s) := by
    simp only [List.mem_cons, List.not_mem_nil, or_false] at h
    rcases h with h | h | h | h <;> simp only [pauseCtx, h]
  rw [hpause]
  refine congrArg _ (modCtx_congr ?_)
  simp only [holdSeq_dormant hheld]

theorem pauseCtx_of_dormant (h : (s.ctx i).state = .dormant) : pauseCtx i d s =
    complete d stOk 0 (modCtx i (fun c => { c with expiry := s.stamp + ofNs (dField d.desc 0x10 4 * 1000000) }) s) := by
  simp only [pauseCtx, h]

theorem pauseCtx_of_refused (h : (s.ctx i).state ∈ [.admitted, .draining, .done, .faulted]) :
    pauseCtx i d s = complete d stIllegalState 0 s := by
  simp only [List.mem_cons, List.not_mem_nil, or_false] at h
  rcases h with h | h | h | h <;> simp only [pauseCtx, h]

/-! ## RESUME (R72) -/

/-- The context a RESUME leaves while its tenant has budget: its prior state, with its deadlines re-based (R68). -/
def resumed (stamp : Nat) (c : Ctx) : Ctx := rebase stamp { returnSeq c with expiry := 0 }

/-- A re-base of deadlines touches nothing but the deadlines (R68). -/
theorem rebase_eq (stamp : Nat) (c : Ctx) : rebase stamp c =
    { c with lastDelivery := (rebase stamp c).lastDelivery, deadlineGone := (rebase stamp c).deadlineGone } := by
  unfold rebase
  split
  · rfl
  · split <;> rfl

theorem resumed_eq (stamp : Nat) (c : Ctx) : resumed stamp c =
    { c with state := c.prior, expiry := 0, sidingMark := false, lastDelivery := (resumed stamp c).lastDelivery, deadlineGone := (resumed stamp c).deadlineGone } :=
  rebase_eq stamp { returnSeq c with expiry := 0 }

theorem resumeCtx_of_budgetGone (h : (s.ctx i).state = .dormant) (hgone : budgetGone s (s.ctx i).tenant = true) :
    resumeCtx i d s = complete d stOk 0 (modCtx i (fun c => { c with state := .parked, expiry := 0 }) s) := by
  simp only [resumeCtx, h]
  rw [if_pos hgone]

theorem resumeCtx_of_budget (h : (s.ctx i).state = .dormant) (hbudget : budgetGone s (s.ctx i).tenant = false) :
    resumeCtx i d s = complete d stOk 0 (modCtx i (resumed s.stamp) s) := by
  simp only [resumeCtx, h]
  rw [if_neg (Bool.eq_false_iff.mp hbudget)]
  rfl

theorem resumeCtx_of_parked (h : (s.ctx i).state = .parked) : resumeCtx i d s = complete d stBudget 0 s := by
  simp only [resumeCtx, h]

theorem resumeCtx_of_refused (h : (s.ctx i).state ∈ [.admitted, .prompt, .decode, .siding, .draining, .done, .faulted]) :
    resumeCtx i d s = complete d stIllegalState 0 s := by
  simp only [List.mem_cons, List.not_mem_nil, or_false] at h
  rcases h with h | h | h | h | h | h | h <;> simp only [resumeCtx, h]

/-- Settles O28, by the state of the sequence and, for a RESUME of a DORMANT one, by its tenant's budget. -/
theorem pauseMakesDormantAndResumeReturns : Obligations.PauseMakesDormantAndResumeReturns := by
  intro d s i hserving hearly hnamed hserves c ends
  have hreach : Reaches d s i := ⟨hserving, hearly, hnamed, hserves⟩
  refine ⟨fun hwf => ?_, fun hwf => ?_⟩
  · rw [hreach.exec_pause hwf]
    refine ⟨fun hheld => ?_, fun hdormant => ?_, fun hrefused => ?_⟩
    · rw [pauseCtx_of_held (s := consume d s) hheld, complete_modCtx_consume]
      rfl
    · rw [pauseCtx_of_dormant (s := consume d s) hdormant, complete_modCtx_consume]
      rfl
    · rw [pauseCtx_of_refused (s := consume d s) hrefused, complete_consume]
  · rw [hreach.exec_resume hwf]
    refine ⟨fun hdormant hgone => ?_, fun hdormant hbudget => ?_, fun hparked => ?_, fun hrefused => ?_⟩
    · rw [resumeCtx_of_budgetGone (s := consume d s) hdormant hgone, complete_modCtx_consume]
    · rw [resumeCtx_of_budget (s := consume d s) hdormant hbudget, complete_modCtx_consume]
      refine ⟨_, rfl, ?_⟩
      rw [ctx_modCtx_answered_self, resumed_eq]
      exact ⟨rfl, rfl, rfl, rfl, rfl, fun j hj => ctx_modCtx_answered_other _ _ _ _ _ hj, rfl⟩
    · rw [resumeCtx_of_parked (s := consume d s) hparked, complete_consume]
    · rw [resumeCtx_of_refused (s := consume d s) hrefused, complete_consume]

/-! ## CANCEL and CLOSE (R59, R60) -/

/-- A live sequence enters DRAINING with what its end reports (Table 03-3). -/
theorem drainSeq_of_live (h : (s.ctx i).state.live = true) (x : Drain) :
    drainSeq i x s = modCtx i (fun c => { c with state := .draining, drain := some x }) s :=
  if_pos h

theorem cancelCtx_of_live (h : (s.ctx i).state.live = true) : cancelCtx i d s =
    complete d stCancelled 0 (modCtx i (fun c => { c with state := .draining, drain := some (drainBy d false) }) s) := by
  rw [cancelCtx, if_pos h, drainSeq_of_live h]

theorem cancelCtx_of_not_live (h : (s.ctx i).state.live = false) : cancelCtx i d s = complete d stIllegalState 0 s :=
  if_neg (Bool.eq_false_iff.mp h)

theorem closeCtx_of_live (h : (s.ctx i).state.live = true) : closeCtx i d s =
    complete d stOk 0 (modCtx i (fun c => { c with state := .draining, drain := some (drainBy d true) }) s) := by
  simp only [closeCtx, h, if_true, drainSeq_of_live]

theorem closeCtx_of_draining (h : (s.ctx i).state = .draining) : closeCtx i d s =
    complete d stOk 0 (modCtx i (fun c => { c with drain := c.drain.map fun x => { x with toFree := true } }) s) := by
  simp [closeCtx, h, SeqState.live]

theorem closeCtx_of_ended (h : (s.ctx i).state = .done ∨ (s.ctx i).state = .faulted) :
    closeCtx i d s = complete d stOk 0 (endExports i (freeCtx i s)) := by
  rcases h with h | h <;> simp [closeCtx, h, SeqState.live]

/-! ## Effects folded over a list -/

/-- What every single effect leaves, their fold leaves. -/
theorem forEach_proj {α β : Type} (g : State → β) {f : α → State → State} (h : ∀ a s, g (f a s) = g s) (l : List α) (s : State) :
    g (forEach l f s) = g s := by
  induction l generalizing s with
  | nil => rfl
  | cons a l ih => exact (ih (f a s)).trans (h a s)

/-- A list that every single effect extends, their fold extends. -/
theorem isPrefix_forEach {α β : Type} (g : State → List β) {f : α → State → State} (h : ∀ a s, g s <+: g (f a s)) (l : List α)
    (s : State) : g s <+: g (forEach l f s) := by
  induction l generalizing s with
  | nil => exact List.prefix_refl _
  | cons a l ih => exact (h a s).trans (ih (f a s))

/-! ## A context freed (R51, R60) -/

theorem forEach_dropRef_ctxs (l : List Nat) : (forEach l dropRef s).ctxs = s.ctxs :=
  forEach_proj State.ctxs (f := dropRef) (fun _ _ => rfl) l s

theorem forEach_dropRef_outbox (l : List Nat) : (forEach l dropRef s).outbox = s.outbox :=
  forEach_proj State.outbox (f := dropRef) (fun _ _ => rfl) l s

/-- A context that names no page any more, its token history kept (row 4). -/
def unpaged (c : Ctx) : Ctx :=
  { c with pages := [], draftPages := [], draftLen := 0, kvLen := 0, copy := none, hashed := [], hashing := [], matched := [], lookupPending := false }

theorem releasePages_ctxs : (releasePages i s).ctxs = fmModify s.ctxs i freshCtx unpaged :=
  congrArg (fun m => fmModify m i freshCtx unpaged) (forEach_dropRef_ctxs _)

/-- A freed context: its pages, history and journal are gone and its incarnation is the next one. -/
def freed (boundary : Nat) (c : Ctx) : Ctx :=
  { c with state := .free, incarnation := (c.incarnation + 1) % 65536, hist := [], journal := [], replay := none, drain := none, pieces := 0, drafts := [], freedAt := boundary, sidingMark := false }

theorem ctx_freeCtx_self : ∃ n, (freeCtx i s).ctx i = freed n (unpaged (s.ctx i)) := by
  refine ⟨(releasePages i s).boundary, ?_⟩
  have hunpaged : (releasePages i s).ctx i = unpaged (s.ctx i) := by
    rw [State.ctx, releasePages_ctxs, Laws.fmGet_fmModify_self]
    rfl
  rw [← hunpaged]
  exact Laws.ctx_modCtx_self _ i _

theorem ctx_freeCtx_other {j : Nat} (h : j ≠ i) : (freeCtx i s).ctx j = s.ctx j := by
  have hreleased : (releasePages i s).ctx j = s.ctx j := by
    rw [State.ctx, releasePages_ctxs, Laws.fmGet_fmModify_other _ _ _ _ h]
    rfl
  exact (Laws.ctx_modCtx_other _ _ h).trans hreleased

theorem freeCtx_outbox : (freeCtx i s).outbox = s.outbox :=
  forEach_dropRef_outbox _

/-- The EXPORT_PREFIXes that end with a context touch no context. -/
theorem endExports_ctxs : (endExports i s).ctxs = s.ctxs := by
  refine forEach_proj State.ctxs ?_ _ _
  exact fun _ _ => rfl

/-- Their completions come behind those already owed. -/
theorem isPrefix_endExports_outbox : s.outbox <+: (endExports i s).outbox :=
  isPrefix_forEach State.outbox (fun _ _ => List.prefix_append _ _) _ { s with exports := s.exports.filter fun j => j.ctx != i }

/-- Settles O29, by whether the sequence is live, DRAINING or ended. -/
theorem cancelAndCloseEndASequence : Obligations.CancelAndCloseEndASequence := by
  intro d s i hserving hearly hnamed hserves c
  have hreach : Reaches d s i := ⟨hserving, hearly, hnamed, hserves⟩
  refine ⟨fun hwf => ?_, fun hwf => ?_⟩
  · rw [hreach.exec_cancel hwf]
    refine ⟨fun hlive => ?_, fun hnot => ?_⟩
    · rw [cancelCtx_of_live (s := consume d s) hlive, complete_modCtx_consume]
      rfl
    · rw [cancelCtx_of_not_live (s := consume d s) hnot, complete_consume]
  · rw [hreach.exec_close hwf]
    refine ⟨fun hlive => ?_, fun hdraining => ?_, fun hended => ?_⟩
    · rw [closeCtx_of_live (s := consume d s) hlive, complete_modCtx_consume]
      rfl
    · rw [closeCtx_of_draining (s := consume d s) hdraining, complete_modCtx_consume]
    · rw [closeCtx_of_ended (s := consume d s) hended]
      have hctx (j : Nat) : (complete d stOk 0 (endExports i (freeCtx i (consume d s)))).ctx j = (freeCtx i (consume d s)).ctx j :=
        congrArg (fmGet · j freshCtx) endExports_ctxs
      obtain ⟨n, hfreed⟩ := ctx_freeCtx_self (s := consume d s) (i := i)
      obtain ⟨l, hl⟩ := isPrefix_endExports_outbox (s := freeCtx i (consume d s)) (i := i)
      refine ⟨_, rfl, ?_⟩
      rw [hctx, hfreed]
      refine ⟨rfl, rfl, rfl, rfl, fun j hj => ?_, l, ?_⟩
      · exact (hctx j).trans (ctx_freeCtx_other (s := consume d s) hj)
      · rw [freeCtx_outbox] at hl
        exact congrArg (· ++ [completionOf d stOk 0 (ownHandle d) 0]) hl.symm

/-! ## APPEND (R58) -/

theorem length_leWords (k n : Nat) (bs : List Byte) : (leWords k n bs).length = n := by
  induction n generalizing bs with
  | zero => rfl
  | succ n ih => simp [leWords, ih]

section
variable (tokens : List Nat) {c : Ctx}

/-- Tokens added behind one that a decode left pending: they and it are prompt tokens, and the sequence's state, or the state it
returns to, is PROMPT (R58, Table 03-2). -/
theorem addTokens_of_decodeLike (h : decodeLike c = true) : addTokens tokens c =
    { c with
      state := if c.state = .decode then .prompt else c.state, prior := if c.state.working then c.prior else .prompt, goal := c.committed + 1 + tokens.length,
      appendAt := c.committed + 1, appended := tokens, decoding := false, drafts := [], firstToken := true } := by
  rw [addTokens, if_pos h]
  by_cases hdecode : c.state = .decode
  · simp [hdecode, SeqState.working]
  · by_cases hworking : c.state.working
    · simp [hdecode, hworking]
    · simp [hdecode, hworking]

/-- Tokens added behind a prompt lengthen it (R58). -/
theorem addTokens_of_not_decodeLike (h : decodeLike c = false) : addTokens tokens c =
    { c with
      prior := if c.state.working ∨ c.prior = .admitted then c.prior else .prompt, appendAt := if c.appended.isEmpty then c.goal else c.appendAt,
      appended := c.appended ++ tokens, goal := c.goal + tokens.length } := by
  rw [addTokens, if_neg (Bool.eq_false_iff.mp h)]
  by_cases hprior : c.state.working = true ∨ c.prior = .admitted
  · by_cases hempty : c.appended = []
    · simp [hprior, hempty]
    · simp [hprior, hempty]
  · by_cases hempty : c.appended = []
    · simp [hprior, hempty]
    · simp [hprior, hempty]

/-- A sequence decodes neither now nor when it returns (R58). -/
theorem decodeLike_eq_false_iff : decodeLike c = false ↔
    c.state ≠ .decode ∧ (c.state.working = false → c.prior ≠ .decode) ∧ c.decoding = false := by
  simp [decodeLike, and_assoc]

/-- Once tokens are added, every token that a sequence has pending is a prompt token. -/
theorem decodeLike_addTokens : decodeLike (addTokens tokens c) = false := by
  rw [decodeLike_eq_false_iff]
  by_cases h : decodeLike c
  · rw [addTokens_of_decodeLike tokens h]
    by_cases hdecode : c.state = .decode
    · simp [hdecode, SeqState.working]
    · simp +contextual [hdecode]
  · have hnot := Bool.eq_false_iff.mpr h
    obtain ⟨hstate, hprior, hdecoding⟩ := decodeLike_eq_false_iff.mp hnot
    rw [addTokens_of_not_decodeLike tokens hnot]
    refine ⟨hstate, fun hheld => ?_, hdecoding⟩
    dsimp only at hheld ⊢
    split
    · exact hprior hheld
    · simp

/-- The tokens added are all that a sequence has more. -/
theorem totalTokens_addTokens : totalTokens (addTokens tokens c) = totalTokens c + tokens.length := by
  rw [totalTokens, if_neg (Bool.eq_false_iff.mp (decodeLike_addTokens tokens))]
  by_cases h : decodeLike c
  · rw [addTokens_of_decodeLike tokens h, totalTokens, if_pos h]
  · rw [addTokens_of_not_decodeLike tokens (Bool.eq_false_iff.mpr h), totalTokens, if_neg h]

theorem state_addTokens : (addTokens tokens c).state = if c.state = .decode then .prompt else c.state := by
  by_cases h : decodeLike c
  · rw [addTokens_of_decodeLike tokens h]
  · have hnot := Bool.eq_false_iff.mpr h
    rw [addTokens_of_not_decodeLike tokens hnot, if_neg (decodeLike_eq_false_iff.mp hnot).1]

/-- What is committed stays so, with its history. -/
theorem committed_hist_addTokens : (addTokens tokens c).committed = c.committed ∧ (addTokens tokens c).hist = c.hist := by
  by_cases h : decodeLike c
  · rw [addTokens_of_decodeLike tokens h]
    exact ⟨rfl, rfl⟩
  · rw [addTokens_of_not_decodeLike tokens (Bool.eq_false_iff.mpr h)]
    exact ⟨rfl, rfl⟩

/-- The tokens added stand behind those appended before. -/
theorem suffix_appended_addTokens : tokens <:+ (addTokens tokens c).appended := by
  by_cases h : decodeLike c
  · rw [addTokens_of_decodeLike tokens h]
  · rw [addTokens_of_not_decodeLike tokens (Bool.eq_false_iff.mpr h)]
    exact List.suffix_append _ _

end

theorem appendCtx_of_ended (h : (s.ctx i).state ∈ [.draining, .done, .faulted]) :
    appendCtx i d s = complete d stIllegalState 0 s := by
  simp only [List.mem_cons, List.not_mem_nil, or_false] at h
  rcases h with h | h | h <;> simp only [appendCtx, h]

theorem appendCtx_of_parked (h : (s.ctx i).state = .parked) : appendCtx i d s = complete d stBudget 0 s := by
  simp only [appendCtx, h]

/-- A descriptor that leaves its queue leaves host memory as it is. -/
theorem readHost_consume (t a n : Nat) : readHost (consume d s) t a n = readHost s t a n :=
  readHost_of_regs_eq (x := consume d s) (s := s) rfl rfl t a n

/-- In the other states an APPEND turns on its length and on the host memory that holds its tokens (Table 03-2). -/
theorem appendCtx_of_taken (h : (s.ctx i).state ∈ [.admitted, .prompt, .decode, .siding, .dormant]) : appendCtx i d s =
    if 1048576 < totalTokens (s.ctx i) + dField d.desc 0x18 4 then complete d stBadDescriptor 0x18 s
    else (readHost s d.tenant (dField d.desc 0x10 8) (4 * dField d.desc 0x18 4)).elim (complete d stAccess 0x10 s) fun bs =>
      complete d stOk 0 (modCtx i (addTokens (leWords 4 (dField d.desc 0x18 4) bs)) s) := by
  simp only [List.mem_cons, List.not_mem_nil, or_false] at h
  rcases h with h | h | h | h | h <;>
    · simp only [appendCtx, h]
      cases readHost s d.tenant (dField d.desc 0x10 8) (4 * dField d.desc 0x18 4) <;> rfl

theorem appendCtx_of_long (h : (s.ctx i).state ∈ [.admitted, .prompt, .decode, .siding, .dormant])
    (hlong : 1048576 < totalTokens (s.ctx i) + dField d.desc 0x18 4) : appendCtx i d s = complete d stBadDescriptor 0x18 s := by
  rw [appendCtx_of_taken h, if_pos hlong]

theorem appendCtx_of_unread (h : (s.ctx i).state ∈ [.admitted, .prompt, .decode, .siding, .dormant])
    (hfits : totalTokens (s.ctx i) + dField d.desc 0x18 4 ≤ 1048576)
    (hunread : readHost s d.tenant (dField d.desc 0x10 8) (4 * dField d.desc 0x18 4) = none) :
    appendCtx i d s = complete d stAccess 0x10 s := by
  rw [appendCtx_of_taken h, if_neg (Nat.not_lt.mpr hfits), hunread, Option.elim_none]

theorem appendCtx_of_read {bs : List Byte} (h : (s.ctx i).state ∈ [.admitted, .prompt, .decode, .siding, .dormant])
    (hfits : totalTokens (s.ctx i) + dField d.desc 0x18 4 ≤ 1048576)
    (hread : readHost s d.tenant (dField d.desc 0x10 8) (4 * dField d.desc 0x18 4) = some bs) :
    appendCtx i d s = complete d stOk 0 (modCtx i (addTokens (leWords 4 (dField d.desc 0x18 4) bs)) s) := by
  rw [appendCtx_of_taken h, if_neg (Nat.not_lt.mpr hfits), hread, Option.elim_some]

/-- Settles O27, by the state of the sequence, its length and the host memory that holds the tokens. -/
theorem appendAddsAfterAllTokens : Obligations.AppendAddsAfterAllTokens := by
  intro d s i ⟨hwf, hserving, hearly⟩ hnamed hserves c n
  have hreach : Reaches d s i := ⟨hserving, hearly, hnamed, hserves⟩
  rw [hreach.exec_append hwf]
  refine ⟨fun hended => ?_, fun hparked => ?_, fun htaken => ⟨fun hlong => ?_, fun hfits hunread => ?_, fun hfits bs hread => ?_⟩⟩
  · rw [appendCtx_of_ended (s := consume d s) hended, complete_consume]
  · rw [appendCtx_of_parked (s := consume d s) hparked, complete_consume]
  · rw [appendCtx_of_long (s := consume d s) htaken hlong, complete_consume]
  · rw [appendCtx_of_unread (s := consume d s) htaken hfits ((readHost_consume _ _ _).trans hunread), complete_consume]
  · rw [appendCtx_of_read (s := consume d s) htaken hfits ((readHost_consume _ _ _).trans hread), complete_modCtx_consume]
    refine ⟨_, rfl, ?_⟩
    rw [ctx_modCtx_answered_self]
    obtain ⟨hcommitted, hhist⟩ := committed_hist_addTokens (leWords 4 n bs) (c := c)
    obtain ⟨l, hl⟩ := suffix_appended_addTokens (leWords 4 n bs) (c := c)
    refine ⟨?_, decodeLike_addTokens _, state_addTokens _, hcommitted, hhist, ⟨l, hl.symm⟩, fun j hj => ?_, rfl⟩
    · rw [totalTokens_addTokens, length_leWords]
    · exact ctx_modCtx_answered_other _ _ _ _ _ hj

end Sys2Proof.Machine
end

section
/-! PROOFS. OPEN (chapter 3): the checks passed, the context admitted, and its home quadrant. -/

namespace Sys2Proof.Machine

variable {d : Fetched} {r : RequestCopy} {s : State} {i : Nat} {p : Package} {b : Option PrefixBinding} {m : Option (List Byte)}

/-! ## The checks passed (R35, R42, R52, R89, R205, R228) -/

/-- The last checks are of the allowed-token bitmap, where the request names one, and of the vocabulary. -/
theorem openAdmitted_of_passed
    (hbitmap : (rBitmap r.block = false ∧ m = none) ∨ (rBitmap r.block = true ∧ m.isSome = true ∧
      readHost s d.tenant (rAllowedAddr r.block) (ceilDiv p.vocabulary 512 * 64) = m))
    (hvocabulary : vocabularyFault r p.vocabulary = none) : openAdmitted d r p b i s = admitSequence d r m p b i s := by
  rcases hbitmap with ⟨hnone, rfl⟩ | ⟨hnamed, hsome, hread⟩
  · simp [openAdmitted, hnone, hvocabulary]
  · obtain ⟨bs, rfl⟩ := Option.isSome_iff_exists.mp hsome
    simp [openAdmitted, hnamed, hread, hvocabulary]

/-- Check 9: a context, the tenant's quota, its highest class, and a READY slot (R52). -/
theorem openResources_of_passed (htake : takeCtx s = some i) (hquota : s.ctxCount d.tenant < (s.tenant d.tenant).ctxQuota)
    (hclass : rClass r.block ≤ (s.tenant d.tenant).highest) (hready : (s.slot (rSlot r.block)).state = .ready)
    (hpackage : (s.slot (rSlot r.block)).package = some p) : openResources d r b s = openAdmitted d r p b i s := by
  simp [openResources, htake, Nat.not_le.mpr hquota, Nat.not_lt.mpr hclass, hready, hpackage]

/-- Check 8: the binding and the adapter that the request names, the length, and the module's role (R205, R285, R325). -/
theorem openEffect_of_passed (hreq : d.req = some r)
    (hprefix : (rPrefixValid r.block = false ∧ b = none) ∨ (rPrefixValid r.block = true ∧
      bindingFor s d.tenant (BitVec.ofNat 64 (rPrefix r.block)) = b ∧ ∃ y, b = some y ∧ y.slot = rSlot r.block ∧ y.adapter = rAdapter r.block))
    (hadapter : adapterOk s d.tenant (rSlot r.block) (rAdapter r.block) = true)
    (hlength : (b.map PrefixBinding.length).getD 0 + rPromptLen r.block + rMaxNew r.block ≤ 1048576)
    (hrole : roleStale s d.desc = false) : openEffect d s = openResources d r b s := by
  rcases hprefix with ⟨hnone, rfl⟩ | ⟨hvalid, hbound, y, rfl, hslot, hsame⟩
  · simp only [Option.map_none, Option.getD_none, Nat.zero_add] at hlength
    simp [openEffect, hreq, hnone, hadapter, Nat.not_lt.mpr hlength, hrole]
  · simp only [Option.map_some, Option.getD_some] at hlength
    simp [openEffect, hreq, hvalid, hbound, hslot, hsame, hadapter, Nat.not_lt.mpr hlength, hrole]

/-- An OPEN that passes its checks admits its sequence. -/
theorem exec_openSeq_of_passes (h : OpenPasses d r s i p b m) :
    exec (.openSeq d) s = .next (admitSequence d r m p b i (consume d s)) := by
  obtain ⟨⟨hwf, hserving, hearly⟩, hreq, hserves, hprefix, hadapter, hlength, htake, hquota, hclass, hready, hpackage, hbitmap, hvocabulary⟩ := h
  rw [Laws.exec_openSeq hwf, Laws.whenServing_yes s hserving, takeEffect_of_passed _ hearly,
    openEffect_of_passed (s := consume d s) hreq hprefix hadapter hlength (roleStale_of_servesSequences hserves _),
    openResources_of_passed (s := consume d s) htake hquota hclass hready hpackage,
    openAdmitted_of_passed (s := consume d s) (by rwa [readHost_consume]) hvocabulary]

/-! ## The context admitted (R51, R53, R205) -/

/-- The seed of a new sequence: its request's, or the next free value (R53). -/
def seedFor (r : RequestCopy) (s : State) : BitVec 64 :=
  if rSeedGiven r.block then BitVec.ofNat 64 (rSeed r.block) else Config.random64 (takeFree s).1

/-- The state once the seed is there: a free value is used where the request gives none. -/
def seedTaken (r : RequestCopy) (s : State) : State := if rSeedGiven r.block then s else (takeFree s).2

/-- Taking a seed touches no context and no completion. -/
theorem seedTaken_ctxs_outbox : (seedTaken r s).ctxs = s.ctxs ∧ (seedTaken r s).outbox = s.outbox := by
  unfold seedTaken
  split
  · exact ⟨rfl, rfl⟩
  · exact ⟨rfl, rfl⟩

/-- The groups a sequence opens from: each has one more reference and is held for no import (R205, R206). -/
def prefixTaken (l : List Nat) (s : State) : State :=
  forEach l (modGroup · fun g => { g with held := none }) (forEach l addRef s)

/-- Taking those groups touches no context and no completion. -/
theorem prefixTaken_ctxs_outbox (l : List Nat) : (prefixTaken l s).ctxs = s.ctxs ∧ (prefixTaken l s).outbox = s.outbox :=
  have keeps {β : Type} (g : State → β) (h : ∀ (n : Nat) (f : Group → Group) (s : State), g (modGroup n f s) = g s) :
      g (prefixTaken l s) = g s :=
    (forEach_proj g (fun n s => h n _ s) l _).trans (forEach_proj g (fun n s => h n _ s) l s)
  ⟨keeps State.ctxs fun _ _ _ => rfl, keeps State.outbox fun _ _ _ => rfl⟩

/-- A context admitted for a request: ADMITTED at the length it opens from, with its prompt pending. -/
structure AdmittedFor (d : Fetched) (r : RequestCopy) (s : State) (i : Nat) (b : Option PrefixBinding) (m : Option (List Byte)) (c : Ctx) : Prop where
  state : c.state = .admitted
  tenant : c.tenant = d.tenant
  qp : c.qp = d.qp
  slot : c.slot = rSlot r.block
  incarnation : c.incarnation = (s.ctx i).incarnation
  req : c.req = r
  allowed : c.allowed = m
  adapter : c.adapter = rAdapter r.block
  cls : c.cls = rClass r.block
  home : c.home = homeFor s (rSlot r.block)
  committed : c.committed = (b.map PrefixBinding.length).getD 0
  goal : c.goal = c.committed + rPromptLen r.block
  pages : c.pages = ((b.map PrefixBinding.lgns).getD []).map some
  generated : c.generated = 0
  appended : c.appended = []
  seed : c.seed = seedFor r s

/-- Admitting a sequence sets its context, leaves the completions owed, and completes with the handle, the seed and the home. -/
theorem admitSequence_eq_completeFetched : ∃ x c, admitSequence d r m p b i s =
      completeFetched d stOk 0 (handleOf i (x.ctx i)) (BitVec.ofNat 128 ((seedFor r s).toNat + homeFor s (rSlot r.block) * 2 ^ 64)) x ∧
    x.ctxs = fmSet s.ctxs i c ∧ x.outbox = s.outbox ∧ AdmittedFor d r s i b m c := by
  obtain ⟨hctxs, houtbox⟩ := seedTaken_ctxs_outbox (r := r) (s := s)
  have hctx : ((seedTaken r s).ctx i).incarnation = (s.ctx i).incarnation := by rw [State.ctx, hctxs, State.ctx]
  cases b <;>
    exact ⟨_, _, rfl, (prefixTaken_ctxs_outbox _).1.trans (congrArg (fmSet · i _) hctxs), (prefixTaken_ctxs_outbox _).2.trans houtbox,
      ⟨rfl, rfl, rfl, rfl, hctx, rfl, rfl, rfl, rfl, rfl, rfl, rfl, rfl, rfl, rfl, rfl⟩⟩

/-- What admitting a sequence makes of its context, of the others and of the completions owed. -/
theorem admitSequence_admits : AdmittedFor d r s i b m ((admitSequence d r m p b i s).ctx i) ∧
    (∀ j, j ≠ i → (admitSequence d r m p b i s).ctx j = s.ctx j) ∧
    (admitSequence d r m p b i s).outbox = s.outbox ++
      [completionOf d stOk 0 (handleOf i (s.ctx i)) (BitVec.ofNat 128 ((seedFor r s).toNat + homeFor s (rSlot r.block) * 2 ^ 64))] := by
  obtain ⟨x, c, heq, hctxs, houtbox, hadmitted⟩ := admitSequence_eq_completeFetched (d := d) (r := r) (s := s) (i := i) (p := p) (b := b) (m := m)
  have hself : x.ctx i = c := by rw [State.ctx, hctxs, Laws.fmGet_fmSet_self]
  have hother (j : Nat) (hj : j ≠ i) : x.ctx j = s.ctx j := by
    rw [State.ctx, hctxs, Laws.fmGet_fmSet_other _ _ _ hj, State.ctx]
  have hhandle : handleOf i (x.ctx i) = handleOf i (s.ctx i) := by
    rw [hself, handleOf, hadmitted.incarnation, handleOf]
  rw [heq, hhandle]
  refine ⟨?_, hother, congrArg (· ++ _) houtbox⟩
  rw [← hself] at hadmitted
  exact hadmitted

/-- Settles O26: the checks lead to the admission, and the admission sets the context. -/
theorem openAdmitsASequence : Obligations.OpenAdmitsASequence := by
  intro d r s i p b m hpasses
  obtain ⟨hadmitted, hothers, houtbox⟩ := admitSequence_admits (d := d) (r := r) (s := consume d s) (i := i) (p := p) (b := b) (m := m)
  refine ⟨_, exec_openSeq_of_passes hpasses, hadmitted.state, hadmitted.tenant, hadmitted.qp, hadmitted.slot, hadmitted.incarnation,
    hadmitted.req, hadmitted.allowed, hadmitted.adapter, hadmitted.cls, hadmitted.home, hadmitted.committed, hadmitted.goal,
    hadmitted.pages, hadmitted.generated, hadmitted.appended, fun hgiven => ?_, hothers, ?_⟩
  · exact hadmitted.seed.trans (if_pos hgiven)
  · rw [hadmitted.seed, hadmitted.home]
    exact houtbox

/-! ## The home quadrant (R53) -/

/-- Only an empty list has no least element. -/
theorem leastBy_eq_none_iff {α : Type} {lt : α → α → Bool} {l : List α} : leastBy lt l = none ↔ l = [] := by
  cases l with
  | nil => simp [leastBy]
  | cons a l =>
    unfold leastBy
    split
    · simp
    · split <;> simp

/-- By a measure, the least of rising numbers is the lowest of those with the smallest measure. -/
theorem leastBy_rising {n : Nat → Nat} {l : List Nat} (hrising : l.Pairwise (· < ·)) {h : Nat}
    (hleast : leastBy (fun a b => decide (n a < n b)) l = some h) : h ∈ l ∧ ∀ q ∈ l, n h ≤ n q ∧ (q < h → n h < n q) := by
  induction l generalizing h with
  | nil => simp [leastBy] at hleast
  | cons a l ih =>
    obtain ⟨hbelow, hrest⟩ := List.pairwise_cons.mp hrising
    cases hl : leastBy (fun a b => decide (n a < n b)) l with
    | none =>
      obtain rfl := leastBy_eq_none_iff.mp hl
      obtain rfl : a = h := by simpa [leastBy] using hleast
      simp
    | some k =>
      obtain ⟨hmem, hmin⟩ := ih hrest hl
      have hak := hbelow k hmem
      simp only [leastBy, hl, decide_eq_true_eq] at hleast
      split at hleast
      next hless =>
        cases hleast
        refine ⟨List.mem_cons_of_mem a hmem, fun q hq => ?_⟩
        rcases List.mem_cons.mp hq with rfl | hq
        · exact ⟨hless.le, fun _ => hless⟩
        · exact hmin q hq
      next hnot =>
        cases hleast
        refine ⟨List.mem_cons_self, fun q hq => ?_⟩
        rcases List.mem_cons.mp hq with rfl | hq
        · exact ⟨le_rfl, fun h => absurd h (lt_irrefl _)⟩
        · have := hbelow q hq
          have := (hmin q hq).1
          exact ⟨by omega, by omega⟩

/-- The home is a quadrant that holds the fewest live sequences of the model, the lowest of those that tie. -/
theorem homeFor_fewest (s : State) (k : Nat) : homeFor s k < 4 ∧
    ∀ q, q < 4 → livesIn s k (homeFor s k) ≤ livesIn s k q ∧ (q < homeFor s k → livesIn s k (homeFor s k) < livesIn s k q) := by
  cases hleast : leastBy (fun a b => decide (livesIn s k a < livesIn s k b)) (List.range 4) with
  | none => simp [leastBy_eq_none_iff] at hleast
  | some h =>
    have hhome : homeFor s k = h := congrArg (·.getD 0) hleast
    obtain ⟨hmem, hmin⟩ := leastBy_rising List.pairwise_lt_range hleast
    rw [hhome]
    exact ⟨List.mem_range.mp hmem, fun q hq => hmin q (List.mem_range.mpr hq)⟩

/-- Bits 71 to 64 of an OPEN's result are its home quadrant (Table 02-8). -/
theorem toNat_openResult_div (seed : BitVec 64) {home : Nat} (h : home < 4) :
    (BitVec.ofNat 128 (seed.toNat + home * 2 ^ 64)).toNat / 2 ^ 64 = home := by
  have hseed := seed.isLt
  rw [BitVec.toNat_ofNat]
  omega

/-- Settles O37: the admitted context's home is the quadrant with the fewest, and its completion carries it above the seed. -/
theorem homeQuadrantHoldsTheFewest : Obligations.HomeQuadrantHoldsTheFewest := by
  intro d r s i p b m hpasses
  obtain ⟨hadmitted, -, houtbox⟩ := admitSequence_admits (d := d) (r := r) (s := consume d s) (i := i) (p := p) (b := b) (m := m)
  obtain ⟨hquadrant, hfewest⟩ := homeFor_fewest s (rSlot r.block)
  exact ⟨_, _, _, exec_openSeq_of_passes hpasses, hadmitted.home, hquadrant, hfewest, houtbox, toNat_openResult_div _ hquadrant⟩

end Sys2Proof.Machine
end

section
/-! PROOFS. Host accesses to the device-physical range (chapter 10): what Table 10-4 gives in each state of a block, and what
a read, a write and a host window do with it. -/

namespace Sys2Proof.Machine

variable {a n l f : Nat} {bs : List Byte} {s : State}

/-! ## Table 10-4 by the state of the block -/

/-- A block whose content no host write reaches (R250): sealed, on the move, or lost. -/
def writeRefused (b : Block) : Prop :=
  (b.state = .mapped ∧ b.sealed = true) ∨ b.state = .promoting ∨ b.state = .demoting ∨ b.state = .refetching ∨ b.state = .lost

theorem writeRefused_of_moving {b : Block} (h : b.state = .promoting ∨ b.state = .demoting ∨ b.state = .refetching) : writeRefused b := by
  unfold writeRefused
  tauto

theorem accessOf_read_unmapped (h : (s.block n).state = .unmapped) : accessOf s n false = .zeros := by
  simp [accessOf, h]

/-- A write to an UNMAPPED block of the host region makes it a fresh one. -/
theorem accessOf_write_host (h : (s.block n).state = .unmapped) (hhost : n < hostLimit s) : accessOf s n true = .fresh := by
  simp [accessOf, h, inHost, hhost]

/-- Outside the host region a write maps nothing. -/
theorem accessOf_write_device (h : (s.block n).state = .unmapped) (hdevice : ¬n < hostLimit s) : accessOf s n true = .failed := by
  simp [accessOf, h, inHost, hdevice]

theorem accessOf_unsealed (h : (s.block n).state = .mapped) (hs : (s.block n).sealed = false) (wr : Bool) :
    accessOf s n wr = .served := by
  simp [accessOf, h, hs]

theorem accessOf_write_refused (h : writeRefused (s.block n)) : accessOf s n true = .failed := by
  rcases h with ⟨h, hs⟩ | h | h | h | h
  · simp [accessOf, h, hs]
  all_goals simp [accessOf, h]

theorem accessOf_read_lost (h : (s.block n).state = .lost) : accessOf s n false = .failed := by
  simp [accessOf, h]

/-- A sealed block under a provider key reads as its content (R250). -/
theorem accessOf_read_sealed (h : (s.block n).state = .mapped) (hk : (s.block n).keyOwner = 0) :
    accessOf s n false = .served := by
  simp [accessOf, h, hk]

/-- What a tenant key protects does not read in plain (R250, R281). -/
theorem accessOf_read_tenantKey (h : writeRefused (s.block n)) (hk : (s.block n).keyOwner ≠ 0) : accessOf s n false = .failed := by
  rcases h with ⟨h, hs⟩ | h | h | h | h
  · simp [accessOf, h, hs, hk]
  all_goals simp [accessOf, h, hk]

/-- A block being refetched that has no other copy does not read. -/
theorem accessOf_read_withoutCopy (h : (s.block n).state = .refetching) (ht : (s.block n).t0 = none) (hi : (s.block n).image = none) :
    accessOf s n false = .failed := by
  simp [accessOf, h, ht, hi]

/-! ## Poison -/

theorem areaPoisoned_eq_false_iff : areaPoisoned s a n = false ↔ ∀ x ∈ s.poisoned, x * 64 + 64 ≤ a ∨ a + n ≤ x * 64 := by
  simp only [areaPoisoned, List.any_eq_false, Bool.and_eq_true, decide_eq_true_eq]
  exact forall₂_congr fun x _ => by omega

/-- An aligned line is poisoned as a whole. -/
theorem areaPoisoned_line (ha : a % 64 = 0) : areaPoisoned s a 64 = true ↔ a / 64 ∈ s.poisoned := by
  simp only [areaPoisoned, List.any_eq_true, Bool.and_eq_true, decide_eq_true_eq]
  constructor
  · rintro ⟨x, hx, hlow, hhigh⟩
    obtain rfl : x = a / 64 := by omega
    exact hx
  · intro hx
    exact ⟨a / 64, hx, by omega, by omega⟩

theorem areaPoisoned_line_eq_false (ha : a % 64 = 0) (hclean : a / 64 ∉ s.poisoned) : areaPoisoned s a 64 = false :=
  Bool.eq_false_iff.mpr fun h => hclean ((areaPoisoned_line ha).mp h)

/-! ## Reads -/

/-- A read of a block with a T0 copy passes no snoop point and decodes nothing. -/
theorem noteRead_of_t0 (h : (s.block (a / blockBytes)).t0 ≠ none) : noteRead a bs s = s := by
  simp [noteRead, Option.isSome_iff_ne_none, h]

/-- A read changes check units and the sluice alone. -/
theorem noteRead_frame : ∃ c k, noteRead a bs s = { s with ckus := c, sluice := k } := by
  unfold noteRead
  dsimp only
  split
  · exact ⟨s.ckus, s.sluice, rfl⟩
  · split
    · exact ⟨_, s.sluice, rfl⟩
    · exact ⟨_, _, rfl⟩

theorem memRead_of_zeros (h : accessOf s (a / blockBytes) false = .zeros) (key : Bool) :
    memRead a n key s = some (List.replicate n 0, s) := by
  simp [memRead, h]

theorem memRead_of_served (h : accessOf s (a / blockBytes) false = .served) (hclean : areaPoisoned s a n = false) (key : Bool) :
    memRead a n key s = some (memBytes s.mem a n, noteRead a (memBytes s.mem a n) s) := by
  simp [memRead, h, hclean]

theorem memRead_of_poisoned (h : accessOf s (a / blockBytes) false = .served) (hpoison : areaPoisoned s a n = true) (key : Bool) :
    memRead a n key s = none := by
  simp [memRead, h, hpoison]

theorem memRead_of_failed (h : accessOf s (a / blockBytes) false = .failed) : memRead a n false s = none := by
  simp [memRead, h]

/-! ## Writes -/

theorem memStore_of_served (h : accessOf s (a / blockBytes) true = .served) : memStore a bs s = some (applyWrite a bs s) := by
  simp [memStore, h]

theorem memStore_of_failed (h : accessOf s (a / blockBytes) true = .failed) : memStore a bs s = none := by
  simp [memStore, h]

theorem memStore_of_fresh (h : accessOf s (a / blockBytes) true = .fresh) {q : Nat} (hf : freshFrame s (a / blockBytes) = some (q, f)) :
    memStore a bs s = some (applyWrite a bs (mapFresh (a / blockBytes) q f s)) := by
  simp [memStore, h, hf]

theorem memStore_of_noFrame (h : accessOf s (a / blockBytes) true = .fresh) (hf : freshFrame s (a / blockBytes) = none) :
    memStore a bs s = none := by
  simp [memStore, h, hf]

/-- Bytes written read back, and all others as before. -/
theorem memByte_applyWrite (hwf : Memory.wf s.mem = true) (hbs : bs.length = n) (c : Nat) :
    memByte (applyWrite a bs s).mem c = if a ≤ c ∧ c < a + n then bs.getD (c - a) 0 else memByte s.mem c :=
  hbs ▸ Laws.memByte_write bs a c hwf

/-- An aligned line written whole is no longer poisoned; every other line is as before. -/
theorem mem_poisoned_applyWrite_line (ha : a % 64 = 0) (hbs : bs.length = 64) (x : Nat) :
    x ∈ (applyWrite a bs s).poisoned ↔ x ∈ s.poisoned ∧ x ≠ a / 64 := by
  simp only [applyWrite, List.mem_filter, hbs, Bool.not_eq_true', Bool.and_eq_false_iff, decide_eq_false_iff_not]
  exact and_congr_right fun _ => by omega

/-- Cells kept by their addresses: those that stay read as before, the others as zeros. -/
theorem memByte_filter (p : Nat → Bool) (c : Nat) {lo : Nat} {m : List (Nat × Byte)} (hcells : cellsFrom lo m = true) :
    memByte (m.filter fun x => p x.1) c = if p c then memByte m c else 0 := by
  induction m generalizing lo with
  | nil => simp [memByte]
  | cons x r ih =>
    obtain ⟨k, v⟩ := x
    simp only [cellsFrom, Bool.and_eq_true] at hcells
    obtain ⟨_, hrest⟩ := hcells
    have hlow : c < k + 1 → memByte r c = 0 := Laws.cells_byte_low hrest
    by_cases hk : p k = true
    · rw [List.filter_cons_of_pos (by exact hk), memByte, memByte, ih hrest]
      grind
    · rw [List.filter_cons_of_neg (by exact hk), memByte, ih hrest]
      grind

/-- A range cleared reads as zeros, and all else as before. -/
theorem memByte_memClear (k : Nat) {m : List (Nat × Byte)} (hwf : Memory.wf m = true) (c : Nat) :
    memByte (memClear m a k) c = if a ≤ c ∧ c < a + k then 0 else memByte m c := by
  refine (memByte_filter (fun x => decide (x < a) || decide (a + k ≤ x)) c hwf).trans ?_
  by_cases hin : a ≤ c ∧ c < a + k
  · rw [if_pos hin, if_neg (by simp; omega)]
  · rw [if_neg hin, if_pos (by simp; omega)]

/-! ## Fresh blocks of the host region (R250) -/

/-- The least element of a list is one of it. -/
theorem mem_of_leastBy {α : Type} {lt : α → α → Bool} {r : List α} {x : α} (h : leastBy lt r = some x) : x ∈ r := by
  induction r generalizing x with
  | nil => simp [leastBy] at h
  | cons y r ih =>
    simp only [leastBy] at h
    split at h
    case h_1 => exact Option.some.inj h ▸ List.mem_cons_self
    case h_2 z hz =>
      split at h
      · exact Option.some.inj h ▸ List.mem_cons_of_mem y (ih hz)
      · exact Option.some.inj h ▸ List.mem_cons_self

/-- The quadrant of a block's number comes first. -/
theorem freshFrame_of_own (h : takeT0 s (n % 4) false = some f) : freshFrame s n = some (n % 4, f) := by
  simp [freshFrame, h]

/-- No frame in any quadrant: none for the block. -/
theorem freshFrame_eq_none (h : ∀ q, q < 4 → takeT0 s q false = none) : freshFrame s n = none := by
  have hfirst : (leastBy (fun a b => decide (t0FreeCount s b < t0FreeCount s a)) (List.range 4)).getD 0 < 4 := by
    cases hleast : leastBy (fun a b => decide (t0FreeCount s b < t0FreeCount s a)) (List.range 4) with
    | none => decide
    | some q => exact List.mem_range.mp (mem_of_leastBy hleast)
  simp [freshFrame, h (n % 4) (by omega), h _ hfirst]

theorem block_mapFresh_self (q : Nat) : (mapFresh n q f s).block n = { unmappedBlock with t0 := some f, state := .mapped, home := q } :=
  Laws.block_modBlock_self _ n _

theorem block_mapFresh_other (q : Nat) {m : Nat} (h : m ≠ n) : (mapFresh n q f s).block m = s.block m :=
  Laws.block_modBlock_other _ _ h

/-- A write to a fresh block: its bytes, and zeros in the rest of the block. -/
theorem memByte_applyWrite_mapFresh (hwf : Memory.wf s.mem = true) {k : Nat} (hbs : bs.length = k) (q c : Nat) :
    memByte (applyWrite a bs (mapFresh n q f s)).mem c =
      if a ≤ c ∧ c < a + k then bs.getD (c - a) 0 else if c / blockBytes = n then 0 else memByte s.mem c := by
  have hblock : n * blockBytes ≤ c ∧ c < n * blockBytes + blockBytes ↔ c / blockBytes = n := by
    unfold blockBytes; omega
  rw [memByte_applyWrite (s := mapFresh n q f s) (Laws.memClear_wf _ _ hwf) hbs]
  congr 1
  exact (memByte_memClear blockBytes hwf c).trans (if_congr hblock rfl rfl)

/-! ## Quads in compute mode (R177) -/

/-- Nothing waits for a block without a T0 copy. -/
theorem queueFor_of_t0_none (h : (s.block (a / blockBytes)).t0 = none) : queueFor s a = none := by
  simp [queueFor, h]

/-- Between steps, with nothing waiting, no quad is in compute mode. -/
theorem queueFor_of_idle (hstep : s.step = none) (hempty : ∀ k, fmGet s.hostQueues k [] = []) : queueFor s a = none := by
  unfold queueFor
  split
  · rfl
  · simp [hstep, hempty]

/-- During a step a quad with its NBU is in compute mode. -/
theorem queueFor_of_computing (ht : (s.block (a / blockBytes)).t0 = some f) {g : Step} (hstep : s.step = some g) (hstarted : g.started = true)
    (hquad : quadPlain s (framePlace f).1 (framePlace f).2.2.2 (framePlace f).2.2.1 = false) :
    queueFor s a = some ((framePlace f).1 * 8 + (framePlace f).2.2.2) := by
  simp [queueFor, ht, hstep, hstarted, hquad]

/-! ## Reads and writes served -/

theorem serveRead_of_zeros (h : accessOf s (a / blockBytes) false = .zeros) :
    serveRead a s = onlyReplies (.cxlData a (List.replicate 64 0)) s := by
  rw [serveRead, memRead_of_zeros h]
  rfl

theorem serveRead_of_served (h : accessOf s (a / blockBytes) false = .served) (hclean : areaPoisoned s a 64 = false) :
    serveRead a s = onlyReplies (.cxlData a (memBytes s.mem a 64)) (noteRead a (memBytes s.mem a 64) s) := by
  rw [serveRead, memRead_of_served h hclean]
  rfl

theorem serveRead_of_poisoned (h : accessOf s (a / blockBytes) false = .served) (hpoison : areaPoisoned s a 64 = true) :
    serveRead a s = onlyReplies (.cxlPoison a) s := by
  rw [serveRead, memRead_of_poisoned h hpoison]
  rfl

theorem serveRead_of_failed (h : accessOf s (a / blockBytes) false = .failed) : serveRead a s = onlyReplies (.cxlPoison a) s := by
  rw [serveRead, memRead_of_failed h]
  rfl

theorem serveWrite_of_some {x : State} (h : memStore a bs s = some x) : serveWrite a bs s = onlyReplies (.cxlDone a) x := by
  rw [serveWrite, h]
  rfl

theorem serveWrite_of_none (h : memStore a bs s = none) : serveWrite a bs s = onlyReplies (.cxlError a) s := by
  rw [serveWrite, h]
  rfl

/-! ## Reads and writes arriving (R379, R389) -/

/-- The range answers: WIPE_DONE has come and the module is not RETIRED. -/
theorem memClosed_eq_false_iff : memClosed s = false ↔ s.boot.wipeDone = true ∧ s.security.state ≠ .retired := by
  simp [memClosed]

theorem memClosed_eq_true_iff : memClosed s = true ↔ s.boot.wipeDone = false ∨ s.security.state = .retired := by
  simp [memClosed]

theorem hostRead_of_closed (h : memClosed s = true) : hostRead a s = onlyReplies (.cxlPoison a) s :=
  if_pos h

theorem hostWrite_of_closed (h : memClosed s = true) : hostWrite a bs s = onlyReplies (.cxlError a) s :=
  if_pos h

/-- A read of an open range is served at once unless its content is in a quad in compute mode. -/
theorem hostRead_of_unqueued (hopen : memClosed s = false) (h : accessOf s (a / blockBytes) false = .served → queueFor s a = none) :
    hostRead a s = serveRead a s := by
  unfold hostRead
  rw [if_neg (Bool.eq_false_iff.mp hopen)]
  split
  next hserved => rw [h hserved]
  next => rfl

theorem hostWrite_of_unqueued (hopen : memClosed s = false) (h : accessOf s (a / blockBytes) true = .served → queueFor s a = none) :
    hostWrite a bs s = serveWrite a bs s := by
  unfold hostWrite
  rw [if_neg (Bool.eq_false_iff.mp hopen)]
  split
  next hserved => rw [h hserved]
  next => rfl

theorem hostRead_of_queued (hopen : memClosed s = false) (h : accessOf s (a / blockBytes) false = .served) (hl : queueFor s a = some l) :
    hostRead a s = joinQueue l (.read a) s := by
  simp [hostRead, hopen, h, hl]

theorem hostWrite_of_queued (hopen : memClosed s = false) (h : accessOf s (a / blockBytes) true = .served) (hl : queueFor s a = some l) :
    hostWrite a bs s = joinQueue l (.write a bs) s := by
  simp [hostWrite, hopen, h, hl]

theorem hostRead_of_failed (h : accessOf s (a / blockBytes) false = .failed) : hostRead a s = onlyReplies (.cxlPoison a) s := by
  cases hopen : memClosed s with
  | true => exact hostRead_of_closed hopen
  | false => rw [hostRead_of_unqueued hopen (by simp [h]), serveRead_of_failed h]

/-- An UNMAPPED block reads as zeros. -/
theorem hostRead_of_unmapped (hopen : memClosed s = false) (h : (s.block (a / blockBytes)).state = .unmapped) :
    hostRead a s = onlyReplies (.cxlData a (List.replicate 64 0)) s := by
  have hzeros := accessOf_read_unmapped h
  rw [hostRead_of_unqueued hopen (by simp [hzeros]), serveRead_of_zeros hzeros]

/-- A write to an UNMAPPED block of the host region is refused where no quadrant has a frame. -/
theorem hostWrite_of_noFrame (hopen : memClosed s = false) (h : (s.block (a / blockBytes)).state = .unmapped)
    (hhost : a / blockBytes < hostLimit s) (hfull : ∀ q, q < 4 → takeT0 s q false = none) :
    hostWrite a bs s = onlyReplies (.cxlError a) s := by
  have hfresh := accessOf_write_host h hhost
  rw [hostWrite_of_unqueued hopen (by simp [hfresh]), serveWrite_of_none (memStore_of_noFrame hfresh (freshFrame_eq_none hfull))]

/-- A write to an UNMAPPED block of the host region maps it to a frame of its own quadrant first. -/
theorem hostWrite_of_fresh (hopen : memClosed s = false) (h : (s.block (a / blockBytes)).state = .unmapped)
    (hhost : a / blockBytes < hostLimit s) (hframe : takeT0 s (a / blockBytes % 4) false = some f) :
    hostWrite a bs s = onlyReplies (.cxlDone a) (applyWrite a bs (mapFresh (a / blockBytes) (a / blockBytes % 4) f s)) := by
  have hfresh := accessOf_write_host h hhost
  rw [hostWrite_of_unqueued hopen (by simp [hfresh]), serveWrite_of_some (memStore_of_fresh hfresh (freshFrame_of_own hframe))]

theorem hostWrite_of_failed (h : accessOf s (a / blockBytes) true = .failed) : hostWrite a bs s = onlyReplies (.cxlError a) s := by
  cases hopen : memClosed s with
  | true => exact hostWrite_of_closed hopen
  | false => rw [hostWrite_of_unqueued hopen (by simp [h]), serveWrite_of_none (memStore_of_failed h)]

/-- A readable line that is not poisoned and waits for no window reads as its content; an image's bytes pass check units and
the sluice's codec on their way. -/
theorem hostRead_of_served (hopen : memClosed s = false) (h : accessOf s (a / blockBytes) false = .served) (hl : queueFor s a = none)
    (ha : a % 64 = 0) (hclean : a / 64 ∉ s.poisoned) :
    ∃ c k, hostRead a s = { onlyReplies (.cxlData a (memBytes s.mem a 64)) s with ckus := c, sluice := k } := by
  obtain ⟨c, k, hnote⟩ := noteRead_frame (a := a) (bs := memBytes s.mem a 64) (s := s)
  refine ⟨c, k, ?_⟩
  rw [hostRead_of_unqueued hopen fun _ => hl, serveRead_of_served h (areaPoisoned_line_eq_false ha hclean), hnote]
  rfl

/-- From a T0 copy the line reads with no other effect. -/
theorem hostRead_of_served_t0 (hopen : memClosed s = false) (h : accessOf s (a / blockBytes) false = .served) (hl : queueFor s a = none)
    (ha : a % 64 = 0) (hclean : a / 64 ∉ s.poisoned) (ht : (s.block (a / blockBytes)).t0 ≠ none) :
    hostRead a s = onlyReplies (.cxlData a (memBytes s.mem a 64)) s := by
  rw [hostRead_of_unqueued hopen fun _ => hl, serveRead_of_served h (areaPoisoned_line_eq_false ha hclean), noteRead_of_t0 ht]

theorem hostRead_of_poisoned (hopen : memClosed s = false) (h : accessOf s (a / blockBytes) false = .served) (hl : queueFor s a = none)
    (ha : a % 64 = 0) (hpoison : a / 64 ∈ s.poisoned) : hostRead a s = onlyReplies (.cxlPoison a) s := by
  rw [hostRead_of_unqueued hopen fun _ => hl, serveRead_of_poisoned h ((areaPoisoned_line ha).mpr hpoison)]

/-- An unsealed block takes the bytes of a write that waits for no window. -/
theorem hostWrite_of_served (hopen : memClosed s = false) (h : accessOf s (a / blockBytes) true = .served) (hl : queueFor s a = none) :
    hostWrite a bs s = onlyReplies (.cxlDone a) (applyWrite a bs s) := by
  rw [hostWrite_of_unqueued hopen fun _ => hl, serveWrite_of_some (memStore_of_served h)]

/-! ## The commands -/

/-- A line starts at a multiple of 64 (R244). -/
theorem mod_eq_zero_of_lineOk (h : lineOk a = true) : a % 64 = 0 := by
  simp only [lineOk, Bool.and_eq_true, beq_iff_eq] at h
  obtain ⟨halign, _⟩ := h
  exact halign

theorem exec_cxlMemRead_of_answers (hline : lineOk a = true) (hanswers : s.answers = true) :
    exec (.cxlMemRead a) s = .next (hostRead a s) := by
  change execCxlMemRead a s = _
  rw [execCxlMemRead, if_pos hline, Laws.whenAnswering_yes s hanswers]

theorem exec_cxlMemWrite_of_answers (hline : lineOk a = true) (hbs : bs.length = 64) (hanswers : s.answers = true) :
    exec (.cxlMemWrite a bs) s = .next (hostWrite a bs s) := by
  change execCxlMemWrite a bs s = _
  rw [execCxlMemWrite, if_pos (by simp [hline, hbs]), Laws.whenAnswering_yes s hanswers]

/-- A host window of a queue of one write serves it (R177). -/
theorem exec_hostWindow_of_write {q layer : Nat} (hq : q < 4) (hlayer : layer < 8) (hserving : s.serving = true)
    (hqueue : fmGet s.hostQueues (q * 8 + layer) [] = [.write a bs]) :
    exec (.hostWindow q layer) s = .next (serveWrite a bs { s with hostQueues := fmSet s.hostQueues (q * 8 + layer) [] }) := by
  rw [Laws.exec_hostWindow (by simp [Instr.wf, layerOk, hq, hlayer]), Laws.whenServing_yes s hserving, serveWindow, hqueue]
  rfl

/-- Settles O48, by Table 10-4's outcome in each state of the block, and then by the quad's mode. -/
theorem hostAccessesHaveTheirOutcome : Obligations.HostAccessesHaveTheirOutcome := by
  intro a bs s hline hbs hanswers n b read write zeros data poison error
  have hread {x : State} (h : hostRead a s = x) : read x := h ▸ exec_cxlMemRead_of_answers hline hanswers
  have hwrite {x : State} (h : hostWrite a bs s = x) : write x := h ▸ exec_cxlMemWrite_of_answers hline hbs hanswers
  have halign : a % 64 = 0 := mod_eq_zero_of_lineOk hline
  refine ⟨fun hclosed => ?_, fun hwiped hretired => ?_, fun q layer hq hlayer hserving hqueue hmapped hunsealed hwf => ?_⟩
  · have hclosed := memClosed_eq_true_iff.mpr hclosed
    exact ⟨hread (hostRead_of_closed hclosed), hwrite (hostWrite_of_closed hclosed)⟩
  · have hopen : memClosed s = false := memClosed_eq_false_iff.mpr ⟨hwiped, hretired⟩
    have refused (h : writeRefused b) : write error := hwrite (hostWrite_of_failed (accessOf_write_refused h))
    have unreadable (h : accessOf s n false = .failed) : read poison := hread (hostRead_of_failed h)
    refine ⟨fun hunmapped => ⟨?_, fun hdevice => ?_, fun hhost hfull => ?_, fun f hhost hframe hwf => ?_⟩,
      fun hmapped hunsealed => ⟨fun hstep hempty => ?_, fun f g ht hstep hstarted => ?_⟩,
      fun hmapped hsealed => ⟨?_, fun hkey => ?_, fun hkey ht hclean hstep hempty => ?_, fun hkey ht hclean => ?_⟩,
      fun hmoving => ?_, fun hrefetching ht himage => ?_, fun hlost => ?_⟩
    · exact hread (hostRead_of_unmapped hopen hunmapped)
    · exact hwrite (hostWrite_of_failed (accessOf_write_device hunmapped hdevice))
    · exact hwrite (hostWrite_of_noFrame hopen hunmapped hhost hfull)
    · exact ⟨_, hwrite (hostWrite_of_fresh hopen hunmapped hhost hframe), block_mapFresh_self _,
        fun m hm => block_mapFresh_other _ hm, memByte_applyWrite_mapFresh hwf hbs _, rfl⟩
    · have hidle := queueFor_of_idle (a := a) hstep hempty
      have hreadable := accessOf_unsealed hmapped hunsealed false
      refine ⟨fun hclean => ⟨fun ht => hread (hostRead_of_served_t0 hopen hreadable hidle halign hclean ht), ?_⟩,
        fun hpoisoned => hread (hostRead_of_poisoned hopen hreadable hidle halign hpoisoned), fun hwf => ?_⟩
      · obtain ⟨c, k, hcontent⟩ := hostRead_of_served hopen hreadable hidle halign hclean
        exact ⟨c, k, hread hcontent⟩
      · exact ⟨_, hwrite (hostWrite_of_served hopen (accessOf_unsealed hmapped hunsealed true) hidle),
          memByte_applyWrite hwf hbs, mem_poisoned_applyWrite_line halign hbs, rfl⟩
    · intro l joined hquad
      have hqueue : queueFor s a = some l := queueFor_of_computing ht hstep hstarted hquad
      exact ⟨hread (hostRead_of_queued hopen (accessOf_unsealed hmapped hunsealed false) hqueue),
        hwrite (hostWrite_of_queued hopen (accessOf_unsealed hmapped hunsealed true) hqueue)⟩
    · exact refused (.inl ⟨hmapped, hsealed⟩)
    · exact unreadable (accessOf_read_tenantKey (.inl ⟨hmapped, hsealed⟩) hkey)
    · exact hread (hostRead_of_served_t0 hopen (accessOf_read_sealed hmapped hkey) (queueFor_of_idle hstep hempty) halign hclean ht)
    · obtain ⟨c, k, hcontent⟩ := hostRead_of_served hopen (accessOf_read_sealed hmapped hkey) (queueFor_of_t0_none ht) halign hclean
      exact ⟨c, k, hread hcontent⟩
    · have hrefused : writeRefused b := writeRefused_of_moving hmoving
      exact ⟨refused hrefused, fun hkey => unreadable (accessOf_read_tenantKey hrefused hkey)⟩
    · exact unreadable (accessOf_read_withoutCopy hrefetching ht himage)
    · exact ⟨unreadable (accessOf_read_lost hlost), refused (.inr (.inr (.inr (.inr hlost))))⟩
  · let y : State := { s with hostQueues := fmSet s.hostQueues (q * 8 + layer) [] }
    have hstore : memStore a bs y = some (applyWrite a bs y) := memStore_of_served (accessOf_unsealed hmapped hunsealed true)
    exact ⟨_, (exec_hostWindow_of_write hq hlayer hserving hqueue).trans (congrArg _ (serveWrite_of_some hstore)),
      Laws.fmGet_fmSet_self _ _ _ _, memByte_applyWrite (s := y) hwf hbs, rfl⟩

end Sys2Proof.Machine
end

section
/-! PROOFS. Remote accesses over Nuxus (R316 to R320, R335): what answers a READ, a WRITE and an ATOMIC of another module. -/

namespace Sys2Proof.Machine

variable {h : MsgHead} {ty status l : Nat} {bs : List Byte} {s x : State}

/-! ## Responses (Table 12-5) -/

theorem readMessage_sent : Sent (responseTo h 0x40 status [] bs) s (readMessage h.source h.tag status bs s) :=
  Laws.sendMsg_sent _ s

theorem refuseStale_staleAnswered : StaleAnswered h s (refuseStale h s) :=
  Laws.sendMsg_sent _ _

/-- A posted access gets no acknowledgement (R319). -/
theorem ackUnless_of_posted {posted : Bool} (hposted : posted = true) : ackUnless posted h status s = s :=
  if_pos hposted

theorem ackUnless_sent {posted : Bool} (hposted : posted = false) :
    Sent (responseTo h 0x41 status [] []) s (ackUnless posted h status s) := by
  rw [ackUnless, if_neg (Bool.eq_false_iff.mp hposted)]
  exact Laws.sendMsg_sent _ s

/-! ## The target of an access -/

/-- An access of the sluice class reads what a tenant key protects (R318). -/
theorem memRead_of_sluiceClass {a n : Nat} (hmapped : (s.block (a / blockBytes)).state = .mapped)
    (hsealed : (s.block (a / blockBytes)).sealed = true) (hkey : (s.block (a / blockBytes)).keyOwner ≠ 0)
    (ht : (s.block (a / blockBytes)).t0 ≠ none) (hclean : areaPoisoned s a n = false) :
    memRead a n true s = some (memBytes s.mem a n, noteRead a (memBytes s.mem a n) s) := by
  have hfailed : accessOf s (a / blockBytes) false = .failed := accessOf_read_tenantKey (.inl ⟨hmapped, hsealed⟩) hkey
  simp [memRead, hfailed, hmapped, hsealed, hkey, hclean, Option.isSome_iff_ne_none.mpr ht]

/-- A T0 copy reads as its content where its block is unsealed, under a provider key, or read with the sluice class. -/
theorem memRead_of_t0 {a n : Nat} {key : Bool} (hmapped : (s.block (a / blockBytes)).state = .mapped)
    (hreadable : (s.block (a / blockBytes)).sealed = false ∨ (s.block (a / blockBytes)).keyOwner = 0 ∨ key = true)
    (ht : (s.block (a / blockBytes)).t0 ≠ none) (hclean : areaPoisoned s a n = false) :
    memRead a n key s = some (memBytes s.mem a n, s) := by
  have served (hserved : accessOf s (a / blockBytes) false = .served) : memRead a n key s = some (memBytes s.mem a n, s) := by
    rw [memRead_of_served hserved hclean, noteRead_of_t0 ht]
  by_cases hsealed : (s.block (a / blockBytes)).sealed = true
  case neg => exact served (accessOf_unsealed hmapped (Bool.not_eq_true _ ▸ hsealed) false)
  by_cases hkey : (s.block (a / blockBytes)).keyOwner = 0
  case pos => exact served (accessOf_read_sealed hmapped hkey)
  obtain rfl : key = true := by simpa [hsealed, hkey] using hreadable
  rw [memRead_of_sluiceClass hmapped hsealed hkey ht hclean, noteRead_of_t0 ht]

/-- A lost block reads with no class. -/
theorem memRead_of_lost {a n : Nat} {key : Bool} (hlost : (s.block (a / blockBytes)).state = .lost) : memRead a n key s = none := by
  simp [memRead, accessOf_read_lost hlost, hlost]

theorem atomicTarget_eq_true_iff {a : Nat} : atomicTarget s a = true ↔
    (s.block (a / blockBytes)).state = .mapped ∧ (s.block (a / blockBytes)).sealed = false ∧ (s.block (a / blockBytes)).t0 ≠ none := by
  simp [atomicTarget, Option.isSome_iff_ne_none, and_assoc]

/-! ## Atomic adds in place (R164, R167) -/

/-- The atomic cache alone takes note of an add. -/
theorem cacheLines_frame (a n : Nat) (s : State) : cacheLines a n s = { s with atomicCache := (cacheLines a n s).atomicCache } := by
  unfold cacheLines
  split
  · rfl
  · dsimp only
    split <;> rfl

/-- The sum takes the place of a target that is not poisoned. -/
theorem applyAtomic_of_clean {a : Nat} (hclean : areaPoisoned s a bs.length = false) :
    applyAtomic a ty bs s = cacheLines a bs.length
      { s with mem := memWrite s.mem a (atomicBytes ty (bs.length / atomicSize ty) (memBytes s.mem a bs.length) bs) } :=
  if_neg (Bool.eq_false_iff.mp hclean)

/-- An add to a target that takes it is acknowledged once it is made (R319). -/
theorem serveAtomic_of_target {a : Nat} (htarget : atomicTarget s a = true) (posted : Bool) :
    serveAtomic a ty bs (if posted then none else some (h.source, h.tag)) s = ackUnless posted h stOk (applyAtomic a ty bs s) := by
  cases posted with
  | true => simp [serveAtomic, htarget, ackUnless]
  | false => simp [serveAtomic, htarget, ackUnless]

/-! ## READ -/

section Served

variable (hwf : h.wf = true) (hanswers : s.answers = true)
include hwf hanswers

theorem exec_read_of_answers : exec (.read h) s = .next (serveReadMsg h s) := by
  rw [Laws.exec_read hwf, Laws.whenAnswering_yes s hanswers]

theorem exec_read_of_malformed (hrange : rangeOk h.address h.length = false) :
    exec (.read h) s = .next (readMessage h.source h.tag stBadDescriptor [] s) := by
  simp [exec_read_of_answers hwf hanswers, serveReadMsg, hrange]

theorem exec_read_of_stale (hrange : rangeOk h.address h.length = true) (hepoch : h.epoch ≠ s.junction.epoch) :
    exec (.read h) s = .next (refuseStale h s) := by
  simp [exec_read_of_answers hwf hanswers, serveReadMsg, hrange, staleFor, hepoch]

/-- A READ at the module's epoch is answered with what its range gives. -/
theorem exec_read_of_current (hrange : rangeOk h.address h.length = true) (hepoch : h.epoch = s.junction.epoch) :
    exec (.read h) s = .next (readMessage h.source h.tag (targetRead h.address h.length s).1 (targetRead h.address h.length s).2.1
      (targetRead h.address h.length s).2.2) := by
  simp [exec_read_of_answers hwf hanswers, serveReadMsg, hrange, staleFor, hepoch]

theorem exec_read_of_none (hrange : rangeOk h.address h.length = true) (hepoch : h.epoch = s.junction.epoch)
    (hnone : memClosed s = true ∨ memRead (gaPhysical h.address) h.length (gaClass h.address == 1) s = none) :
    exec (.read h) s = .next (readMessage h.source h.tag stAccess [] s) := by
  have htarget : targetRead h.address h.length s = (stAccess, [], s) := by
    rcases hnone with hclosed | hnone
    · simp [targetRead, hrange, hclosed]
    · simp [targetRead, hrange, hnone]
  rw [exec_read_of_current hwf hanswers hrange hepoch, htarget]

theorem exec_read_of_some (hrange : rangeOk h.address h.length = true) (hepoch : h.epoch = s.junction.epoch) (hopen : memClosed s = false)
    (hsome : memRead (gaPhysical h.address) h.length (gaClass h.address == 1) s = some (bs, x)) :
    exec (.read h) s = .next (readMessage h.source h.tag stOk bs x) := by
  have htarget : targetRead h.address h.length s = (stOk, bs, x) := by
    simp [targetRead, hrange, hopen, hsome]
  rw [exec_read_of_current hwf hanswers hrange hepoch, htarget]

/-! ## WRITE -/

theorem exec_write_of_answers : exec (.write h bs) s = .next (serveWriteMsg h bs s) := by
  rw [Laws.exec_write hwf, Laws.whenAnswering_yes s hanswers]

theorem exec_write_of_malformed (hrange : rangeOk h.address bs.length = false) :
    exec (.write h bs) s = .next (ackUnless (gaPosted h.address) h stBadDescriptor s) := by
  simp [exec_write_of_answers hwf hanswers, serveWriteMsg, hrange]

theorem exec_write_of_stale (hrange : rangeOk h.address bs.length = true) (hepoch : h.epoch ≠ s.junction.epoch) :
    exec (.write h bs) s = .next (refuseStale h s) := by
  simp [exec_write_of_answers hwf hanswers, serveWriteMsg, hrange, staleFor, hepoch]

/-- A WRITE at the module's epoch is answered with what its range makes of it. -/
theorem exec_write_of_current (hrange : rangeOk h.address bs.length = true) (hepoch : h.epoch = s.junction.epoch) :
    exec (.write h bs) s = .next (ackUnless (gaPosted h.address) h (targetWrite h.address bs s).1 (targetWrite h.address bs s).2) := by
  simp [exec_write_of_answers hwf hanswers, serveWriteMsg, hrange, staleFor, hepoch]

theorem exec_write_of_none (hrange : rangeOk h.address bs.length = true) (hepoch : h.epoch = s.junction.epoch)
    (hnone : memClosed s = true ∨ memStore (gaPhysical h.address) bs s = none) :
    exec (.write h bs) s = .next (ackUnless (gaPosted h.address) h stAccess s) := by
  have htarget : targetWrite h.address bs s = (stAccess, s) := by
    rcases hnone with hclosed | hnone
    · simp [targetWrite, hrange, hclosed]
    · simp [targetWrite, hrange, hnone]
  rw [exec_write_of_current hwf hanswers hrange hepoch, htarget]

theorem exec_write_of_some (hrange : rangeOk h.address bs.length = true) (hepoch : h.epoch = s.junction.epoch) (hopen : memClosed s = false)
    (hsome : memStore (gaPhysical h.address) bs s = some x) :
    exec (.write h bs) s = .next (ackUnless (gaPosted h.address) h stOk x) := by
  have htarget : targetWrite h.address bs s = (stOk, x) := by
    simp [targetWrite, hrange, hopen, hsome]
  rw [exec_write_of_current hwf hanswers hrange hepoch, htarget]

/-! ## ATOMIC -/

theorem exec_atomic_of_answers : exec (.atomic h ty bs) s = .next (serveAtomicMsg h ty bs s) := by
  rw [Laws.exec_atomic hwf, Laws.whenAnswering_yes s hanswers]

theorem exec_atomic_of_malformed (hform : (gaOk h.address && atomicOk (gaPhysical h.address) ty bs) = false) :
    exec (.atomic h ty bs) s = .next (ackUnless (gaPosted h.address) h stBadDescriptor s) := by
  simp [exec_atomic_of_answers hwf hanswers, serveAtomicMsg, hform]

theorem exec_atomic_of_stale (hform : (gaOk h.address && atomicOk (gaPhysical h.address) ty bs) = true)
    (hepoch : h.epoch ≠ s.junction.epoch) : exec (.atomic h ty bs) s = .next (refuseStale h s) := by
  simp [exec_atomic_of_answers hwf hanswers, serveAtomicMsg, hform, staleFor, hepoch]

theorem exec_atomic_of_refused (hform : (gaOk h.address && atomicOk (gaPhysical h.address) ty bs) = true)
    (hepoch : h.epoch = s.junction.epoch) (hrefused : memClosed s = true ∨ atomicTarget s (gaPhysical h.address) = false) :
    exec (.atomic h ty bs) s = .next (ackUnless (gaPosted h.address) h stAccess s) := by
  simp [exec_atomic_of_answers hwf hanswers, serveAtomicMsg, hform, staleFor, hepoch, hrefused]

/-- An add to a quad in compute mode waits for a host window, outside a planned exchange (R177, R319). -/
theorem exec_atomic_of_queued (hform : (gaOk h.address && atomicOk (gaPhysical h.address) ty bs) = true)
    (hepoch : h.epoch = s.junction.epoch) (hopen : memClosed s = false) (htarget : atomicTarget s (gaPhysical h.address) = true)
    (hqueue : queueFor s (gaPhysical h.address) = some l) (hclass : gaClass h.address ≠ 2) :
    exec (.atomic h ty bs) s = .next (joinQueue l (.atomic (gaPhysical h.address) ty bs
      (if gaPosted h.address then none else some (h.source, h.tag))) s) := by
  simp [exec_atomic_of_answers hwf hanswers, serveAtomicMsg, hform, staleFor, hepoch, hopen, htarget, hqueue, hclass]

/-- Otherwise it is made at once. -/
theorem exec_atomic_of_unqueued (hform : (gaOk h.address && atomicOk (gaPhysical h.address) ty bs) = true)
    (hepoch : h.epoch = s.junction.epoch) (hopen : memClosed s = false) (htarget : atomicTarget s (gaPhysical h.address) = true)
    (hfree : queueFor s (gaPhysical h.address) = none ∨ gaClass h.address = 2) :
    exec (.atomic h ty bs) s = .next (ackUnless (gaPosted h.address) h stOk (applyAtomic (gaPhysical h.address) ty bs s)) := by
  rw [← serveAtomic_of_target htarget]
  rcases hfree with hfree | hclass
  · simp [exec_atomic_of_answers hwf hanswers, serveAtomicMsg, hform, staleFor, hepoch, hopen, htarget, hfree]
  · simp [exec_atomic_of_answers hwf hanswers, serveAtomicMsg, hform, staleFor, hepoch, hopen, htarget, hclass]

end Served

/-- Settles O55, by the message and, at the module's epoch, by the state of the block it names. -/
theorem remoteAccessesAreServed : Obligations.RemoteAccessesAreServed := by
  intro h ty bs s hwf hanswers a b served clean replied acked stale
  have opened (hserved : served) : memClosed s = false := memClosed_eq_false_iff.mpr hserved
  have closed (hserved : ¬served) : memClosed s = true := eq_true_of_ne_false (mt memClosed_eq_false_iff.mp hserved)
  have unpoisoned {n : Nat} (hclean : clean n) : areaPoisoned s a n = false := areaPoisoned_eq_false_iff.mpr hclean
  have answeredRead {c : Instr} {status : Nat} {data : List Byte} (hc : exec c s = .next (readMessage h.source h.tag status data s)) :
      replied c 0x40 status data := ⟨_, hc, readMessage_sent⟩
  have acknowledged {c : Instr} {status : Nat} (hc : exec c s = .next (ackUnless (gaPosted h.address) h status s)) : acked c status :=
    ⟨fun hposted => hc.trans (congrArg _ (ackUnless_of_posted hposted)), fun hposted => ⟨_, hc, ackUnless_sent hposted⟩⟩
  have refusedStale {c : Instr} (hc : exec c s = .next (refuseStale h s)) : stale c := ⟨_, hc, refuseStale_staleAnswered⟩
  refine ⟨fun hrange => answeredRead (exec_read_of_malformed hwf hanswers hrange),
    fun hrange => ⟨fun hepoch => refusedStale (exec_read_of_stale hwf hanswers hrange hepoch), fun hepoch => ?_⟩,
    fun hrange => acknowledged (exec_write_of_malformed hwf hanswers hrange),
    fun hrange => ⟨fun hepoch => refusedStale (exec_write_of_stale hwf hanswers hrange hepoch), fun hepoch => ?_⟩,
    fun hform => acknowledged (exec_atomic_of_malformed hwf hanswers hform),
    fun hform => ⟨fun hepoch => refusedStale (exec_atomic_of_stale hwf hanswers hform hepoch), fun hepoch => ?_⟩⟩
  · have refused (hnone : memClosed s = true ∨ memRead a h.length (gaClass h.address == 1) s = none) : replied (.read h) 0x40 stAccess [] :=
      answeredRead (exec_read_of_none hwf hanswers hrange hepoch hnone)
    refine ⟨fun hserved => refused (.inl (closed hserved)), fun hserved => ?_⟩
    have given {data : List Byte} (hsome : memRead a h.length (gaClass h.address == 1) s = some (data, s)) : replied (.read h) 0x40 stOk data :=
      answeredRead (exec_read_of_some hwf hanswers hrange hepoch (opened hserved) hsome)
    refine ⟨fun hunmapped => ?_, fun ht hclean hmapped hreadable => ?_, fun hmapped hsealed hkey hclass => ?_, fun hlost => ?_⟩
    · exact given (memRead_of_zeros (accessOf_read_unmapped hunmapped) _)
    · exact given (memRead_of_t0 hmapped (by rwa [beq_iff_eq]) ht (unpoisoned hclean))
    · rw [beq_eq_false_iff_ne.mpr hclass] at refused
      exact refused (.inr (memRead_of_failed (accessOf_read_tenantKey (.inl ⟨hmapped, hsealed⟩) hkey)))
    · exact refused (.inr (memRead_of_lost hlost))
  · refine ⟨fun hrefused => ?_, fun hserved hmapped hunsealed hmem => ?_⟩
    · have refused (hnone : memClosed s = true ∨ memStore a bs s = none) : acked (.write h bs) stAccess :=
        acknowledged (exec_write_of_none hwf hanswers hrange hepoch hnone)
      rcases hrefused with hserved | hlost | hsealed
      · exact refused (.inl (closed hserved))
      · exact refused (.inr (memStore_of_failed (accessOf_write_refused (.inr (.inr (.inr (.inr hlost)))))))
      · exact refused (.inr (memStore_of_failed (accessOf_write_refused (.inl hsealed))))
    · have hstore : memStore a bs s = some (applyWrite a bs s) := memStore_of_served (accessOf_unsealed hmapped hunsealed true)
      exact ⟨_, _, exec_write_of_some hwf hanswers hrange hepoch (opened hserved) hstore, memByte_applyWrite hmem rfl, rfl,
        ackUnless_of_posted, ackUnless_sent⟩
  · refine ⟨fun hrefused => ?_, fun l hserved hmapped hunsealed ht hqueue hclass => ?_, fun hserved hmapped hunsealed ht hfree hclean => ?_⟩
    · refine acknowledged (exec_atomic_of_refused hwf hanswers hform hepoch (hrefused.imp closed fun hblock => ?_))
      refine Bool.eq_false_iff.mpr fun htarget => ?_
      obtain ⟨hmapped, hunsealed, ht⟩ := atomicTarget_eq_true_iff.mp htarget
      rcases hblock with hstate | hsealed | hnone
      · exact hstate hmapped
      · exact Bool.eq_false_iff.mp hunsealed hsealed
      · exact ht hnone
    · exact exec_atomic_of_queued hwf hanswers hform hepoch (opened hserved) (atomicTarget_eq_true_iff.mpr ⟨hmapped, hunsealed, ht⟩) hqueue hclass
    · have hsum := applyAtomic_of_clean (ty := ty) (unpoisoned hclean)
      have hexec := exec_atomic_of_unqueued hwf hanswers hform hepoch (opened hserved) (atomicTarget_eq_true_iff.mpr ⟨hmapped, hunsealed, ht⟩) hfree
      refine ⟨_, _, hexec, ?_, ?_, ackUnless_of_posted, ackUnless_sent⟩
      · rw [hsum, cacheLines_frame]
      · rw [hsum, cacheLines_frame]

end Sys2Proof.Machine
end

section
/-! PROOFS. Commands complete: outside CXL.mem a command is taken or stopped by its well-formedness, a CXL.mem access by its
line. -/

namespace Sys2Proof.Machine

variable {c : Instr}

/-- Every command but a CXL.mem access is taken or stopped by its well-formedness alone. -/
theorem exec_eq_of_not_cxlMem (h : isCxlMem c = false) (s : State) :
    ∃ t, exec c s = if c.wf = true then .next t else .fault .noSuchUnit := by
  cases c with
  | cxlMemRead a => cases h
  | cxlMemWrite a bs => cases h
  | _ => exact ⟨_, rfl⟩

/-- A CXL.mem access is taken or stopped by whether it is a line of the range (R244). -/
theorem exec_eq_of_cxlMem (h : isCxlMem c = true) (s : State) :
    ∃ t, exec c s = if carried c = true then .next t else .fault .outsideRange := by
  cases c with
  | cxlMemRead a => exact ⟨_, rfl⟩
  | cxlMemWrite a bs => exact ⟨_, rfl⟩
  | _ => cases h

/-- Only a CXL.mem access has a form beyond its operands. -/
theorem carried_of_not_cxlMem (h : isCxlMem c = false) : carried c = true := by
  cases c with
  | cxlMemRead a => cases h
  | cxlMemWrite a bs => cases h
  | _ => rfl

/-- Settles O7, by whether the command is a CXL.mem access. -/
theorem wellFormedCommandsComplete : Obligations.WellFormedCommandsComplete := by
  intro c s
  cases hcxl : isCxlMem c with
  | false =>
    obtain ⟨t, ht⟩ := exec_eq_of_not_cxlMem hcxl s
    refine ⟨fun hwf _ => ⟨t, ht.trans (if_pos hwf)⟩, fun _ hill => ht.trans (if_neg (Bool.eq_false_iff.mp hill)), fun hform => ?_⟩
    cases (carried_of_not_cxlMem hcxl).symm.trans hform
  | true =>
    obtain ⟨t, ht⟩ := exec_eq_of_cxlMem hcxl s
    exact ⟨fun _ hform => ⟨t, ht.trans (if_pos hform)⟩, nofun, fun hform => ht.trans (if_neg (Bool.eq_false_iff.mp hform))⟩

end Sys2Proof.Machine
end

section
/-! PROOFS. The sluice's queue of commands (R249, R424) and the weirs at a slot start (R275, R276, R427): every bucket is
refilled, then the pieces that wait start. -/

namespace Sys2Proof.Machine

variable {op : SluiceOp} {w b n p : Nat} {g : Governed} {s x : State}

/-! ## The queue of 64 commands -/

theorem queueSluice_of_room (h : s.sluice.commands.length < 64) : queueSluice op n s =
    { s with sluice := { s.sluice with commands := s.sluice.commands ++ [(op, n)], issued := s.sluice.issued + 1 } } :=
  if_neg (Nat.not_le.mpr h)

theorem queueSluice_of_full (h : 64 ≤ s.sluice.commands.length) : queueSluice op n s =
    { s with sluice := { s.sluice with result := 3, last := n, done := s.sluice.done + 1 } } :=
  if_pos h

/-- Where every block answers, each of the three commands joins the queue or is discarded. -/
theorem exec_sluice_of_exposed (hn : n < 2097152) (hexposed : s.exposed = true) :
    exec (.sluiceSeal n) s = .next (queueSluice .seal n s) ∧ exec (.sluiceUnseal n) s = .next (queueSluice .unseal n s) ∧
      exec (.sluiceRelease n) s = .next (queueSluice .release n s) := by
  have hblock : blockOk n = true := decide_eq_true hn
  rw [Laws.exec_sluiceSeal hblock, Laws.exec_sluiceUnseal hblock, Laws.exec_sluiceRelease hblock]
  simp only [Laws.whenExposed_yes s hexposed, and_self]

/-! ## Only the buckets change -/

/-- The second state is the first but for its buckets. -/
def BucketsOnly (s x : State) : Prop := x = { s with buckets := x.buckets }

theorem refillBucket_bucketsOnly (w b : Nat) (s : State) : BucketsOnly s (refillBucket w b s) := rfl

theorem BucketsOnly.trans {y : State} (h : BucketsOnly s y) (k : BucketsOnly y x) : BucketsOnly s x := by
  rw [BucketsOnly, k, h]

theorem BucketsOnly.governed (h : BucketsOnly s x) : x.governed = s.governed := (congrArg State.governed h :)

theorem BucketsOnly.lookups (h : BucketsOnly s x) : x.lookups = s.lookups := (congrArg State.lookups h :)

/-- A change of buckets and governed transfers after one of buckets. -/
theorem BucketsOnly.trans_weirs {y : State} (h : BucketsOnly s y) (k : x = { y with buckets := x.buckets, governed := x.governed }) :
    x = { s with buckets := x.buckets, governed := x.governed } := by
  rw [h] at k
  exact k

theorem BucketsOnly.regs (h : BucketsOnly s x) : x.regs = s.regs := (congrArg State.regs h :)

theorem BucketsOnly.weirRate (h : BucketsOnly s x) (w b : Nat) : weirRate x w b = weirRate s w b := by
  simp [Machine.weirRate, State.reg, h.regs]

theorem BucketsOnly.weirBurst (h : BucketsOnly s x) (w b : Nat) : weirBurst x w b = weirBurst s w b := by
  simp [Machine.weirBurst, State.reg, h.regs]

/-! ## A bucket and its index -/

/-- The buckets of the partitions have different indices. -/
theorem bucket_index_ne {v a : Nat} (hb : b < 3) (ha : a < 3) (h : (v, a) ≠ (w, b)) : v * 4 + a ≠ w * 4 + b := by
  rintro heq
  exact h (Prod.ext (by omega) (by omega))

theorem bucket_passWeir_other {v a : Nat} (hb : b < 3) (ha : a < 3) (h : (v, a) ≠ (w, b)) (n : Nat) :
    (passWeir w b n s).bucket v a = s.bucket v a :=
  Laws.fmGet_fmSet_other _ _ _ (bucket_index_ne hb ha h)

theorem bucket_passWeir_self : (passWeir w b n s).bucket w b =
    { level := max ((s.bucket w b).level - (n * 256 : Nat)) (min (s.bucket w b).level (-1048576)), passed := ((s.bucket w b).passed + n) % 2 ^ 64 } :=
  Laws.fmGet_fmSet_self _ _ _ _

/-! ## Every bucket is refilled (R276, R427) -/

/-- What a slot start makes of a bucket. -/
def refilled (s : State) (w b : Nat) : Bucket :=
  { s.bucket w b with
    level := if weirRate s w b = 0xFFFFFFFF then (weirBurst s w b * 256 : Nat)
      else min ((s.bucket w b).level + (weirRate s w b : Nat)) (weirBurst s w b * 256 : Nat) }

theorem bucket_refillBucket_self : (refillBucket w b s).bucket w b = refilled s w b :=
  Laws.fmGet_fmSet_self _ _ _ _

theorem bucket_refillBucket_other {v a : Nat} (hb : b < 3) (ha : a < 3) (h : (v, a) ≠ (w, b)) :
    (refillBucket w b s).bucket v a = s.bucket v a :=
  Laws.fmGet_fmSet_other _ _ _ (bucket_index_ne hb ha h)

theorem refilled_refillBucket_other {v a : Nat} (hb : b < 3) (ha : a < 3) (h : (v, a) ≠ (w, b)) :
    refilled (refillBucket w b s) v a = refilled s v a := by
  have hregs := refillBucket_bucketsOnly w b s
  simp only [refilled, bucket_refillBucket_other hb ha h, hregs.weirRate, hregs.weirBurst]

/-- The buckets of the 32 partitions, in the order in which they are refilled. -/
def allBuckets : List (Nat × Nat) := (List.range 32) ×ˢ (List.range 3)

theorem mem_allBuckets : (w, b) ∈ allBuckets ↔ w < 32 ∧ b < 3 := by
  simp [allBuckets]

theorem nodup_allBuckets : allBuckets.Nodup := List.nodup_range.product List.nodup_range

theorem refillWeirs_eq_forEach (s : State) : refillWeirs s = forEach allBuckets (fun i => refillBucket i.1 i.2) s := by
  simp only [refillWeirs, forEach, allBuckets, SProd.sprod, List.product, List.foldl_flatMap, List.foldl_map]

theorem refillWeirs_bucketsOnly (s : State) : BucketsOnly s (refillWeirs s) := by
  rw [refillWeirs_eq_forEach]
  generalize allBuckets = l
  induction l generalizing s with
  | nil => rfl
  | cons i l ih => exact (refillBucket_bucketsOnly i.1 i.2 s).trans (ih _)

theorem bucket_forEach_refillBucket_other {l : List (Nat × Nat)} (hl : ∀ i ∈ l, i.2 < 3) (hb : b < 3) (h : (w, b) ∉ l) :
    (forEach l (fun i => refillBucket i.1 i.2) s).bucket w b = s.bucket w b := by
  induction l generalizing s with
  | nil => rfl
  | cons i l ih =>
    obtain ⟨hne, hnot⟩ := not_or.mp (List.mem_cons.not.mp h)
    obtain ⟨hi, hrest⟩ := List.forall_mem_cons.mp hl
    exact (ih hrest hnot).trans (bucket_refillBucket_other hi hb hne)

/-- Refilled one after another, each bucket of the list is refilled once. -/
theorem bucket_forEach_refillBucket {l : List (Nat × Nat)} (hnodup : l.Nodup) (hl : ∀ i ∈ l, i.2 < 3) (h : (w, b) ∈ l) :
    (forEach l (fun i => refillBucket i.1 i.2) s).bucket w b = refilled s w b := by
  induction l generalizing s with
  | nil => cases h
  | cons i l ih =>
    obtain ⟨hnot, hnodup⟩ := List.nodup_cons.mp hnodup
    obtain ⟨hi, hrest⟩ := List.forall_mem_cons.mp hl
    have hb : b < 3 := hl _ h
    rcases List.mem_cons.mp h with rfl | hmem
    · exact (bucket_forEach_refillBucket_other hrest hb hnot).trans bucket_refillBucket_self
    · have hne : (w, b) ≠ i := fun heq => hnot (heq ▸ hmem)
      exact (ih hnodup hrest hmem).trans (refilled_refillBucket_other hi hb hne)

theorem bucket_refillWeirs (hw : w < 32) (hb : b < 3) : (refillWeirs s).bucket w b = refilled s w b := by
  rw [refillWeirs_eq_forEach]
  exact bucket_forEach_refillBucket nodup_allBuckets (fun i hi => (mem_allBuckets.mp hi).2) (mem_allBuckets.mpr ⟨hw, hb⟩)

/-! ## Waiting pieces start (R276) -/

theorem passable_of_limited (h : weirRate s w b ≠ 0xFFFFFFFF) (n : Nat) :
    passable s w b n = min n (ceilDiv (s.bucket w b).level.toNat 1048576 * 4096) :=
  if_neg h

/-- What the pieces of one transfer take from a bucket: none at a level of 0 or less, else whole pieces of 4,096 bytes until
the level is no longer above 0, or all that is left. -/
structure TakesPieces (level : Int) (n p : Nat) : Prop where
  le : p ≤ n
  none_of_empty : level ≤ 0 → p = 0
  whole_of_short : p < n → 0 < level → p % 4096 = 0 ∧ level ≤ p * 256
  bound : p * 256 < max 1 (level + 1048576)

theorem passable_takesPieces (h : weirRate s w b ≠ 0xFFFFFFFF) (n : Nat) : TakesPieces (s.bucket w b).level n (passable s w b n) := by
  rw [passable_of_limited h]
  generalize (s.bucket w b).level = level
  unfold ceilDiv
  constructor <;> omega

/-- Pieces that may start lower their bucket by all their bytes, never below -4,096 bytes (R276). -/
theorem bucket_passWeir_of_takesPieces (h : TakesPieces (s.bucket w b).level n p) : (passWeir w b p s).bucket w b =
    { level := (s.bucket w b).level - p * 256, passed := ((s.bucket w b).passed + p) % 2 ^ 64 } := by
  have hbound := h.bound
  have hempty := h.none_of_empty
  rw [bucket_passWeir_self]
  congr 1
  omega

theorem passPieces_singleton (w b n : Nat) (s : State) : passPieces w b [n] s =
    (if passable s w b n = n then [] else [n - passable s w b n], passWeir w b (passable s w b n) s) := by
  simp only [passPieces]
  split <;> rfl

theorem serveWaiters_of_nil (h : s.governed = []) : serveWaiters s = s := by
  rw [serveWaiters, h]
  rfl

/-- The one governed transfer, of one piece, goes on by the bytes its bucket lets pass. -/
structure Serves (g : Governed) (n p : Nat) (s x : State) : Prop where
  governed : x.governed = [{ g with left := if p = n then [] else [n - p] }]
  own : x.bucket g.partition g.bucket = (passWeir g.partition g.bucket p s).bucket g.partition g.bucket
  others : ∀ w b, b < 3 → (w, b) ≠ (g.partition, g.bucket) → x.bucket w b = s.bucket w b
  frame : x = { s with buckets := x.buckets, governed := x.governed }

theorem serveWaiters_serves (hone : s.governed = [g]) (hleft : g.left = [n]) (hb : g.bucket < 3) :
    Serves g n (passable s g.partition g.bucket n) s (serveWaiters s) := by
  have hgoverned (p : Nat) : (passWeir g.partition g.bucket p s).governed = [g] := hone
  have hserved : serveWaiters s = { passWeir g.partition g.bucket (passable s g.partition g.bucket n) s with
      governed := [{ g with left := if passable s g.partition g.bucket n = n then [] else [n - passable s g.partition g.bucket n] }] } := by
    simp [serveWaiters, forEach, hone, hleft, passPieces_singleton, hgoverned]
  rw [hserved]
  exact ⟨rfl, rfl, fun w b hb' hother => bucket_passWeir_other hb hb' hother _, rfl⟩

/-! ## A slot starts -/

theorem joinServed_of_nil (h : s.lookups = []) : joinServed s = s := by
  rw [joinServed, h]
  rfl

/-- With no lookup under way a slot start refills and serves. -/
theorem exec_weirRefill_of_answers (hanswers : s.answers = true) (hlookups : (serveWaiters (refillWeirs s)).lookups = []) :
    exec .weirRefill s = .next (serveWaiters (refillWeirs s)) := by
  rw [Laws.exec_weirRefill rfl, Laws.whenAnswering_yes s hanswers, weirSlot, joinServed_of_nil hlookups]

/-- Settles O49, by the room in the queue, and then by the governed transfers that wait. -/
theorem sluiceCommandsWaitAndBucketsRefill : Obligations.SluiceCommandsWaitAndBucketsRefill := by
  intro s
  refine ⟨fun n hn hexposed => ?_, fun hanswers hlookups => ?_⟩
  · obtain ⟨hseal, hunseal, hrelease⟩ := exec_sluice_of_exposed hn hexposed
    rw [hseal, hunseal, hrelease]
    refine ⟨fun hroom => ?_, fun hfull => ?_⟩
    · simp only [queueSluice_of_room hroom, and_self]
    · simp only [queueSluice_of_full hfull, and_self]
  have hrefilled := refillWeirs_bucketsOnly s
  have hexec := exec_weirRefill_of_answers hanswers
  have hnoLookup := hrefilled.lookups.trans hlookups
  have hbucket (w b : Nat) (hw : w < 32) (hb : b < 3) : (refillWeirs s).bucket w b = refilled s w b := bucket_refillWeirs hw hb
  generalize refillWeirs s = y at *
  refine ⟨fun hnone => ?_, fun g n hone hleft hw hb hlimited => ?_⟩
  · rw [serveWaiters_of_nil (hrefilled.governed.trans hnone)] at hexec
    exact ⟨y, hexec hnoLookup, hbucket, hrefilled⟩
  · obtain ⟨hgoverned, hown, hothers, hframe⟩ := serveWaiters_serves (hrefilled.governed.trans hone) hleft hb
    have htakes := passable_takesPieces (b := g.bucket) ((hrefilled.weirRate g.partition g.bucket).trans_ne hlimited) n
    rw [bucket_passWeir_of_takesPieces htakes, hbucket _ _ hw hb] at hown
    rw [hbucket _ _ hw hb] at htakes
    obtain ⟨hle, hempty, hshort, hbound⟩ := htakes
    have hlookups : (serveWaiters y).lookups = [] := (congrArg State.lookups hframe).trans hnoLookup
    exact ⟨_, _, hexec hlookups, hle, hempty, hshort, hbound, hgoverned, hown,
      fun w b hw hb hother => (hothers w b hb hother).trans (hbucket w b hw hb), hrefilled.trans_weirs hframe⟩

end Sys2Proof.Machine
end

section
/-! PROOFS. Pages and bulk data of an evacuation (R275, R335, R339, R341, R342): a page that arrives is placed and acknowledged,
acknowledgements are noted, bulk data is written, and a module that has left wipes its stores. -/

namespace Sys2Proof.Machine

variable {h : MsgHead} {g k fill b o e : Nat} {p : Pool} {bs : List Byte} {l r : List Nat} {s x : State}

/-! ## Content that arrives passes a bucket and a snoop point -/

/-- The second state is the first but for its buckets and check units. -/
def TrafficOnly (s x : State) : Prop := ∃ w c, x = { s with buckets := w, ckus := c }

theorem passWeir_trafficOnly (w b n : Nat) (s : State) : TrafficOnly s (passWeir w b n s) := ⟨_, _, rfl⟩

theorem TrafficOnly.snoop (h : TrafficOnly s x) (q : Nat) (f : Option Nat) (bs : List Byte) : TrafficOnly s (snoop q f bs x) := by
  obtain ⟨w, c, rfl⟩ := h
  exact ⟨_, _, rfl⟩

/-- Content passes its weir, and the snoop point of the port it came on where a route leads there. -/
theorem passWeir_routed_trafficOnly {w n f : Nat} {o : Option Nat} :
    TrafficOnly s (match o with
      | some q => snoop 2 (some (q + 16 * f)) bs (passWeir w bulk n s)
      | none => passWeir w bulk n s) := by
  cases o with
  | none => exact passWeir_trafficOnly w bulk n s
  | some q => exact (passWeir_trafficOnly w bulk n s).snoop 2 _ bs

theorem TrafficOnly.block (h : TrafficOnly s x) (n : Nat) : x.block n = s.block n := by
  obtain ⟨w, c, rfl⟩ := h
  rfl

theorem TrafficOnly.group (h : TrafficOnly s x) (n : Nat) : x.group n = s.group n := by
  obtain ⟨w, c, rfl⟩ := h
  rfl

theorem TrafficOnly.pools (h : TrafficOnly s x) : x.pools = s.pools := by
  obtain ⟨w, c, rfl⟩ := h
  rfl

/-! ## BULK_DATA -/

theorem takeBulk_of_stale (hepoch : h.epoch ≠ s.junction.epoch) : takeBulk h b o bs s = staleCounted s :=
  if_pos (decide_eq_true hepoch)

/-- Bulk data of this module's epoch passes its weir, and is written where its block is mapped and holds it. -/
theorem takeBulk_of_current (hepoch : h.epoch = s.junction.epoch) : ∃ y, TrafficOnly s y ∧ takeBulk h b o bs s =
    if (s.block b).state = .unmapped ∨ blockBytes < o + bs.length then y else { y with mem := memWrite y.mem (b * blockBytes + o) bs } := by
  have hcurrent : ¬staleFor s h = true := by simp [staleFor, hepoch]
  generalize htaken : takeBulk h b o bs s = x
  unfold takeBulk at htaken
  rw [if_neg hcurrent] at htaken
  extract_lets +onlyGivenNames v y at htaken
  have harrived : TrafficOnly s y := passWeir_routed_trafficOnly
  exact ⟨y, harrived, by rw [← htaken, harrived.block]⟩

/-! ## PAGE_ACK -/

theorem mem_dedup_iff {α : Type} [DecidableEq α] {l : List α} {a : α} : a ∈ dedup l ↔ a ∈ l := by
  induction l with
  | nil => rfl
  | cons c l ih =>
    by_cases hc : a = c
    · simp [dedup, hc]
    · simp [dedup, hc, ih]

/-- A manager notes the groups that are kept (R341). -/
theorem takePageAck_of_manager (hrole : s.junction.role = .manager) : takePageAck l s =
    { s with junction := { s.junction with sentGroups := dedup (s.junction.sentGroups ++ l) } } :=
  if_pos hrole

theorem takePageAck_of_none_unacked (hrole : s.junction.role ≠ .manager) (hnone : s.junction.unacked = []) : takePageAck l s = s := by
  simp [takePageAck, hrole, hnone]

/-- The acknowledged groups are off the list (R339). -/
def withoutAcked (l : List Nat) (s : State) : State :=
  { s with junction := { s.junction with unacked := s.junction.unacked.filter fun g => !(l.contains g) } }

theorem mem_unacked_withoutAcked : g ∈ (withoutAcked l s).junction.unacked ↔ g ∈ s.junction.unacked ∧ g ∉ l := by
  simp [withoutAcked]

theorem takePageAck_of_unacked (hrole : s.junction.role ≠ .manager) (hsome : s.junction.unacked ≠ []) :
    takePageAck l s = reportDone (withoutAcked l s) := by
  rw [takePageAck, if_neg hrole, if_neg (by rwa [List.isEmpty_iff]), withoutAcked]

/-- The last acknowledgement of a worker told to switch over is reported (R341). -/
theorem reportDone_sent (hrole : s.junction.role = .worker) (hstate : s.junction.evacState = 3) (hnone : s.junction.unacked = []) :
    Sent (messageTo s.junction.managerId 0x08 s.junction.managerEpoch 0 [5, s.moduleId, s.junction.evacPeer]) s (reportDone s) := by
  rw [reportDone, if_pos ⟨hrole, hstate, List.isEmpty_iff.mpr hnone⟩]
  exact Laws.sendMsg_sent _ s

theorem reportDone_of_not (h : ¬(s.junction.role = .worker ∧ s.junction.evacState = 3 ∧ s.junction.unacked = [])) : reportDone s = s :=
  if_neg (by rwa [List.isEmpty_iff])

/-! ## PAGE_DATA -/

/-- After traffic a listed pool is replaced by what a function makes of it. -/
theorem modPool_of_arrived {y : State} (harrived : TrafficOnly s y) (hpool : fmFind s.pools k = some p) (f : Pool → Pool) :
    ∃ w c, modPool k f y = { s with pools := fmSet s.pools k (f p), buckets := w, ckus := c } := by
  obtain ⟨w, c, rfl⟩ := harrived
  exact ⟨w, c, by simp only [modPool, hpool]⟩

theorem TrafficOnly.slotForContent (h : TrafficOnly s x) (n : Nat) : slotForContent x n = slotForContent s n := by
  obtain ⟨w, c, rfl⟩ := h
  rfl

/-- Laying out content changes the device-held frames alone. -/
theorem putContent_frame (k f : Nat) (p : Pool) (bs : List Byte) (s : State) : ∃ m, putContent k f p bs s = { s with bank := m } := by
  unfold putContent
  generalize (slotOrder p).mapIdx _ = places
  induction places generalizing s with
  | nil => exact ⟨_, rfl⟩
  | cons c places ih =>
    obtain ⟨m, hm⟩ := ih { s with bank := memWrite s.bank (slotAddress s k p f c.2.1 c.2.2) ((bs.drop (c.1 * slotBytes p)).take (slotBytes p)) }
    exact ⟨m, hm⟩

/-- A group of one layer and one head is laid into one place. -/
theorem bank_putContent_of_one (hlayers : p.layers = 1) (hheads : p.heads = 1) (hbs : bs.length = slotBytes p) (f : Nat) (s : State) :
    (putContent k f p bs s).bank = memWrite s.bank (slotAddress s k p f 0 0) bs := by
  have horder : slotOrder p = [(0, 0)] := by
    simp [slotOrder, hlayers, hheads]
  simp [putContent, forEach, horder, ← hbs]

/-- The lack of a frame set is counted in the slot's pool. -/
theorem lackSet_of_found {y : State} (harrived : TrafficOnly s y) (hpool : fmFind s.pools k = some p) :
    lackSet k 1 y = { s with pools := (lackSet k 1 y).pools, buckets := (lackSet k 1 y).buckets, ckus := (lackSet k 1 y).ckus } ∧
      fmFind (lackSet k 1 y).pools k = some { p with lacked := p.lacked + 1 } := by
  obtain ⟨w, c, hlacking⟩ := modPool_of_arrived harrived hpool fun p => { p with lacked := p.lacked + 1 }
  rw [lackSet, hlacking]
  exact ⟨rfl, Laws.fmFind_fmSet_self _ _ _⟩

/-- The state in which a group's content lies in the first free frame set of its slot's pool. -/
structure Laid (k e : Nat) (p : Pool) (r : List Nat) (bs : List Byte) (s x : State) : Prop where
  frame : x = { s with pools := x.pools, buckets := x.buckets, ckus := x.ckus, bank := x.bank }
  pool : fmFind x.pools k = some { p with freeSets := r }
  bank : p.layers = 1 → p.heads = 1 → bs.length = slotBytes p → x.bank = memWrite s.bank (slotAddress s k p e 0 0) bs

theorem putContent_modPool_laid {y : State} (e : Nat) (harrived : TrafficOnly s y) (hpool : fmFind s.pools k = some p) :
    Laid k e p r bs s (putContent k e p bs (modPool k (fun p => { p with freeSets := r }) y)) := by
  obtain ⟨w, c, htaken⟩ := modPool_of_arrived harrived hpool fun p => { p with freeSets := r }
  obtain ⟨m, hm⟩ := putContent_frame k e p bs { s with pools := fmSet s.pools k { p with freeSets := r }, buckets := w, ckus := c }
  have hbank (hlayers : p.layers = 1) (hheads : p.heads = 1) (hbs : bs.length = slotBytes p) :=
    bank_putContent_of_one (k := k) hlayers hheads hbs e { s with pools := fmSet s.pools k { p with freeSets := r }, buckets := w, ckus := c }
  rw [htaken]
  rw [hm] at hbank ⊢
  exact ⟨rfl, Laws.fmFind_fmSet_self _ _ _, hbank⟩

/-- A group that is placed (R339): the frame set, the group that fills it and the note of it. -/
def placed (h : MsgHead) (g fill k e : Nat) (s : State) : State :=
  { s with
    groups := fmSet s.groups g { freeGroup with refs := 1, residence := .t0, sealed := decide (fill = 256), slot := k, frameSet := e, fill := fill, owner := h.tenant },
    junction := { s.junction with sentGroups := if s.junction.sentGroups.contains g then s.junction.sentGroups else s.junction.sentGroups ++ [g] } }

theorem mem_sentGroups_placed : g ∈ (placed h g fill k e s).junction.sentGroups := by
  dsimp only [placed]
  split
  · exact List.contains_iff_mem.mp ‹_›
  · exact List.mem_append_right _ (List.mem_singleton_self g)

theorem group_placed_self : (placed h g fill k e s).group g =
    { freeGroup with refs := 1, residence := .t0, sealed := decide (fill = 256), slot := k, frameSet := e, fill := fill, owner := h.tenant } :=
  Laws.fmGet_fmSet_self _ _ _ _

theorem group_placed_other {i : Nat} (hi : i ≠ g) : (placed h g fill k e s).group i = s.group i :=
  Laws.fmGet_fmSet_other _ _ _ hi

/-- Placing a group that has been laid changes the group map and the junction besides. -/
theorem Laid.placed_frame (hlaid : Laid k e p r bs s x) : placed h g fill k e x = { s with
    pools := x.pools, buckets := x.buckets, ckus := x.ckus, bank := x.bank,
    groups := (placed h g fill k e x).groups, junction := (placed h g fill k e x).junction } := by
  have hplaced : placed h g fill k e x = { x with
    groups := (placed h g fill k e x).groups, junction := (placed h g fill k e x).junction } := rfl
  generalize placed h g fill k e x = y at hplaced ⊢
  rw [hlaid.frame] at hplaced
  exact hplaced

theorem Laid.group (hlaid : Laid k e p r bs s x) (n : Nat) : x.group n = s.group n := by
  rw [hlaid.frame]
  rfl

theorem Laid.junction (hlaid : Laid k e p r bs s x) : x.junction = s.junction := by
  rw [hlaid.frame]

theorem Laid.placed_junction (hlaid : Laid k e p r bs s x) : (placed h g fill k e x).junction =
    { s.junction with sentGroups := (placed h g fill k e x).junction.sentGroups } := by
  rw [← hlaid.junction]
  rfl

/-- A group whose size names a slot passes its weir; it is then placed in the first free frame set, and with none the lack is
noted (R339). -/
theorem takePage_of_slot (hslot : slotForContent s bs.length = some k) (hpool : fmFind s.pools k = some p) (haway : (s.group g).residence ≠ .t0) :
    ∃ y, TrafficOnly s y ∧ (p.freeSets = [] → takePage h g fill bs s = lackSet k 1 y) ∧
      ∀ e r, p.freeSets = e :: r → takePage h g fill bs s =
        sendMsg (responseTo h 0x42 stOk [g] []) (placed h g fill k e (putContent k e p bs (modPool k (fun p => { p with freeSets := r }) y))) := by
  generalize htaken : takePage h g fill bs s = x
  unfold takePage at htaken
  extract_lets +onlyGivenNames v y at htaken
  have harrived : TrafficOnly s y := passWeir_routed_trafficOnly
  have hslot' := (harrived.slotForContent bs.length).trans hslot
  have hpool' : fmFind y.pools k = some p := harrived.pools ▸ hpool
  have haway' : (y.group g).residence ≠ .t0 := harrived.group g ▸ haway
  refine ⟨y, harrived, fun hnone => ?_, fun e r hfree => ?_⟩
  · simp only [← htaken, hslot', hpool', haway', hnone, false_and, if_false]
  · simp only [← htaken, hslot', hpool', haway', hfree, false_and, if_false]
    rfl

/-! ## The module serves -/

theorem exec_pageData_of_idle (hwf : h.wf = true) (hserving : s.serving = true)
    (hidle : ¬(s.junction.role = .spare ∧ (s.junction.evacState = 2 ∨ s.junction.evacState = 3))) : exec (.pageData h g fill bs) s = .next s := by
  rw [Laws.exec_pageData hwf, Laws.whenServing_yes s hserving, if_neg hidle]

theorem exec_pageData_of_spare (hwf : h.wf = true) (hserving : s.serving = true) (hrole : s.junction.role = .spare)
    (hstate : s.junction.evacState = 2 ∨ s.junction.evacState = 3) : exec (.pageData h g fill bs) s = .next (takePage h g fill bs s) := by
  rw [Laws.exec_pageData hwf, Laws.whenServing_yes s hserving, if_pos ⟨hrole, hstate⟩]

theorem exec_pageAck_of_serving (hwf : h.wf = true) (hserving : s.serving = true) : exec (.pageAck h l) s = .next (takePageAck l s) := by
  rw [Laws.exec_pageAck hwf, Laws.whenServing_yes s hserving]

theorem exec_bulkData_of_serving (hwf : h.wf = true) (hserving : s.serving = true) (hb : b < 2097152) :
    exec (.bulkData h b o bs) s = .next (takeBulk h b o bs s) := by
  have hform : (Instr.bulkData h b o bs).wf = true := by simp [Instr.wf, hwf, blockOk, hb]
  rw [Laws.exec_bulkData hform, Laws.whenServing_yes s hserving]

theorem exec_evacuationWipe_of_serving (hserving : s.serving = true) : exec .evacuationWipe s = .next (wipeEvacuated s) := by
  rw [Laws.exec_evacuationWipe rfl, Laws.whenServing_yes s hserving]

/-- Settles O54, message by message, and then by the role and the phase of the evacuation. -/
theorem pagesAndBulkDataArrive : Obligations.PagesAndBulkDataArrive := by
  intro h s hwf hserving
  refine ⟨fun g f bs => exec_pageData_of_idle hwf hserving, fun g f bs k p hrole hstate hslot hpool haway => ?_, fun l hrole => ?_, fun l hrole => ?_,
    fun b o bs hb => ?_, fun hstate => ?_, fun hstate => ?_⟩
  · rw [exec_pageData_of_spare hwf hserving hrole hstate]
    obtain ⟨y, harrived, hlacking, hplaced⟩ := takePage_of_slot (h := h) (fill := f) hslot hpool haway
    refine ⟨fun hnone => ?_, fun e r hfree => ?_⟩
    · rw [hlacking hnone]
      exact ⟨_, rfl, lackSet_of_found harrived hpool⟩
    · rw [hplaced e r hfree]
      have hlaid := putContent_modPool_laid (r := r) (bs := bs) e harrived hpool
      generalize putContent k e p bs _ = x at hlaid ⊢
      refine ⟨_, _, rfl, Laws.sendMsg_sent _ _, hlaid.placed_frame, hlaid.pool, group_placed_self,
        fun i hi => (group_placed_other hi).trans (hlaid.group i), mem_sentGroups_placed, hlaid.placed_junction,
        fun hlayers hheads hbs hbank c => ?_⟩
      exact (congrArg (memByte · c) (hlaid.bank hlayers hheads hbs)).trans (Laws.memByte_write bs _ c hbank)
  · rw [exec_pageAck_of_serving hwf hserving, takePageAck_of_manager hrole]
    exact ⟨_, rfl, fun g => mem_dedup_iff.trans List.mem_append, rfl⟩
  · rw [exec_pageAck_of_serving hwf hserving]
    refine ⟨fun hnone => by rw [takePageAck_of_none_unacked hrole hnone], fun hsome => ?_⟩
    rw [takePageAck_of_unacked hrole hsome]
    exact ⟨_, withoutAcked l s, rfl, fun g => mem_unacked_withoutAcked, rfl,
      reportDone_sent (s := withoutAcked l s), reportDone_of_not (s := withoutAcked l s)⟩
  · rw [exec_bulkData_of_serving hwf hserving hb]
    refine ⟨fun hepoch => by rw [takeBulk_of_stale hepoch], fun hepoch => ?_⟩
    obtain ⟨_, ⟨w, c, rfl⟩, hbulk⟩ := takeBulk_of_current (b := b) (o := o) (bs := bs) hepoch
    by_cases hdropped : (s.block b).state = .unmapped ∨ blockBytes < o + bs.length
    · rw [hbulk, if_pos hdropped]
      refine ⟨_, rfl, rfl, fun _ => rfl, fun hmapped hfits => ?_⟩
      exact absurd hdropped (not_or.mpr ⟨hmapped, Nat.not_lt.mpr hfits⟩)
    · rw [hbulk, if_neg hdropped]
      exact ⟨_, rfl, rfl, fun hdrop => absurd hdrop hdropped, fun _ _ hmem c => Laws.memByte_write bs _ c hmem⟩
  · rw [exec_evacuationWipe_of_serving hserving, wipeEvacuated, if_neg hstate]
  · rw [exec_evacuationWipe_of_serving hserving, wipeEvacuated, if_pos hstate]
    exact ⟨_, rfl, rfl, rfl, rfl, rfl, rfl, rfl, rfl, rfl, rfl, rfl, rfl, rfl, rfl, rfl, rfl⟩

end Sys2Proof.Machine
end

section
/-! PROOFS. The manager of a group step (R304, R328, R332, R333, R335): what a READY does at the manager, and what starts, abandons
or fails it. -/

namespace Sys2Proof.Machine

variable {h : MsgHead} {b r : ReadyBody} {m : Member} {y : Step} {l : List Nat} {p t : Nat} {s : State}

/-! ## The member table -/

theorem fmFind_fmMap {α : Type} (c : FMap α) (f : Nat → α → α) (n : Nat) : fmFind (fmMap c f) n = (fmFind c n).map (f n) := by
  induction c with
  | nil => rfl
  | cons e c ih =>
    obtain ⟨k, v⟩ := e
    by_cases hk : k = n
    · subst hk
      simp [fmMap, fmFind]
    · simpa [fmMap, fmFind, hk] using ih

@[simp] theorem memberAt_setMember_self (p : Nat) (m : Member) (s : State) : memberAt (setMember p m s) p = some m :=
  Laws.fmFind_fmSet_self _ _ _

/-- A message that is sent leaves the junction as it was but for the flits it may discard (R321). -/
theorem sendMsg_junction (m : SentMsg) (s : State) :
    (sendMsg m s).junction = { s.junction with routeDiscarded := (sendMsg m s).junction.routeDiscarded } := by
  have hsent := Laws.sendMsg_sent m s
  by_cases hleaves : m.destination = s.moduleId ∨ (routePort s s.moduleId m.destination).isSome = true
  · rw [hsent.1 hleaves]
  · obtain ⟨hother, hroute⟩ := not_or.mp hleaves
    rw [hsent.2 hother (by simpa using hroute)]

theorem tell_eq_sendMsg (dest kind epoch step : Nat) (values : List Nat) (s : State) :
    tell dest kind epoch step values s = sendMsg (messageTo dest kind epoch step values) s := rfl

/-! ## A planned step of a group of two -/

/-- The step being prepared is planned for the manager and the member at position 1, and its start is not yet named. -/
structure PlannedPair (y : Step) (s : State) : Prop where
  step : s.step = some y
  notStarted : y.started = false
  plan : s.junction.plan.isSome = true
  unnamed : s.junction.startAt = none
  group : groupStep s y.slot = true
  span : modelSpan s y.slot = 2

/-- Such a step waits for position 1 alone, once a READY of it is known. -/
theorem PlannedPair.planPositions (hpair : PlannedPair y s) (hready : readyOf s 1 = some r) : planPositions s = [1] := by
  obtain ⟨plan, hplan⟩ := Option.isSome_iff_exists.mp hpair.plan
  have hrange : (List.range 2).filter (· != 0) = [1] := by decide
  simp [Machine.planPositions, hplan, hpair.step, planMembers, hpair.group, hpair.span, hrange, hready]

/-! ## START (R304) -/

/-- The start time that follows from the READY of the member of a pair, in 2^-16 ns. -/
def startTime (r : ReadyBody) (s : State) : Nat :=
  max (s.stamp + aclkTicks s 4096) r.readyTime + aclkTicks s (450 * groupHops s + 64)

theorem maxOf_pair (i j : Nat) : maxOf [i, j] = max i j := by
  simp [maxOf]

/-- The start of a pair is named, and no abort is on its member's account any more. -/
def startNamed (t : Nat) (s : State) : State :=
  { s with junction := { s.junction with startAt := some t, members := fmMap s.junction.members fun p m => if [1].contains p then { m with aborts := 0 } else m } }

theorem memberAt_startNamed (hmember : memberAt s 1 = some m) : memberAt (startNamed t s) 1 = some { m with aborts := 0 } := by
  rw [memberAt] at hmember
  simp [memberAt, startNamed, fmFind_fmMap, hmember]

theorem tryStart_of_no_step (hnone : s.step = none) : tryStart s = s := by
  rw [tryStart, hnone]

/-- With the READY of its member in, a pair that is not paused is told to start. -/
theorem tryStart_of_pair (hpair : PlannedPair y s) (hready : readyOf s 1 = some r) (hin : 1 ∈ s.junction.readyFor)
    (hrunning : s.junction.paused = false) (hmember : memberAt s 1 = some m) :
    tryStart s = tell m.id 0x11 m.epoch y.counter [startTime r s] (startNamed (startTime r s) s) := by
  have hnamed : memberAt (startNamed (startTime r s) s) 1 = some { m with aborts := 0 } := memberAt_startNamed hmember
  unfold tryStart
  split
  case h_1 x hstep =>
    obtain rfl : y = x := Option.some.inj (hpair.step.symm.trans hstep)
    dsimp only
    rw [hpair.planPositions hready, if_neg (by simp [hpair.notStarted, hpair.unnamed, hrunning, hin])]
    simp only [List.filterMap_cons, List.filterMap_nil, hready, Option.map_some, maxOf_pair, forEach, List.foldl]
    rw [← startTime, ← startNamed, hnamed]
  case h_2 hstep => exact absurd hpair.step (by simp [hstep])

/-! ## READY at the manager (R328, R333, R335) -/

/-- The READY of a member is kept in place of its earlier one, and the positions named are those whose READY is in. -/
def readyKept (b : ReadyBody) (m : Member) (l : List Nat) (s : State) : State :=
  { s with junction := { s.junction with
    members := fmSet s.junction.members b.position { m with joined := true },
    readies := b :: s.junction.readies.filter fun r => r.position != b.position,
    readyFor := l } }

theorem memberAt_readyKept (hposition : b.position = p) : memberAt (readyKept b m l s) p = some { m with joined := true } := by
  subst hposition
  exact Laws.fmFind_fmSet_self _ _ _

theorem readyOf_readyKept (hposition : b.position = p) : readyOf (readyKept b m l s) p = some b := by
  simp [readyOf, readyKept, hposition]

theorem PlannedPair.readyKept (hpair : PlannedPair y s) : PlannedPair y (readyKept b m l s) :=
  ⟨hpair.step, hpair.notStarted, hpair.plan, hpair.unnamed, hpair.group, hpair.span⟩

/-- Only a manager with a member at the position has a use for what comes from there. -/
theorem managerMember_eq_none (hunknown : s.junction.role ≠ .manager ∨ memberAt s p = none) :
    (if s.junction.role = .manager then memberAt s p else none) = none := by
  rcases hunknown with hrole | hnone
  · exact if_neg hrole
  · rw [hnone, ite_self]

theorem takeReady_of_unknown (hunknown : s.junction.role ≠ .manager ∨ memberAt s b.position = none) : takeReady h b s = s := by
  rw [takeReady, managerMember_eq_none hunknown]

section Manager

variable (hrole : s.junction.role = .manager) (hmember : memberAt s b.position = some m)
include hrole hmember

theorem takeReady_of_mismatch (hmismatch : m.id ≠ h.source ∨ m.epoch ≠ h.epoch) : takeReady h b s = s := by
  simp [takeReady, hrole, hmember, hmismatch]

/-- A READY of a member at its epoch is kept, and counts for the planned step whose counter it names. -/
theorem takeReady_of_member (hid : m.id = h.source) (hepoch : m.epoch = h.epoch) :
    ∃ l, takeReady h b s = tryStart (readyKept b m l s) ∧ (s.step = none → l = s.junction.readyFor) ∧
      (∀ y, s.step = some y → y.counter = h.step → s.junction.plan.isSome = true → b.position ∈ l) := by
  rw [takeReady, if_pos hrole, hmember]
  dsimp only
  rw [if_neg (by simp [hid, hepoch])]
  refine ⟨_, rfl, fun hnone => ?_, fun y hstep hcounter hplan => ?_⟩
  · simp [setMember, hnone]
  · by_cases hin : b.position ∈ s.junction.readyFor <;> simp [setMember, hstep, hcounter, hplan, hin]

end Manager

/-- The last READY of a pair brings START. -/
theorem takeReady_starts_pair (hrole : s.junction.role = .manager) (hmember : memberAt s b.position = some m) (hid : m.id = h.source)
    (hepoch : m.epoch = h.epoch) (hpair : PlannedPair y s) (hposition : b.position = 1) (hcounter : y.counter = h.step)
    (hrunning : s.junction.paused = false) :
    ∃ l, takeReady h b s = tell m.id 0x11 m.epoch y.counter [startTime b s] (startNamed (startTime b s) (readyKept b m l s)) := by
  obtain ⟨l, htaken, -, hin⟩ := takeReady_of_member hrole hmember hid hepoch
  refine ⟨l, htaken.trans ?_⟩
  have hcounted := hin y hpair.step hcounter hpair.plan
  exact tryStart_of_pair (m := { m with joined := true }) hpair.readyKept (readyOf_readyKept hposition) (hposition ▸ hcounted) hrunning
    (memberAt_readyKept hposition)

/-! ## READY missing (R332) -/

/-- A pair is abandoned: nothing of its step or its plan is left. -/
def pairAbandoned (s : State) : State :=
  { s with step := none, junction := { s.junction with
    plan := none, readyFor := [], members := fmMap s.junction.members fun p m => if [1].contains p then m else { m with aborts := 0 } } }

theorem memberAt_pairAbandoned : memberAt (pairAbandoned s) 1 = memberAt s 1 := by
  simp [memberAt, pairAbandoned, fmFind_fmMap]

/-- One abort more of the manager's own (R332). -/
def abortCounted (s : State) : State := { s with junction := { s.junction with aborts := (s.junction.aborts + 1) % 2 ^ 32 } }

theorem abandonStep_of_no_step (hnone : s.step = none) : abandonStep l s = s := by
  rw [abandonStep, hnone]

/-- With the READY of its member missing, a pair is told to abort and is abandoned on its member's account. -/
theorem abandonStep_of_pair (hpair : PlannedPair y s) (hready : readyOf s 1 = some r) (hmissing : 1 ∈ l) (hmember : memberAt s 1 = some m) :
    abandonStep l s = countAbort 1 (pairAbandoned (tell m.id 0x12 m.epoch y.counter [] (abortCounted s))) := by
  simp [abandonStep, hpair.step, hpair.planPositions hready, hpair.notStarted, hpair.unnamed, hmissing, hmember, forEach, pairAbandoned,
    abortCounted]

theorem mem_lost_declareFailed : p ∈ (declareFailed p s).junction.lost := by
  by_cases hlost : p ∈ s.junction.lost <;> simp [declareFailed, hlost]

theorem declareFailed_of_not_lost (hlost : p ∉ s.junction.lost) :
    declareFailed p s = { s with junction := { s.junction with lost := s.junction.lost ++ [p] } } := by
  simp [declareFailed, hlost]

theorem declareFailed_frame (p : Nat) (s : State) :
    declareFailed p s = { s with junction := { s.junction with lost := (declareFailed p s).junction.lost } } := by
  by_cases hlost : p ∈ s.junction.lost <;> simp [declareFailed, hlost]

theorem countAbort_of_member (hmember : memberAt s p = some m) : countAbort p s =
    if 3 ≤ m.aborts + 1 then declareFailed p (setMember p { m with aborts := m.aborts + 1 } s)
    else setMember p { m with aborts := m.aborts + 1 } s := by
  rw [countAbort, hmember]

/-- The third abort in a row fails the member; one before it is only counted. -/
theorem countAbort_spec (hmember : memberAt s p = some m) :
    countAbort p s = { s with junction := { s.junction with members := (countAbort p s).junction.members, lost := (countAbort p s).junction.lost } } ∧
      memberAt (countAbort p s) p = some { m with aborts := m.aborts + 1 } ∧
      (m.aborts < 2 → (countAbort p s).junction.lost = s.junction.lost) ∧ (2 ≤ m.aborts → p ∈ (countAbort p s).junction.lost) := by
  rw [countAbort_of_member hmember]
  by_cases hthird : 3 ≤ m.aborts + 1
  · rw [if_pos hthird]
    refine ⟨?_, ?_, fun hfew => by omega, fun _ => mem_lost_declareFailed⟩
    · rw [declareFailed_frame]
      rfl
    · rw [declareFailed_frame]
      exact memberAt_setMember_self p _ s
  · rw [if_neg hthird]
    exact ⟨rfl, memberAt_setMember_self p _ s, fun _ => rfl, fun hmany => by omega⟩

/-- With its READY missing, the member is sent ABORT, and the abandoned step counts on its account. -/
theorem abandonStep_abandons_pair (hpair : PlannedPair y s) (hready : readyOf s 1 ≠ none) (hmissing : 1 ∈ l) (hmember : memberAt s 1 = some m) :
    ∃ w, Sent (messageTo m.id 0x12 m.epoch y.counter []) (abortCounted s) w ∧
      abandonStep l s = { w with step := none, junction := { w.junction with
        plan := none, readyFor := [], members := (abandonStep l s).junction.members, lost := (abandonStep l s).junction.lost } } ∧
      memberAt (abandonStep l s) 1 = some { m with aborts := m.aborts + 1 } ∧
      (m.aborts < 2 → (abandonStep l s).junction.lost = s.junction.lost) ∧ (2 ≤ m.aborts → 1 ∈ (abandonStep l s).junction.lost) := by
  obtain ⟨r, hreported⟩ := Option.ne_none_iff_exists'.mp hready
  have htold := sendMsg_junction (messageTo m.id 0x12 m.epoch y.counter []) (abortCounted s)
  have hsent := Laws.sendMsg_sent (messageTo m.id 0x12 m.epoch y.counter []) (abortCounted s)
  rw [abandonStep_of_pair hpair hreported hmissing hmember, tell_eq_sendMsg]
  generalize sendMsg _ _ = w at htold hsent ⊢
  have hleft : memberAt (pairAbandoned w) 1 = some m := by
    rw [memberAt_pairAbandoned, memberAt, htold]
    exact hmember
  obtain ⟨hframe, hcounted, hfew, hmany⟩ := countAbort_spec hleft
  exact ⟨w, hsent, hframe, hcounted, fun hlow => (hfew hlow).trans (congrArg Junction.lost htold :), hmany⟩

/-! ## The commands -/

section Serving

variable (hserving : s.serving = true)
include hserving

theorem exec_ready_of_serving (hwf : h.wf = true) : exec (.ready h b) s = .next (takeReady h b s) := by
  rw [Laws.exec_ready hwf, Laws.whenServing_yes s hserving]

theorem exec_readyTimeout_of_serving : exec (.readyTimeout l) s = .next (abandonStep l s) := by
  rw [Laws.exec_readyTimeout rfl, Laws.whenServing_yes s hserving]

theorem exec_joinTimeout_of_unknown (hp : p < 64) (hunknown : s.junction.role ≠ .manager ∨ memberAt s p = none) :
    exec (.joinTimeout p) s = .next s := by
  rw [Laws.exec_joinTimeout (decide_eq_true hp), Laws.whenServing_yes s hserving, managerMember_eq_none hunknown]

/-- A member that has not joined within its second is declared failed (R333). -/
theorem exec_joinTimeout_of_member (hp : p < 64) (hrole : s.junction.role = .manager) (hmember : memberAt s p = some m) :
    exec (.joinTimeout p) s = .next (if m.joined then s else declareFailed p s) := by
  rw [Laws.exec_joinTimeout (decide_eq_true hp), Laws.whenServing_yes s hserving, if_pos hrole, hmember]

end Serving

/-- Settles O52, message by message: a position with no member, the READY of a member, its absence, and a join that times out. -/
theorem managerStartsOrAbandonsTheStep : Obligations.ManagerStartsOrAbandonsTheStep := by
  intro h b s hwf hserving hb
  dsimp only
  rw [exec_ready_of_serving hserving hwf]
  refine ⟨fun hunknown => ⟨by rw [takeReady_of_unknown hunknown], exec_joinTimeout_of_unknown hserving hb hunknown⟩,
    fun m ⟨hrole, hmember⟩ => ⟨fun hmismatch => by rw [takeReady_of_mismatch hrole hmember hmismatch],
      fun hid hepoch => ⟨fun hnone => ?_, ?_⟩, ?_, fun hjoined => ?_, fun hjoined hlost => ?_⟩, fun l hnone => ?_⟩
  · obtain ⟨l, htaken, hreadyFor, -⟩ := takeReady_of_member hrole hmember hid hepoch
    rw [htaken, hreadyFor hnone, tryStart_of_no_step (s := readyKept b m _ s) hnone, readyKept]
  · rintro y ⟨hstep, hstarted, hplan, hstart, hgroup, hspan, hposition⟩ hcounter hrunning
    obtain ⟨l, htaken⟩ := takeReady_starts_pair hrole hmember hid hepoch ⟨hstep, hstarted, hplan, hstart, hgroup, hspan⟩ hposition hcounter hrunning
    exact ⟨_, startNamed (startTime b s) (readyKept b m l s), startTime b s, congrArg _ htaken, rfl, rfl,
      memberAt_startNamed (memberAt_readyKept hposition), rfl, Laws.sendMsg_sent _ _⟩
  · rintro y l ⟨hstep, hstarted, hplan, hstart, hgroup, hspan, hposition⟩ hready hmissing
    rw [hposition] at hmember
    obtain ⟨w, hsent, hframe, hcounted, hfew, hmany⟩ :=
      abandonStep_abandons_pair ⟨hstep, hstarted, hplan, hstart, hgroup, hspan⟩ hready hmissing hmember
    exact ⟨_, w, exec_readyTimeout_of_serving hserving, hsent, hframe, hcounted, hfew, hmany⟩
  · rw [exec_joinTimeout_of_member hserving hb hrole hmember, if_pos hjoined]
  · rw [exec_joinTimeout_of_member hserving hb hrole hmember, if_neg (by simp [hjoined]), declareFailed_of_not_lost hlost]
  · rw [exec_readyTimeout_of_serving hserving, abandonStep_of_no_step hnone]

end Sys2Proof.Machine
end

section
/-! PROOFS. The attention button (R338, R341, R408): which closures are a press, and what a press does by the module's role. -/

namespace Sys2Proof.Machine

variable {ms : Nat} {s : State}

/-- A module with power takes note of its button. -/
theorem exec_attentionPress_of_on (hon : s.power.on = true) : exec (.attentionPress ms) s = .next (closeButton ms s) := by
  rw [Laws.exec_attentionPress rfl, Laws.whenOn_on s hon]

/-! ## Which closures are a press (R408) -/

theorem closeButton_of_short (hshort : ms < 100) : closeButton ms s = s :=
  if_pos hshort

theorem closeButton_of_ignored (hlong : 100 ≤ ms) (hignored : 3000 < ms ∨ s.boot.phase = .bootFail ∨ s.faults.fatal = true) :
    closeButton ms s = { s with boot := { s.boot with pressesIgnored := s.boot.pressesIgnored + 1 } } := by
  rw [closeButton, if_neg (Nat.not_lt.mpr hlong), if_pos hignored]

theorem closeButton_of_press (hlong : 100 ≤ ms) (hms : ms ≤ 3000) (hphase : s.boot.phase ≠ .bootFail) (hfatal : s.faults.fatal = false) :
    closeButton ms s = press s := by
  rw [closeButton, if_neg (Nat.not_lt.mpr hlong), if_neg]
  simp [Nat.not_lt.mpr hms, hphase, hfatal]

/-! ## A press by the role (R338, R341) -/

/-- A module that is no member of a group passes the press on. -/
theorem press_of_nonmember (hrole : s.junction.role = .standalone ∨ s.junction.role = .manager) :
    press s = { s with boot := { s.boot with attnPulses := s.boot.attnPulses + 1 } } := by
  rcases hrole with hrole | hrole
  · rw [press, hrole]
  · rw [press, hrole]

theorem press_of_worker (hrole : s.junction.role = .worker) : press s = pressWorker s := by
  rw [press, hrole]

theorem press_of_spare (hrole : s.junction.role = .spare) : press s = pressSpare s := by
  rw [press, hrole]

/-- The message of an evacuation names its phase, the worker and the spare (Table 12-5, log 23). -/
theorem evacMessage_sent (dest phase worker spare epoch : Nat) (s : State) :
    Sent (messageTo dest 0x08 epoch 0 [phase, worker, spare]) s (evacMessage dest phase worker spare epoch s) :=
  Laws.sendMsg_sent _ s

/-- A press on a worker that is not leaving asks its manager for an evacuation. -/
theorem pressWorker_requests (hidle : s.junction.evacState = 0) :
    Sent (messageTo s.junction.managerId 0x08 s.junction.managerEpoch 0 [1, s.moduleId, 0])
      { s with junction := { s.junction with evacState := 1 } } (pressWorker s) := by
  rw [pressWorker, if_pos hidle]
  exact evacMessage_sent _ _ _ _ _ _

/-- A press on a worker that is leaving calls its evacuation off. -/
theorem pressWorker_cancels (hbusy : s.junction.evacState ≠ 0) :
    Sent (messageTo s.junction.managerId 0x08 s.junction.managerEpoch 0 [0, s.moduleId, 0]) (endEvac s) (pressWorker s) := by
  rw [pressWorker, if_neg hbusy]
  exact evacMessage_sent _ _ _ _ _ _

/-- Settles O33, by the length of the closure and the state that ignores it, and then by the role. -/
theorem attentionButtonActsByTheRole : Obligations.AttentionButtonActsByTheRole := by
  intro ms s hon j
  rw [exec_attentionPress_of_on hon]
  refine ⟨fun hshort => by rw [closeButton_of_short hshort], fun hlong hignored => by rw [closeButton_of_ignored hlong hignored],
    fun hlong hms hphase hfatal => ?_⟩
  rw [closeButton_of_press hlong hms hphase hfatal]
  refine ⟨fun hrole => by rw [press_of_nonmember hrole], fun hrole hidle => ?_, fun hrole hbusy => ?_, fun hrole => ?_⟩
  · rw [press_of_worker hrole]
    exact ⟨_, rfl, pressWorker_requests hidle⟩
  · rw [press_of_worker hrole]
    exact ⟨_, rfl, pressWorker_cancels hbusy⟩
  · rw [press_of_spare hrole]
    exact ⟨_, _, rfl, rfl, rfl, rfl, rfl⟩

end Sys2Proof.Machine
end

section
/-! PROOFS. The state of a Nuxus port (chapter 12): what becomes of one port, what the fault of a port adds, and how a port is lost. -/

namespace Sys2Proof.Machine

variable {p q : Nat} {a b : Port} {s x y : State}

/-! ## One port -/

/-- A port that is replaced by what a function makes of it, and nothing else. -/
theorem modPort_portBecomes (p : Nat) (f : Port → Port) (s : State) : PortBecomes p (f (s.port p)) s (modPort p f s) :=
  ⟨Laws.port_modPort_self s p f, fun _ hq => Laws.port_modPort_other s f hq, fun _ _ _ _ => rfl, rfl⟩

theorem PortBecomes.trans (h : PortBecomes p a s y) (k : PortBecomes p b y x) : PortBecomes p b s x := by
  obtain ⟨-, hother, hreg, hframe⟩ := h
  obtain ⟨hself, hother', hreg', hframe'⟩ := k
  refine ⟨hself, fun q hq => (hother' q hq).trans (hother q hq), fun o l d hkey => (hreg' o l d hkey).trans (hreg o l d hkey), ?_⟩
  exact hframe'.trans (congrArg (fun z : State => { z with ports := x.ports, regs := x.regs }) hframe)

/-! ## What the handling of a fault changes (chapter 14) -/

theorem FaultOnly.refl (s : State) : FaultOnly s s := rfl

theorem FaultOnly.trans (h : FaultOnly s y) (k : FaultOnly y x) : FaultOnly s x :=
  Eq.trans k (congrArg (fun z : State => { z with
    faults := x.faults, health := x.health, channels := x.channels, power := x.power, tenants := x.tenants, out := x.out,
    step := x.step, round := x.round }) h)

theorem FaultOnly.port (h : FaultOnly s x) (q : Nat) : x.port q = s.port q :=
  (congrArg (State.port · q) h :)

theorem InterruptsOnly.faultOnly (h : InterruptsOnly s x) : FaultOnly s x := by
  rw [InterruptsOnly] at h
  rw [h]
  rfl

/-- Only the record of faults differs: their log, the domains and the units named for retirement. -/
def RecordOnly (s x : State) : Prop := ∃ f, x = { s with faults := f }

theorem RecordOnly.refl (s : State) : RecordOnly s s := ⟨_, rfl⟩

theorem RecordOnly.trans (h : RecordOnly s y) (k : RecordOnly y x) : RecordOnly s x := by
  obtain ⟨f, rfl⟩ := h
  obtain ⟨g, rfl⟩ := k
  exact ⟨g, rfl⟩

theorem RecordOnly.faultOnly (h : RecordOnly s x) : FaultOnly s x := by
  obtain ⟨f, rfl⟩ := h
  rfl

theorem writeLog_recordOnly (e : FaultEntry) (s : State) : RecordOnly s (writeLog e s) := by
  unfold writeLog
  dsimp only
  split
  · exact ⟨_, rfl⟩
  · exact ⟨_, rfl⟩

theorem setDomain_recordOnly (d : DomainState) (s : State) : RecordOnly s (setDomain d s) := ⟨_, rfl⟩

theorem dropDomain_recordOnly (d : DomainId) (s : State) : RecordOnly s (dropDomain d s) := ⟨_, rfl⟩

theorem noteFault_recordOnly (d : DomainId) (unit : Nat) (s : State) : RecordOnly s (noteFault d unit s) := by
  unfold noteFault
  dsimp only
  split
  · exact ⟨_, rfl⟩
  · exact ⟨_, rfl⟩

/-- A fault of a port is recorded; a port has no resource that its domain could take off line (Table 14-2). -/
theorem chargeFault_portDomain_recordOnly (cls p unit cause slot detail : Nat) (s : State) :
    RecordOnly s (chargeFault cls (portDomain p) unit cause slot detail s) := by
  have hoffline (z : State) : goOffline (portDomain p) unit z = (4, z) := rfl
  have houtside : inSteps (portDomain p) = false := rfl
  refine (noteFault_recordOnly (portDomain p) unit s).trans ?_
  unfold chargeFault
  dsimp only
  split
  case h_1 d hd =>
    rw [houtside, hoffline, if_neg Bool.false_ne_true]
    split
    · exact writeLog_recordOnly _ _
    · exact (setDomain_recordOnly _ _).trans (writeLog_recordOnly _ _)
  case h_2 hnone =>
    rw [houtside, if_neg Bool.false_ne_true]
    exact (setDomain_recordOnly _ _).trans (writeLog_recordOnly _ _)

theorem unitFault_portDomain_recordOnly (p unit cause slot detail : Nat) (s : State) :
    RecordOnly s (unitFault (portDomain p) unit cause slot detail s) :=
  chargeFault_portDomain_recordOnly 3 p unit cause slot detail s

/-- A SPARES_LOW condition that first holds is a matter of faults and interrupts alone (R361). -/
theorem checkSpares_faultOnly (s : State) : FaultOnly s (checkSpares s) := by
  unfold checkSpares
  split
  · have hset : FaultOnly s { s with faults := { s.faults with sparesLow := true }, out := { s.out with alert := true } } := rfl
    exact hset.trans raiseVector_interruptsOnly.faultOnly
  · exact .refl s

/-! ## One port, and the fault that came with it -/

/-- A port becomes this; beside it only what the handling of a fault changes may differ. -/
def PortFaulted (p : Nat) (a : Port) (s x : State) : Prop :=
  x.port p = a ∧ (∀ q, q ≠ p → x.port q = s.port q) ∧ FaultOnly { s with ports := x.ports } x

theorem modPort_portFaulted (p : Nat) (f : Port → Port) (s : State) : PortFaulted p (f (s.port p)) s (modPort p f s) :=
  ⟨Laws.port_modPort_self s p f, fun _ hq => Laws.port_modPort_other s f hq, rfl⟩

theorem PortFaulted.trans (h : PortFaulted p a s y) (k : PortFaulted p b y x) : PortFaulted p b s x := by
  obtain ⟨-, hother, hframe⟩ := h
  obtain ⟨hself, hother', hframe'⟩ := k
  refine ⟨hself, fun q hq => (hother' q hq).trans (hother q hq), FaultOnly.trans ?_ hframe'⟩
  exact (congrArg (fun z : State => { z with ports := x.ports }) hframe :)

theorem FaultOnly.portFaulted (h : FaultOnly s x) (p : Nat) : PortFaulted p (s.port p) s x := by
  refine ⟨h.port p, fun q _ => h.port q, ?_⟩
  have hports : x.ports = s.ports := (congrArg State.ports h :)
  rw [hports]
  exact h

/-! ## Training (R307, R325) and the loss of a port (Table 12-1) -/

/-- A port that has left UP by itself trains again, three times in a row at most. -/
def lost (reason : Nat) (a : Port) : Port :=
  if a.autoTrainings < 3 then trainingPort (a.autoTrainings + 1) a else failPort reason a

theorem state_lost (reason : Nat) (a : Port) : (lost reason a).state = if a.autoTrainings < 3 then .training else .failed := by
  unfold lost
  split
  · rfl
  · rfl

theorem failReason_lost (reason : Nat) (a : Port) : (lost reason a).failReason = if a.autoTrainings < 3 then 0 else reason := by
  unfold lost
  split
  · rfl
  · rfl

theorem losePort_portFaulted (p reason : Nat) (s : State) : PortFaulted p (lost reason (s.port p)) s (losePort p reason s) := by
  have hfault : FaultOnly s (unitFault (portDomain p) 0 0x09 0 0 s) := (unitFault_portDomain_recordOnly p 0 0x09 0 0 s).faultOnly
  have hport := hfault.port p
  refine (hfault.portFaulted p).trans ?_
  unfold losePort lost
  dsimp only
  rw [← hport]
  split
  · exact modPort_portFaulted p (fun a => { beginTraining a with autoTrainings := a.autoTrainings + 1 }) _
  · exact modPort_portFaulted p (failPort reason) _

end Sys2Proof.Machine
end

section
/-! PROOFS. Training, wear and failure of ports (R307 to R309, R438, Table 12-1): what ENABLE, RETRAIN, the end of a training, a lost
lock and a second of lane errors make of a port. -/

namespace Sys2Proof.Machine

variable {p : Nat} {rx tx : LaneTest} {h : Hello} {e : List Nat} {a : Port} {s : State}

/-! ## ENABLE and RETRAIN (R438) -/

theorem enablePort_of_down (hdown : (s.port p).state = .down) (ok : Bool) :
    enablePort p ok s = modPort p (fun a => if ok then { beginTraining a with autoTrainings := 0 } else failPort 1 a) (setReg (portBase p) 0 1 s) :=
  if_pos hdown

theorem enablePort_of_not_down (hstate : (s.port p).state ≠ .down) (ok : Bool) : enablePort p ok s = setReg (portBase p) 0 1 s :=
  if_neg hstate

/-- A port in use goes DOWN in row 7. -/
theorem disablePort_of_used (hused : (s.port p).state = .training ∨ (s.port p).state = .up) :
    disablePort p s = modPort p (fun a => { a with pending := 1 }) (setReg (portBase p) 0 0 s) := by
  have hport : ((setReg (portBase p) 0 0 s).port p).state = (s.port p).state := rfl
  rcases hused with hstate | hstate
  · simp only [disablePort, hport, hstate]
  · simp only [disablePort, hport, hstate]

theorem disablePort_of_failed (hfailed : (s.port p).state = .failed) : disablePort p s = modPort p portDown (setReg (portBase p) 0 0 s) := by
  have hport : ((setReg (portBase p) 0 0 s).port p).state = (s.port p).state := rfl
  simp only [disablePort, hport, hfailed]

theorem disablePort_of_down (hdown : (s.port p).state = .down) : disablePort p s = setReg (portBase p) 0 0 s := by
  have hport : ((setReg (portBase p) 0 0 s).port p).state = (s.port p).state := rfl
  simp only [disablePort, hport, hdown]

theorem retrainPort_of_down (hdown : (s.port p).state = .down) : retrainPort p s = refuseWrite .pf (portBase p + 4) 8 s := by
  simp only [retrainPort, hdown]

theorem retrainPort_of_training (htraining : (s.port p).state = .training) : retrainPort p s = s := by
  simp only [retrainPort, htraining]

/-- A port that is UP trains again in row 7, unless it is to go DOWN there. -/
theorem retrainPort_of_up (hup : (s.port p).state = .up) :
    retrainPort p s = modPort p (fun a => if a.pending = 1 then a else { a with pending := 2 }) s := by
  simp only [retrainPort, hup]

theorem retrainPort_of_failed (hfailed : (s.port p).state = .failed) :
    retrainPort p s = modPort p (fun a => { beginTraining a with autoTrainings := 0 }) s := by
  simp only [retrainPort, hfailed]

/-! ## The end of a training (R307, R308) -/

theorem selectLanes_laneMap (failing : List Nat) : LaneMap failing (selectLanes failing) := by
  rcases hfailed : (List.range 4).filter failing.contains with _ | ⟨j, _ | ⟨k, l⟩⟩
  · simp only [LaneMap, selectLanes, hfailed]
  · simp only [LaneMap, selectLanes, hfailed, List.contains_iff_mem]
  · simp only [LaneMap, selectLanes, hfailed]

/-- The eye of each lane as a direction's test found it. -/
def eyes (rx : LaneTest) : FMap Nat := (rx.eye.take 5).mapIdx fun j e => (j, e)

/-- A port with both lane maps, and the HELLO that came over them. -/
def mappedPort (r t : Nat) (rx : LaneTest) (h : Hello) (a : Port) : Port :=
  { a with rxReplaced := r, txReplaced := t, eye := eyes rx, peerId := h.moduleId, peerRole := h.role, peerEpoch := h.epoch }

/-- A port that is UP with every credit of its channels, from the next boundary on. -/
def upPort (boundary : Nat) (a : Port) : Port :=
  { a with state := .up, credits := (List.range 8).map fun v => (v, vcFlits v), usableFrom := boundary + 1 }

theorem credits_upPort {v : Nat} (hv : v < 8) (boundary : Nat) (a : Port) : fmGet (upPort boundary a).credits v 0 = vcFlits v := by
  have hall : ∀ v < 8, fmGet ((List.range 8).map fun v => (v, vcFlits v)) v 0 = vcFlits v := by decide
  exact hall v hv

/-- What the outcome of the HELLO makes of a port with both lane maps. -/
def greeted (reason boundary : Nat) (a : Port) : Port := if reason = 0 then upPort boundary a else failPort reason a

theorem greeted_keeps (reason boundary : Nat) (a : Port) : (greeted reason boundary a).rxReplaced = a.rxReplaced ∧
    (greeted reason boundary a).txReplaced = a.txReplaced ∧ (greeted reason boundary a).peerId = a.peerId := by
  unfold greeted
  split
  · exact ⟨rfl, rfl, rfl⟩
  · exact ⟨rfl, rfl, rfl⟩

/-! ### The checks of R308, in their order -/

theorem helloReason_of_unverified (hid : h.identityOk = false) : helloReason s h = 2 := by
  simp [helloReason, hid]

theorem helloReason_of_foreign (hid : h.identityOk = true) (hdomain : h.domainId ≠ s.reg 0x310004 0 0) : helloReason s h = 3 := by
  rw [helloReason, if_neg (by simp [hid])]
  exact if_pos hdomain

theorem helloReason_of_own (hid : h.identityOk = true) (hdomain : h.domainId = s.reg 0x310004 0 0) (hmodule : h.moduleId = s.moduleId) :
    helloReason s h = 4 := by
  rw [helloReason, if_neg (by simp [hid])]
  exact (if_neg (not_not_intro hdomain)).trans (if_pos hmodule)

theorem helloReason_of_peer (hid : h.identityOk = true) (hdomain : h.domainId = s.reg 0x310004 0 0) (hmodule : h.moduleId ≠ s.moduleId) :
    helloReason s h = 0 := by
  rw [helloReason, if_neg (by simp [hid])]
  exact (if_neg (not_not_intro hdomain)).trans (if_neg hmodule)

theorem finishTraining_of_not_training (hstate : (s.port p).state ≠ .training) : finishTraining p rx tx h s = s :=
  if_pos hstate

section Training

variable (htraining : (s.port p).state = .training)
include htraining

/-- A direction without a lane map fails the port with LANES. -/
theorem finishTraining_of_unmapped (hunmapped : selectLanes rx.failing = none ∨ selectLanes tx.failing = none) :
    PortFaulted p { failPort 1 (s.port p) with eye := eyes rx } s (finishTraining p rx tx h s) := by
  have hdone : finishTraining p rx tx h s = modPort p (fun a => { failPort 1 a with eye := eyes rx }) s := by
    unfold finishTraining
    rw [if_neg (not_not_intro htraining)]
    dsimp only
    split
    case h_1 r t hr ht => simp [hr, ht] at hunmapped
    case h_2 => rfl
  rw [hdone]
  exact modPort_portFaulted p (fun a => { failPort 1 a with eye := eyes rx }) s

variable {r t : Nat} (hr : selectLanes rx.failing = some r) (ht : selectLanes tx.failing = some t)
include hr ht

/-- With both lane maps the HELLO decides: the port is UP and its fault's domain closed, or it fails with the HELLO's reason. -/
theorem finishTraining_of_mapped : PortFaulted p (greeted (helloReason s h) s.boundary (mappedPort r t rx h (s.port p))) s (finishTraining p rx tx h s) := by
  have hmapped := modPort_portFaulted p (mappedPort r t rx h) s
  have hdone : finishTraining p rx tx h s = if helloReason s h ≠ 0 then modPort p (failPort (helloReason s h)) (modPort p (mappedPort r t rx h) s)
      else checkSpares (dropDomain (portDomain p) (modPort p (upPort s.boundary) (modPort p (mappedPort r t rx h) s))) := by
    simp only [finishTraining, htraining, hr, ht]
    rfl
  rw [hdone, ← hmapped.1]
  by_cases haccepted : helloReason s h = 0
  · rw [if_neg (not_not_intro haccepted), greeted, if_pos haccepted]
    have hup := modPort_portFaulted p (upPort s.boundary) (modPort p (mappedPort r t rx h) s)
    have hsettled := ((dropDomain_recordOnly (portDomain p) (modPort p (upPort s.boundary) (modPort p (mappedPort r t rx h) s))).faultOnly.trans
      (checkSpares_faultOnly _)).portFaulted p
    rw [hup.1] at hsettled
    exact hmapped.trans (hup.trans hsettled)
  · rw [if_pos haccepted, greeted, if_neg haccepted]
    exact hmapped.trans (modPort_portFaulted p (failPort (helloReason s h)) _)

end Training

/-! ## Lane errors (R309) -/

/-- A lane is worn after its tenth bad second in a row, and stays so. -/
theorem mem_laneWear_countErrors {j : Nat} : j ∈ (countErrors e a).laneWear ↔
    j ∈ a.laneWear ∨ ∃ n, (e.take 5)[j]? = some n ∧ 2240000 < n ∧ 9 ≤ fmGet a.wearRun j 0 := by
  simp only [countErrors, mem_dedup_iff, List.mem_append]
  refine or_congr_right ⟨fun hworn => ?_, fun ⟨n, hn, hbad, hrun⟩ => ?_⟩
  · simp only [List.mem_map, List.mem_filter, List.mem_mapIdx, decide_eq_true_eq] at hworn
    obtain ⟨w, ⟨⟨b, ⟨i, hi, rfl⟩, rfl⟩, hten⟩, rfl⟩ := hworn
    refine ⟨_, List.getElem?_eq_getElem hi, ?_⟩
    dsimp only at hten
    split at hten
    case isTrue hbad => exact ⟨hbad, Nat.le_of_succ_le_succ hten⟩
    case isFalse => omega
  · obtain ⟨hj, rfl⟩ := List.getElem?_eq_some_iff.mp hn
    simp only [List.mem_map, List.mem_filter, List.mem_mapIdx, decide_eq_true_eq]
    refine ⟨_, ⟨⟨_, ⟨j, hj, rfl⟩, rfl⟩, ?_⟩, rfl⟩
    rw [if_pos hbad]
    exact Nat.succ_le_succ hrun

theorem wearLanes_of_not_up (hstate : (s.port p).state ≠ .up) : wearLanes p e s = s :=
  if_pos hstate

/-- The faults of newly worn lanes are recorded. -/
theorem forEach_wear_recordOnly (l : List Nat) (s : State) : RecordOnly s (forEach l (fun j => unitFault (portDomain p) j 0x08 0 0) s) := by
  induction l generalizing s with
  | nil => exact .refl s
  | cons j l ih => exact (unitFault_portDomain_recordOnly p j 0x08 0 0 s).trans (ih _)

/-- A second's errors are counted in an UP port, and lanes that wear with it are faults (R359). -/
theorem wearLanes_portFaulted (hup : (s.port p).state = .up) : PortFaulted p (countErrors e (s.port p)) s (wearLanes p e s) := by
  have hcounted := modPort_portFaulted p (countErrors e) s
  have hkept (l : List Nat) := ((forEach_wear_recordOnly (p := p) l (modPort p (countErrors e) s)).faultOnly.trans (checkSpares_faultOnly _)).portFaulted p
  simp only [hcounted.1] at hkept
  unfold wearLanes
  rw [if_neg (not_not_intro hup)]
  exact hcounted.trans (hkept _)

/-! ## The commands -/

theorem exec_portEnable_of_exposed (hp : p < 8) (hexposed : s.exposed = true) (ok : Bool) :
    exec (.portEnable p ok) s = .next (enablePort p ok s) := by
  rw [Laws.exec_portEnable (decide_eq_true hp), Laws.whenExposed_yes s hexposed]

theorem exec_portDisable_of_exposed (hp : p < 8) (hexposed : s.exposed = true) : exec (.portDisable p) s = .next (disablePort p s) := by
  rw [Laws.exec_portDisable (decide_eq_true hp), Laws.whenExposed_yes s hexposed]

theorem exec_retrain_of_exposed (hp : p < 8) (hexposed : s.exposed = true) : exec (.retrain p) s = .next (retrainPort p s) := by
  rw [Laws.exec_retrain (decide_eq_true hp), Laws.whenExposed_yes s hexposed]

theorem exec_trainingDone_of_answers (hp : p < 8) (hanswers : s.answers = true) :
    exec (.trainingDone p rx tx h) s = .next (finishTraining p rx tx h s) := by
  rw [Laws.exec_trainingDone (decide_eq_true hp), Laws.whenAnswering_yes s hanswers]

theorem exec_laneLockLoss_of_answers (hp : p < 8) (hanswers : s.answers = true) (b : Bool) : exec (.laneLockLoss p b) s =
    .next (if (s.port p).state = .up then losePort p (if b then 5 else 6) s else s) := by
  rw [Laws.exec_laneLockLoss (decide_eq_true hp), Laws.whenAnswering_yes s hanswers]

theorem exec_laneErrorPeriod_of_answers (hp : p < 8) (hanswers : s.answers = true) :
    exec (.laneErrorPeriod p e) s = .next (wearLanes p e s) := by
  rw [Laws.exec_laneErrorPeriod (decide_eq_true hp), Laws.whenAnswering_yes s hanswers]

/-- A module that exposes its blocks has its registers answering. -/
theorem answers_of_exposed (hexposed : s.exposed = true) : s.answers = true := by
  simp only [State.exposed, Bool.and_eq_true] at hexposed
  exact hexposed.1.1

/-- Settles O46, command by command, and then by the state of the port. -/
theorem portsTrainWearAndFail : Obligations.PortsTrainWearAndFail := by
  intro p s hp hexposed y on
  have hanswers := answers_of_exposed hexposed
  rw [exec_portDisable_of_exposed hp hexposed, exec_retrain_of_exposed hp hexposed]
  simp only [exec_portEnable_of_exposed hp hexposed, exec_trainingDone_of_answers hp hanswers, exec_laneLockLoss_of_answers hp hanswers,
    exec_laneErrorPeriod_of_answers hp hanswers]
  refine ⟨fun hdown => ⟨?_, ?_⟩, fun b hstate => by rw [enablePort_of_not_down hstate], fun hused => ?_, fun hfailed => ?_,
    fun hdown => ⟨by rw [disablePort_of_down hdown], by rw [retrainPort_of_down hdown]⟩,
    fun htraining => by rw [retrainPort_of_training htraining], fun hup hpending => ?_, fun hfailed => ?_,
    fun rx tx h hstate => by rw [finishTraining_of_not_training hstate], fun rx tx h htraining => ?_,
    fun b hstate => by rw [if_neg hstate], fun b hup => ?_, fun e hstate => by rw [wearLanes_of_not_up hstate], fun e hup => ?_⟩
  · rw [enablePort_of_down hdown]
    exact ⟨_, rfl, modPort_portBecomes p (fun a => { beginTraining a with autoTrainings := 0 }) (on 1)⟩
  · rw [enablePort_of_down hdown]
    have hfails := modPort_portBecomes p (failPort 1) (on 1)
    rw [← hfails.1] at hfails
    refine ⟨_, rfl, ?_, ?_, hfails⟩
    · exact congrArg Port.state (Laws.port_modPort_self (on 1) p (failPort 1))
    · exact congrArg Port.failReason (Laws.port_modPort_self (on 1) p (failPort 1))
  · rw [disablePort_of_used hused]
    exact ⟨_, rfl, modPort_portBecomes p _ (on 0)⟩
  · rw [disablePort_of_failed hfailed]
    have hgoes := modPort_portBecomes p portDown (on 0)
    rw [← hgoes.1] at hgoes
    exact ⟨_, rfl, congrArg Port.state (Laws.port_modPort_self (on 0) p portDown), hgoes⟩
  · rw [retrainPort_of_up hup]
    have hwaits := modPort_portBecomes p (fun a => if a.pending = 1 then a else { a with pending := 2 }) s
    rw [if_neg hpending] at hwaits
    exact ⟨_, rfl, hwaits⟩
  · rw [retrainPort_of_failed hfailed]
    exact ⟨_, rfl, modPort_portBecomes p (fun a => { beginTraining a with autoTrainings := 0 }) s⟩
  · refine ⟨_, selectLanes rx.failing, selectLanes tx.failing, rfl, selectLanes_laneMap _, selectLanes_laneMap _, ?_⟩
    by_cases hunmapped : selectLanes rx.failing = none ∨ selectLanes tx.failing = none
    · obtain ⟨hport, hother, hframe⟩ := finishTraining_of_unmapped (h := h) htraining hunmapped
      rw [hport]
      exact ⟨hother, hframe, fun _ => ⟨rfl, rfl⟩, fun hr ht => absurd hunmapped (not_or.mpr ⟨hr, ht⟩)⟩
    · obtain ⟨hrx, htx⟩ := not_or.mp hunmapped
      obtain ⟨r, hr⟩ := Option.ne_none_iff_exists'.mp hrx
      obtain ⟨t, ht⟩ := Option.ne_none_iff_exists'.mp htx
      obtain ⟨hport, hother, hframe⟩ := finishTraining_of_mapped (h := h) htraining hr ht
      obtain ⟨hrx, htx, hpeer⟩ := greeted_keeps (helloReason s h) s.boundary (mappedPort r t rx h (s.port p))
      rw [hport, hrx, htx, hpeer]
      refine ⟨hother, hframe, fun hnone => absurd hnone hunmapped, fun _ _ => ⟨hr, ht, rfl, fun hid => ?_, fun hid hdomain => ?_,
        fun hid hdomain hown => ?_, fun hid hdomain hother => ?_⟩⟩
      · rw [helloReason_of_unverified hid]
        exact ⟨rfl, rfl⟩
      · rw [helloReason_of_foreign hid hdomain]
        exact ⟨rfl, rfl⟩
      · rw [helloReason_of_own hid hdomain hown]
        exact ⟨rfl, rfl⟩
      · rw [helloReason_of_peer hid hdomain hother]
        exact ⟨rfl, rfl, fun v hv => credits_upPort hv _ _⟩
  · rw [if_pos hup]
    obtain ⟨hport, hother, hframe⟩ := losePort_portFaulted p (if b then 5 else 6) s
    refine ⟨_, rfl, hother, hframe, fun hfew => hport.trans (if_pos hfew), fun hmany => ?_⟩
    rw [hport, lost, if_neg (Nat.not_lt.mpr hmany)]
    exact ⟨rfl, rfl⟩
  · obtain ⟨hport, hother, hframe⟩ := wearLanes_portFaulted (e := e) hup
    refine ⟨_, rfl, ?_, hother, hframe, fun j n hj hn => ?_⟩
    · rw [hport]
      exact hup
    · rw [hport, mem_laneWear_countErrors, List.getElem?_take_of_lt hj, hn]
      refine ⟨fun hbad hrun => .inr ⟨n, rfl, hbad, hrun⟩, fun hgood hnot hworn => ?_⟩
      rcases hworn with hworn | ⟨m, hm, hbad, -⟩
      · exact hnot hworn
      · cases hm
        omega

end Sys2Proof.Machine
end

section
/-! PROOFS. Flits (R310 to R316, R321): what a flit's acknowledgement and credit make of a port, and where a flit in order goes. -/

namespace Sys2Proof.Machine

variable {p o : Nat} {f : Flit} {a b : Port} {l m : List Nat} {s x : State}

/-! ## The replay buffer (R312, R313) -/

theorem acknowledged_of_first {n : Nat} (hfirst : n ∉ l) : acknowledged n (l ++ n :: m) = m := by
  have hindex : (l ++ n :: m).findIdx? (· == n) = some l.length := by
    simp [List.findIdx?_append, List.findIdx?_cons, List.findIdx?_eq_none_iff.mpr fun c hc => beq_eq_false_iff_ne.mpr (ne_of_mem_of_not_mem hc hfirst)]
  simp [acknowledged, hindex]

theorem acknowledged_of_not_mem {n : Nat} (hnot : n ∉ l) : acknowledged n l = l := by
  have hindex : l.findIdx? (· == n) = none :=
    List.findIdx?_eq_none_iff.mpr fun c hc => beq_eq_false_iff_ne.mpr (ne_of_mem_of_not_mem hc hnot)
  simp [acknowledged, hindex]

theorem drainPort_of_nil (hnone : a.waiting = []) : drainPort a = a := by
  simp [drainPort, vcOrder, hnone]

/-- The credit that a flit carries, up to the channel's allocation (R314). -/
def credited (f : Flit) (a : Port) : Port :=
  { a with credits := fmSet a.credits f.creditVc (min (vcFlits f.creditVc) (fmGet a.credits f.creditVc 0 + f.credit)) }

section TakeAck

variable (hnone : a.waiting = [])
include hnone

/-- Without a NAK, or with nothing left to replay, the flits up to the number named are gone; if there are any, the run of
replays is over. -/
theorem takeAck_of_quiet (hrest : acknowledged f.ack a.unacked = m) (hquiet : f.nak = false ∨ m = []) : takeAck f a =
    { credited f a with unacked := m, replayRun := if m.length < a.unacked.length then 0 else a.replayRun } := by
  have hquiet' : (f.nak && !m.isEmpty) = false := by simpa [or_iff_not_imp_left] using hquiet
  simp [takeAck, hrest, hquiet', drainPort_of_nil, hnone, credited]

/-- A NAK replays what is left, one time more in a row for the flit that is now the first (R313). -/
theorem takeAck_of_replay (hrest : acknowledged f.ack a.unacked = m) (hnak : f.nak = true) (hleft : m ≠ []) : takeAck f a =
    { credited f a with
      unacked := m, replayRun := (if m.length < a.unacked.length then 0 else a.replayRun) + 1, replays := a.replays + 1 } := by
  simp [takeAck, hrest, hnak, hleft, drainPort_of_nil, hnone, credited]

theorem takeAck_of_nothing_unacked (hempty : a.unacked = []) : takeAck f a = credited f a := by
  have hrest : acknowledged f.ack a.unacked = [] := by
    rw [hempty]
    rfl
  rw [takeAck_of_quiet hnone hrest (.inr rfl), if_neg (by simp [hempty]), ← hempty]
  rfl

end TakeAck

theorem length_lt_of_acked {n : Nat} : m.length < (l ++ n :: m).length := by
  simp
  omega

/-! ## A flit in order (R312, R316, R321) -/

/-- A flit in order is acknowledged once in 64. -/
def taken (f : Flit) (a : Port) : Port :=
  if a.sinceAck = 63 then { a with lastSeq := f.sequence, sinceAck := 0, acksSent := a.acksSent + 1 }
  else { a with lastSeq := f.sequence, sinceAck := a.sinceAck + 1 }

/-- The same, as the ports count: the 64th since the last acknowledgement. -/
theorem taken_eq (f : Flit) : taken f = fun a =>
    if a.sinceAck + 1 = 64 then { a with lastSeq := f.sequence, sinceAck := 0, acksSent := a.acksSent + 1 }
    else { a with lastSeq := f.sequence, sinceAck := a.sinceAck + 1 } := by
  funext a
  simp [taken]

theorem state_taken (f : Flit) (a : Port) : (taken f a).state = a.state := by
  unfold taken
  split
  · rfl
  · rfl

theorem usableFrom_taken (f : Flit) (a : Port) : (taken f a).usableFrom = a.usableFrom := by
  unfold taken
  split
  · rfl
  · rfl

theorem badMessages_taken (f : Flit) (a : Port) : (taken f a).badMessages = a.badMessages := by
  unfold taken
  split
  · rfl
  · rfl

theorem passFlit_of_malformed (hbad : f.reserved ≠ 0 ∨ f.wellTyped = false) : passFlit p f s =
    if f.responds then answerStatus f.source 0 stBadDescriptor (modPort p (fun a => { a with badMessages := a.badMessages + 1 }) s)
    else modPort p (fun a => { a with badMessages := a.badMessages + 1 }) s := by
  rw [passFlit, if_pos (by simpa using hbad)]

section WellFormed

variable (hreserved : f.reserved = 0) (htyped : f.wellTyped = true)
include hreserved htyped

/-- A flit for this module goes no further. -/
theorem passFlit_of_own (hown : f.destination = s.moduleId) : passFlit p f s = s := by
  simp [passFlit, hreserved, htyped, hown]

theorem passFlit_of_routed (hother : f.destination ≠ s.moduleId) (hroute : routePort s f.source f.destination = some o) :
    passFlit p f s = modPort o (sendFlit f.vc) s := by
  simp [passFlit, hreserved, htyped, hother, hroute]

/-- A flit without a route is discarded and counted. -/
def routeDiscarded (s : State) : State :=
  { s with junction := { s.junction with routeDiscarded := s.junction.routeDiscarded + 1 } }

theorem passFlit_of_unrouted (hother : f.destination ≠ s.moduleId) (hroute : routePort s f.source f.destination = none) : passFlit p f s =
    if f.responds then answerStatus f.source 0 stAccess (routeDiscarded s) else routeDiscarded s := by
  simp [passFlit, hreserved, htyped, hother, hroute, routeDiscarded]

end WellFormed

/-- With a credit, room for a replay and nothing before it, a flit leaves at once (R312, R314). -/
theorem sendFlit_of_free {v : Nat} (hcredit : 0 < fmGet a.credits v 0) (hroom : a.unacked.length < 512) (hnone : a.waiting = []) :
    sendFlit v a = leave a v := by
  simp [sendFlit, mayLeave, hcredit, hroom, hnone]

/-- A route depends on the routes in force and on which ports are UP, and since when. -/
theorem routePort_congr (hlatched : x.latched = s.latched) (hboundary : x.boundary = s.boundary)
    (hstate : ∀ q, (x.port q).state = (s.port q).state) (husable : ∀ q, (x.port q).usableFrom = (s.port q).usableFrom) (i j : Nat) :
    routePort x i j = routePort s i j := by
  simp only [routePort, State.regL, hlatched, hboundary, hstate, husable]

/-! ## A flit arrives -/

/-- The second state is the first with a flit taken in order at a port, which is still UP for every route. -/
structure Accepts (p : Nat) (f : Flit) (a : Port) (s x : State) : Prop where
  port : PortBecomes p a s x
  frame : x = { s with ports := x.ports }
  route : routePort x f.source f.destination = routePort s f.source f.destination

theorem Accepts.moduleId (h : Accepts p f a s x) : x.moduleId = s.moduleId :=
  (congrArg State.moduleId h.frame :)

theorem Accepts.routeDiscarded (h : Accepts p f a s x) : routeDiscarded x =
    { x with junction := { s.junction with routeDiscarded := s.junction.routeDiscarded + 1 } } := by
  have hjunction : x.junction = s.junction := (congrArg State.junction h.frame :)
  rw [Machine.routeDiscarded, hjunction]

theorem modPort_taken_accepts (htaken : takeAck f (s.port p) = a) (hstate : a.state = (s.port p).state)
    (husable : a.usableFrom = (s.port p).usableFrom) : Accepts p f (taken f a) s (modPort p (taken f) (modPort p (takeAck f) s)) := by
  have hacked := modPort_portBecomes p (takeAck f) s
  rw [htaken] at hacked
  have hnext := modPort_portBecomes p (taken f) (modPort p (takeAck f) s)
  rw [hacked.1] at hnext
  have hport := hacked.trans hnext
  refine ⟨hport, rfl, ?_⟩
  obtain ⟨hself, hother, -, -⟩ := hport
  refine routePort_congr (s := s) (x := modPort p (taken f) (modPort p (takeAck f) s)) rfl rfl (fun q => ?_) (fun q => ?_) f.source f.destination
  · by_cases hq : q = p
    · rw [hq, hself, state_taken, hstate]
    · rw [hother q hq]
  · by_cases hq : q = p
    · rw [hq, hself, usableFrom_taken, husable]
    · rw [hother q hq]

theorem receiveFlit_of_not_up (hstate : (s.port p).state ≠ .up) : receiveFlit p f s = s :=
  if_pos hstate

section Up

variable (hup : (s.port p).state = .up)
include hup

theorem receiveFlit_of_damaged (hdamaged : f.good = false) : receiveFlit p f s =
    modPort p (fun a => { a with crcErrors := a.crcErrors + 1, naksSent := a.naksSent + 1, sinceAck := 0 }) s := by
  simp [receiveFlit, hup, hdamaged]

variable (hgood : f.good = true) (htaken : takeAck f (s.port p) = a)
include hgood htaken

/-- The sixteenth replay of one flit takes the port out of UP (R313). -/
theorem receiveFlit_of_lost (hrun : 16 ≤ a.replayRun) : PortFaulted p (lost 5 a) s (receiveFlit p f s) := by
  have hdone : receiveFlit p f s = losePort p 5 (modPort p (takeAck f) s) := by
    simp [receiveFlit, hup, hgood, htaken, hrun]
  have hacked := modPort_portFaulted p (takeAck f) s
  rw [htaken] at hacked
  have hlost := losePort_portFaulted p 5 (modPort p (takeAck f) s)
  rw [hacked.1] at hlost
  rw [hdone]
  exact hacked.trans hlost

/-- A control flit, or one that is not the next, gives its acknowledgement and credit alone (R312). -/
theorem receiveFlit_of_unordered (hrun : a.replayRun < 16) (hunordered : f.kind = 0 ∨ f.kind = 3 ∨ f.sequence ≠ (a.lastSeq + 1) % 4096) :
    PortBecomes p a s (receiveFlit p f s) := by
  have hdone : receiveFlit p f s = modPort p (takeAck f) s := by
    simp [receiveFlit, hup, hgood, htaken, Nat.not_le.mpr hrun, hunordered]
  rw [hdone, ← htaken]
  exact modPort_portBecomes p (takeAck f) s

/-- The next flit is taken, and passed on. -/
theorem receiveFlit_of_ordered (hstate : a.state = (s.port p).state) (husable : a.usableFrom = (s.port p).usableFrom) (hrun : a.replayRun < 16)
    (hkind : f.kind = 1 ∨ f.kind = 2) (hnext : f.sequence = (a.lastSeq + 1) % 4096) :
    ∃ x, Accepts p f (taken f a) s x ∧ receiveFlit p f s = passFlit p f x := by
  have hordered : ¬(f.kind = 0 ∨ f.kind = 3 ∨ f.sequence ≠ (a.lastSeq + 1) % 4096) := by omega
  refine ⟨_, modPort_taken_accepts htaken hstate husable, ?_⟩
  simp [receiveFlit, hup, hgood, htaken, Nat.not_le.mpr hrun, hordered, taken_eq]

end Up

/-! ## The commands -/

theorem exec_flitReceive_of_answers (hp : p < 8) (hanswers : s.answers = true) : exec (.flitReceive p f) s = .next (receiveFlit p f s) := by
  rw [Laws.exec_flitReceive (decide_eq_true hp), Laws.whenAnswering_yes s hanswers]

/-- When its timer runs out, an UP port acknowledges what it has (R312). -/
theorem exec_ackTimer_of_answers (hp : p < 8) (hanswers : s.answers = true) : exec (.ackTimer p) s = .next (
    if (s.port p).state = .up then modPort p (fun a => { a with acksSent := a.acksSent + 1, sinceAck := 0 }) s else s) := by
  rw [Laws.exec_ackTimer (decide_eq_true hp), Laws.whenAnswering_yes s hanswers]

/-- Settles O47, by what the flit acknowledges, and then by its order, its form and its destination. -/
theorem flitsAreAcknowledgedReplayedAndRouted : Obligations.FlitsAreAcknowledgedReplayedAndRouted := by
  intro p f s hp hanswers y paid got
  rw [exec_flitReceive_of_answers hp hanswers, exec_ackTimer_of_answers hp hanswers]
  refine ⟨fun hstate => ⟨by rw [receiveFlit_of_not_up hstate], by rw [if_neg hstate]⟩,
    fun hup => ⟨?_, fun hdamaged => ?_, fun hgood hnone => ⟨fun hkind l m hunacked hfirst => ⟨fun hquiet => ?_, fun hnak hrest => ?_⟩,
      fun hnak hrest hack => ⟨fun hrun hkind => ?_, fun hrun => ?_⟩, fun hempty hrun => ?_⟩⟩⟩
  · rw [if_pos hup]
    exact ⟨_, rfl, modPort_portBecomes p (fun a => { a with acksSent := a.acksSent + 1, sinceAck := 0 }) s⟩
  · rw [receiveFlit_of_damaged hup hdamaged]
    exact ⟨_, rfl, modPort_portBecomes p _ s⟩
  · have hacked := takeAck_of_quiet (f := f) hnone (hunacked ▸ acknowledged_of_first hfirst) hquiet
    rw [hunacked, if_pos length_lt_of_acked] at hacked
    exact ⟨_, rfl, receiveFlit_of_unordered hup hgood hacked (show 0 < 16 by decide) (.inl hkind)⟩
  · have hacked := takeAck_of_replay (f := f) hnone (hunacked ▸ acknowledged_of_first hfirst) hnak hrest
    rw [hunacked, if_pos length_lt_of_acked] at hacked
    exact ⟨_, rfl, receiveFlit_of_unordered hup hgood hacked (show 1 < 16 by decide) (.inl hkind)⟩
  · have hreplayed := takeAck_of_replay (f := f) hnone (acknowledged_of_not_mem hack) hnak hrest
    rw [if_neg (lt_irrefl _)] at hreplayed
    exact ⟨_, rfl, receiveFlit_of_unordered hup hgood hreplayed (Nat.succ_lt_succ hrun) (.inl hkind)⟩
  · have hreplayed := takeAck_of_replay (f := f) hnone (acknowledged_of_not_mem hack) hnak hrest
    rw [if_neg (lt_irrefl _)] at hreplayed
    obtain ⟨hport, hother, hframe⟩ := receiveFlit_of_lost hup hgood hreplayed (Nat.succ_le_succ hrun)
    exact ⟨_, rfl, (congrArg Port.state hport).trans (state_lost 5 _), (congrArg Port.failReason hport).trans (failReason_lost 5 _), hother, hframe⟩
  · have htaken := takeAck_of_nothing_unacked (f := f) hnone hempty
    refine ⟨fun hunordered => ⟨_, rfl, receiveFlit_of_unordered hup hgood htaken hrun (.inr hunordered)⟩, fun hkind hnext => ?_⟩
    obtain ⟨x, haccepts, hpassed⟩ := receiveFlit_of_ordered hup hgood htaken rfl rfl hrun hkind hnext
    have hport : PortBecomes p got s x := haccepts.port
    have hdiscarded := haccepts.routeDiscarded
    rw [hpassed, ← haccepts.moduleId, ← haccepts.route]
    refine ⟨fun hreserved htyped hown => ?_, fun hreserved htyped hother => ⟨fun o hroute hop hcredit hroom hfree => ?_,
      fun hroute hsilent => ?_, fun hroute hresponds => ?_⟩, fun hbad => ?_⟩
    · rw [passFlit_of_own hreserved htyped hown]
      exact ⟨_, rfl, hport⟩
    · rw [passFlit_of_routed hreserved htyped hother hroute]
      obtain ⟨hself, hothers, -, -⟩ := hport
      refine ⟨_, rfl, (Laws.port_modPort_other _ _ hop.symm).trans hself,
        fun q hqp hqo => (Laws.port_modPort_other _ _ hqo).trans (hothers q hqp), ?_, ?_⟩
      · exact congrArg (fun z : State => { z with ports := (modPort o (sendFlit f.vc) x).ports }) haccepts.frame
      · rw [Laws.port_modPort_self, hothers o hop]
        exact sendFlit_of_free hcredit hroom hfree
    · rw [passFlit_of_unrouted hreserved htyped hother hroute, if_neg (Bool.eq_false_iff.mp hsilent)]
      exact ⟨_, _, rfl, hport, hdiscarded⟩
    · rw [passFlit_of_unrouted hreserved htyped hother hroute, if_pos hresponds, hdiscarded]
      exact ⟨_, _, rfl, hport, Laws.sendMsg_sent _ _⟩
    · rw [passFlit_of_malformed hbad]
      have hcounted := hport.trans (modPort_portBecomes p (fun a => { a with badMessages := a.badMessages + 1 }) x)
      have hkept : got.badMessages = y.badMessages := badMessages_taken f (credited f y)
      rw [hport.1, hkept] at hcounted
      refine ⟨_, _, rfl, hcounted, fun hsilent => if_neg (Bool.eq_false_iff.mp hsilent), fun hresponds => ?_⟩
      rw [if_pos hresponds]
      exact Laws.sendMsg_sent _ _

end Sys2Proof.Machine
end

section
/-! PROOFS. Roles (R326, R335, R336, R440): what sending leaves unchanged, which grants a module accepts, what a manager makes of an
acknowledgement, whom RESOLVE names, and the two role commands. -/

namespace Sys2Proof.Machine

variable {h : MsgHead} {g : RoleGrant} {p n e : Nat} {b : Bool} {m : Member} {s : State}

/-! ## What a message leaves as it was (R321) -/

/-- Sending a message touches ports, what has gone out and the count of discarded flits alone. -/
theorem sendMsg_frame (m : SentMsg) (s : State) : sendMsg m s = { s with
    ports := (sendMsg m s).ports, out := (sendMsg m s).out,
    junction := { s.junction with routeDiscarded := (sendMsg m s).junction.routeDiscarded } } := by
  obtain ⟨hroute, hnone⟩ := Laws.sendMsg_sent m s
  by_cases hleaves : m.destination = s.moduleId ∨ (routePort s s.moduleId m.destination).isSome = true
  · rw [hroute hleaves]
  · obtain ⟨hother, hlost⟩ := not_or.mp hleaves
    rw [hnone hother (by simpa using hlost)]

theorem sendMsg_moduleId (m : SentMsg) (s : State) : (sendMsg m s).moduleId = s.moduleId :=
  (congrArg State.moduleId (sendMsg_frame m s) :)

theorem staleFor_eq_true (hepoch : h.epoch ≠ s.junction.epoch) : staleFor s h = true :=
  decide_eq_true hepoch

theorem staleFor_eq_false (hepoch : h.epoch = s.junction.epoch) : staleFor s h = false :=
  decide_eq_false (not_not_intro hepoch)

/-- A role change that waits for row 7. -/
def withChange (c : RoleChange) (s : State) : State :=
  { s with junction := { s.junction with changes := s.junction.changes ++ [c] } }

/-! ## ROLE_SET (R326) -/

/-- What R326 asks of a ROLE_SET of the module's own epoch. -/
theorem roleRefused_eq_false_iff : roleRefused s h g = false ↔
    s.reg 0x310008 15 0 = 1 ∧ h.source = s.reg 0x310008 0 0 ∧ (g.role = 2 ∨ g.role = 3 → ∀ c ∈ s.ctxs, c.2.state = .free) ∧
      (groupLive s && (decide (g.role = 1) != decide (s.junction.role = .manager))) = false := by
  have hbase : junctionBase + 8 = 0x310008 := rfl
  simp only [roleRefused, hbase, Bool.or_eq_false_iff, and_assoc]
  refine and_congr (by simp) (and_congr (decide_eq_false_iff_not.trans not_not) (and_congr ?_ (by rw [Bool.and_comm])))
  rw [Bool.and_eq_false_iff, decide_eq_false_iff_not, ← imp_iff_not_or]
  simp

theorem takeRoleSet_of_stale (hepoch : h.epoch ≠ s.junction.epoch) : takeRoleSet h g s = refuseStale h s := by
  rw [takeRoleSet, if_pos (staleFor_eq_true hepoch)]

/-- A grant that is accepted is acknowledged, and waits for row 7. -/
theorem takeRoleSet_of_allowed (hepoch : h.epoch = s.junction.epoch) (hallowed : roleRefused s h g = false) : takeRoleSet h g s =
    withChange { target := s.moduleId, grant := g, atStep := h.step } (sendMsg (responseTo h 0x04 stOk [] []) s) := by
  rw [takeRoleSet, staleFor_eq_false hepoch, ← sendMsg_moduleId (responseTo h 0x04 stOk [] []) s]
  simp only [hallowed]
  rfl

theorem takeRoleSet_of_refused (hepoch : h.epoch = s.junction.epoch) (hrefused : roleRefused s h g = true) :
    takeRoleSet h g s = sendMsg (responseTo h 0x04 stAccess [] []) s := by
  rw [takeRoleSet, staleFor_eq_false hepoch]
  simp only [hrefused]
  rfl

/-! ## ROLE_ACK (R326) -/

theorem takeRoleAck_of_not_manager (hrole : s.junction.role ≠ .manager) : takeRoleAck h p b s = s :=
  if_pos hrole

/-- A refused role is dropped. -/
theorem takeRoleAck_of_refused (hrole : s.junction.role = .manager) : takeRoleAck h p false s =
    { s with junction := { s.junction with changes := s.junction.changes.filter fun c => c.target != h.source } } := by
  rw [takeRoleAck, if_neg (not_not_intro hrole)]
  rfl

/-- A role acknowledged for a free position is due, under the next epoch the manager issues (R334). -/
theorem takeRoleAck_of_accepted (hrole : s.junction.role = .manager) (hnew : ∀ c ∈ s.junction.changes, c.target ≠ h.source)
    (hfree : memberAt s p = none) (hpos : 0 < p) (hp : p < 64) : takeRoleAck h p true s =
      withChange { target := h.source, grant := grantFor (issueEpoch s).2 p (issueEpoch s).1, atStep := h.step } (issueEpoch s).2 := by
  have hany : (s.junction.changes.any fun c => c.target == h.source) = false := by simpa [List.any_eq_false] using hnew
  have hposition : (p == 0) = false := beq_eq_false_iff_ne.mpr hpos.ne'
  simp only [takeRoleAck, hrole, hany, hfree, hposition, decide_eq_false (Nat.not_le.mpr hp)]
  rfl

theorem grantFor_role (p e : Nat) (s : State) : (grantFor s p e).role = 2 ∨ (grantFor s p e).role = 3 := by
  unfold grantFor
  dsimp only
  split
  · exact .inl rfl
  · exact .inr rfl

/-! ## RESOLVE (R336) -/

theorem answerResolve_of_not_manager (hrole : s.junction.role ≠ .manager) : answerResolve h b n s = s :=
  if_pos hrole

theorem holderOf_manager_position (s : State) :
    holderOf s true 0 = some (s.moduleId, roleCode s.junction.role, s.junction.position, s.junction.epoch) := by
  simp [holderOf]

theorem holderOf_manager_module (s : State) :
    holderOf s false s.moduleId = some (s.moduleId, roleCode s.junction.role, s.junction.position, s.junction.epoch) := by
  simp [holderOf]

/-- Any other position is held by the member of the table that stands there. -/
theorem holderOf_member (hp : p ≠ 0) : holderOf s true p =
    (s.junction.members.find? fun m => m.1 == p).map fun m => (m.2.id, roleCode m.2.role, m.1, m.2.epoch) := by
  simp [holderOf, hp]

theorem holderOf_of_listed {l r : List (Nat × Member)} (hmembers : s.junction.members = l ++ (p, m) :: r) (hp : p ≠ 0) (hfirst : ∀ y ∈ l, y.1 ≠ p) :
    holderOf s true p = some (m.id, roleCode m.role, p, m.epoch) := by
  have hfound : s.junction.members.find? (fun m => m.1 == p) = some (p, m) :=
    List.find?_eq_some_iff_append.mpr ⟨beq_self_eq_true p, l, r, hmembers, by simpa using hfirst⟩
  rw [holderOf_member hp, hfound]
  rfl

theorem holderOf_of_unlisted (hp : p ≠ 0) (hnone : ∀ m ∈ s.junction.members, m.1 ≠ p) : holderOf s true p = none := by
  simpa [holderOf_member hp, List.find?_eq_none] using hnone

/-- The epoch 0 of a plain request is never stale (R336). -/
theorem not_staleRequest (hepoch : h.epoch = 0 ∨ h.epoch = s.junction.epoch) : ¬(h.epoch ≠ 0 ∧ staleFor s h = true) := by
  simpa [staleFor, or_iff_not_imp_left] using hepoch

section Manager

variable (hrole : s.junction.role = .manager)
include hrole

theorem answerResolve_of_stale (hplain : h.epoch ≠ 0) (hepoch : h.epoch ≠ s.junction.epoch) : answerResolve h b n s = refuseStale h s := by
  rw [answerResolve, if_neg (not_not_intro hrole), if_pos ⟨hplain, staleFor_eq_true hepoch⟩]

variable (hepoch : h.epoch = 0 ∨ h.epoch = s.junction.epoch)
include hepoch

/-- The manager names the holder and its epoch. -/
theorem answerResolve_of_holder {i c q k : Nat} (hholder : holderOf s b n = some (i, c, q, k)) :
    answerResolve h b n s = sendMsg (responseTo h 0x06 stOk [i, c, q, k] []) s := by
  rw [answerResolve, if_neg (not_not_intro hrole), if_neg (not_staleRequest hepoch), hholder]
  rfl

theorem answerResolve_of_none (hnone : holderOf s b n = none) : answerResolve h b n s = sendMsg (responseTo h 0x06 stAccess [] []) s := by
  rw [answerResolve, if_neg (not_not_intro hrole), if_neg (not_staleRequest hepoch), hnone]
  rfl

end Manager

/-! ## ROLE_CMD (R440) -/

/-- The grant of ROLE_CMD 1: domain manager, at EPOCH_BASE + 1. -/
def domainGrant (s : State) : RoleGrant :=
  { role := 1, position := 0, manager := s.moduleId, domainManager := s.moduleId, level := 2, newEpoch := (s.reg 0x310020 0 0 + 1) % 2 ^ 32, leaving := none }

/-- The grant of ROLE_CMD 2: STANDALONE at the epoch it has. -/
def leavingGrant (s : State) : RoleGrant :=
  { role := 0, position := 0, manager := 0, domainManager := s.junction.domainMgr, level := 0, newEpoch := s.junction.epoch, leaving := none }

theorem becomeManager_of_accepted (hrole : s.junction.role = .standalone) (hsealed : s.seals.getLsbD 5 = true) (hidle : s.anyLive = false) :
    becomeManager s = withChange { target := s.moduleId, grant := domainGrant s, atStep := 0 } s := by
  rw [becomeManager, if_pos ⟨hrole, hsealed, by simp [hidle]⟩]
  rfl

theorem becomeManager_of_refused (hrefused : ¬(s.junction.role = .standalone ∧ s.seals.getLsbD 5 = true ∧ s.anyLive = false)) :
    becomeManager s = refuseWrite .pf 0x310028 8 s := by
  rw [becomeManager, if_neg (by simpa using hrefused)]
  rfl

theorem leaveManager_of_accepted (hrole : s.junction.role = .manager) (hnone : s.junction.members = []) (hidle : groupLive s = false) :
    leaveManager s = withChange { target := s.moduleId, grant := leavingGrant s, atStep := 0 } s := by
  rw [leaveManager, if_pos ⟨hrole, by simp [hnone], by simp [hidle]⟩]
  rfl

theorem leaveManager_of_refused (hrefused : ¬(s.junction.role = .manager ∧ s.junction.members = [] ∧ groupLive s = false)) :
    leaveManager s = refuseWrite .pf 0x310028 8 s := by
  rw [leaveManager, if_neg (by simpa using hrefused)]
  rfl

/-! ## The commands -/

section Answering

variable (hwf : h.wf = true) (hanswers : s.answers = true)
include hwf hanswers

theorem exec_roleSet_of_answers : exec (.roleSet h g) s = .next (takeRoleSet h g s) := by
  rw [Laws.exec_roleSet hwf, Laws.whenAnswering_yes s hanswers]

theorem exec_roleAck_of_answers : exec (.roleAck h p b) s = .next (takeRoleAck h p b s) := by
  rw [Laws.exec_roleAck hwf, Laws.whenAnswering_yes s hanswers]

theorem exec_resolve_of_answers : exec (.resolve h b n) s = .next (answerResolve h b n s) := by
  rw [Laws.exec_resolve hwf, Laws.whenAnswering_yes s hanswers]

end Answering

theorem exec_becomeDomainManager_of_exposed (hexposed : s.exposed = true) : exec .becomeDomainManager s = .next (becomeManager s) := by
  rw [Laws.exec_becomeDomainManager rfl, Laws.whenExposed_yes s hexposed]

theorem exec_returnToStandalone_of_exposed (hexposed : s.exposed = true) : exec .returnToStandalone s = .next (leaveManager s) := by
  rw [Laws.exec_returnToStandalone rfl, Laws.whenExposed_yes s hexposed]

/-- Settles O50, message by message, and then the two role commands. -/
theorem rolesAreGrantedAndResolved : Obligations.RolesAreGrantedAndResolved := by
  intro h g s hwf j due granted allowed
  have hallowed : roleRefused s h g = false ↔ allowed := roleRefused_eq_false_iff
  refine ⟨fun hanswers => ?_, fun hexposed => ?_⟩
  · simp only [exec_roleSet_of_answers hwf hanswers, exec_roleAck_of_answers hwf hanswers, exec_resolve_of_answers hwf hanswers]
    refine ⟨fun hepoch => ?_, fun hepoch hgood => ?_, fun hepoch hbad => ?_, fun p b hrole => by rw [takeRoleAck_of_not_manager hrole],
      fun p hrole => ⟨?_, fun hnew hfree hpos hp => ?_⟩, fun b n hrole => by rw [answerResolve_of_not_manager hrole],
      fun b n hrole hplain hepoch => ?_, fun hrole hepoch => ⟨?_, ?_, fun p hp hnone => ?_, fun l p m r hmembers hp hfirst => ?_⟩⟩
    · rw [takeRoleSet_of_stale hepoch]
      exact ⟨_, rfl, refuseStale_staleAnswered⟩
    · rw [takeRoleSet_of_allowed hepoch (hallowed.mpr hgood)]
      exact ⟨_, rfl, Laws.sendMsg_sent _ s⟩
    · rw [takeRoleSet_of_refused hepoch (eq_true_of_ne_false (mt hallowed.mp hbad))]
      exact ⟨_, rfl, Laws.sendMsg_sent _ s⟩
    · rw [takeRoleAck_of_refused hrole]
      exact ⟨_, rfl, fun c => by simp [j], rfl⟩
    · rw [takeRoleAck_of_accepted hrole hnew hfree hpos hp]
      exact ⟨_, rfl, rfl, rfl, rfl, grantFor_role _ _ _⟩
    · rw [answerResolve_of_stale hrole hplain hepoch]
      exact ⟨_, rfl, refuseStale_staleAnswered⟩
    · rw [answerResolve_of_holder hrole hepoch (holderOf_manager_position s), hrole]
      exact ⟨_, rfl, Laws.sendMsg_sent _ s⟩
    · rw [answerResolve_of_holder hrole hepoch (holderOf_manager_module s), hrole]
      exact ⟨_, rfl, Laws.sendMsg_sent _ s⟩
    · rw [answerResolve_of_none hrole hepoch (holderOf_of_unlisted hp hnone)]
      exact ⟨_, rfl, Laws.sendMsg_sent _ s⟩
    · rw [answerResolve_of_holder hrole hepoch (holderOf_of_listed hmembers hp hfirst)]
      exact ⟨_, rfl, Laws.sendMsg_sent _ s⟩
  · rw [exec_becomeDomainManager_of_exposed hexposed, exec_returnToStandalone_of_exposed hexposed]
    refine ⟨fun hrole hsealed hidle => ?_, fun hrefused => by rw [becomeManager_of_refused hrefused], fun hrole hnone hidle => ?_,
      fun hrefused => by rw [leaveManager_of_refused hrefused]⟩
    · rw [becomeManager_of_accepted hrole hsealed hidle]
      exact ⟨_, rfl, rfl, rfl, rfl, rfl, rfl⟩
    · rw [leaveManager_of_accepted hrole hnone hidle]
      exact ⟨_, rfl, rfl, rfl⟩

end Sys2Proof.Machine
end

section
/-! PROOFS. A member of a group (R328, R329, R331, R335): what STEP_PLAN, START, ABORT and ACT do to it. -/

namespace Sys2Proof.Machine

variable {h : MsgHead} {p : PlanBody} {e : PlanEdit} {y : Step} {t b : Nat} {d : List Word32} {s x : State}

/-! ## Messages of another epoch (R335) -/

theorem takePlan_of_stale (hepoch : h.epoch ≠ s.junction.epoch) : takePlan h p s = staleCounted s :=
  if_pos (staleFor_eq_true hepoch)

theorem takeStart_of_stale (hepoch : h.epoch ≠ s.junction.epoch) : takeStart h t s = staleCounted s :=
  if_pos (staleFor_eq_true hepoch)

theorem takeAbort_of_stale (hepoch : h.epoch ≠ s.junction.epoch) : takeAbort h s = staleCounted s :=
  if_pos (staleFor_eq_true hepoch)

theorem takeAct_of_stale (hepoch : h.epoch ≠ s.junction.epoch) : takeAct h b d s = staleCounted s :=
  if_pos (staleFor_eq_true hepoch)

/-! ## A STEP fault of a port (R353) -/

theorem voidStep_faultOnly (s : State) : FaultOnly s (voidStep s) := by
  unfold voidStep
  split
  · split
    · rfl
    · rfl
  · rfl

theorem stepFault_portDomain_faultOnly (n unit cause slot detail : Nat) (s : State) :
    FaultOnly s (stepFault (portDomain n) unit cause slot detail s) :=
  (voidStep_faultOnly s).trans (chargeFault_portDomain_recordOnly 2 n unit cause slot detail _).faultOnly

/-! ## The step a message names -/

/-- The step being prepared is the one a message names. -/
def Names (h : MsgHead) (y : Step) (s : State) : Prop := s.step = some y ∧ y.started = false ∧ y.counter = h.step

theorem started_or_other (hnone : ∀ y, ¬Names h y s) (hstep : s.step = some y) : y.started = true ∨ y.counter ≠ h.step := by
  simpa [Names, hstep, or_iff_not_imp_left] using hnone y

/-- The step that a plan names is built, with its scalars in the idle bank (R143). -/
def planned (h : MsgHead) (p : PlanBody) (b c : List Scalar) (s : State) : State :=
  { s with bank0 := b, bank1 := c, bankReady := true, step := some (planStep h.step p s), junction := { s.junction with plan := some p, startAt := none } }

theorem loadScalars_planStep (h : MsgHead) (p : PlanBody) (s : State) : ∃ b c, loadScalars (planStep h.step p s)
    { s with step := some (planStep h.step p s), junction := { s.junction with plan := some p, startAt := none } } = planned h p b c s := by
  unfold loadScalars
  dsimp only
  split
  · exact ⟨_, _, rfl⟩
  · exact ⟨_, _, rfl⟩

section Current

variable (hepoch : h.epoch = s.junction.epoch)
include hepoch

theorem takeAct_of_current : takeAct h b d s = { s with staging := fmSet s.staging b d } := by
  rw [takeAct, staleFor_eq_false hepoch]
  rfl

/-! ## START (R304) -/

theorem takeStart_of_unnamed (hnone : ∀ y, ¬Names h y s) : takeStart h t s = s := by
  rw [takeStart, staleFor_eq_false hepoch, if_neg Bool.false_ne_true]
  split
  case h_1 y hstep => exact if_pos (started_or_other hnone hstep)
  case h_2 => rfl

theorem takeStart_of_named (hnamed : Names h y s) : takeStart h t s =
    if t < s.now then stepFault (portDomain 0) 0 0x01 0 0 { s with step := none, junction := { s.junction with plan := none, startAt := none } }
    else { s with junction := { s.junction with startAt := some t } } := by
  obtain ⟨hstep, hstarted, hcounter⟩ := hnamed
  simp [takeStart, staleFor_eq_false hepoch, hstep, hstarted, hcounter]

/-! ## ABORT (R332) -/

/-- The state in which an abort is counted, and with it goes the plan. -/
def aborted (s : State) : State :=
  { s with junction := { s.junction with aborts := (s.junction.aborts + 1) % 2 ^ 32, plan := none, startAt := none } }

theorem takeAbort_of_named (hnamed : Names h y s) : takeAbort h s = { aborted s with step := none } := by
  obtain ⟨hstep, hstarted, hcounter⟩ := hnamed
  simp [takeAbort, staleFor_eq_false hepoch, hstep, hstarted, hcounter, aborted]

theorem takeAbort_of_unnamed (hnone : ∀ y, ¬Names h y s) : takeAbort h s = aborted s := by
  cases hstep : s.step with
  | none => simp [takeAbort, staleFor_eq_false hepoch, hstep, aborted]
  | some y =>
    have hother : (!y.started && y.counter == h.step) = false := by
      simpa [or_iff_not_imp_left] using started_or_other hnone hstep
    simp [takeAbort, staleFor_eq_false hepoch, hstep, hother, aborted]

/-! ## STEP_PLAN (R329, R331) -/

theorem takePlan_of_ignored (hignored : s.junction.role ≠ .worker ∨ ∃ y, s.step = some y ∧ y.started = true) : takePlan h p s = s := by
  have hignored' : s.junction.role ≠ .worker ∨ (s.step.map Step.started).getD false = true := by
    refine hignored.imp_right ?_
    rintro ⟨y, hstep, hstarted⟩
    rw [hstep]
    exact hstarted
  rw [takePlan, staleFor_eq_false hepoch, if_neg Bool.false_ne_true, if_pos hignored']

/-- With its plan taken, a worker builds the step it names and reports. -/
theorem takePlan_of_worker (hrole : s.junction.role = .worker) (hidle : ∀ y, s.step = some y → y.started = false) :
    ∃ b c, takePlan h p s = sendReady h.step (planned h p b c (forEach p.edits (applyEdit p.slot) s)) := by
  have htaken : ¬(s.junction.role ≠ .worker ∨ (s.step.map Step.started).getD false = true) := by
    cases hstep : s.step with
    | none => simp [hrole]
    | some y => simp [hrole, hidle y hstep]
  obtain ⟨b, c, hloaded⟩ := loadScalars_planStep h p (forEach p.edits (applyEdit p.slot) s)
  refine ⟨b, c, ?_⟩
  rw [takePlan, staleFor_eq_false hepoch, if_neg Bool.false_ne_true, if_neg htaken, ← hloaded]

end Current

theorem ctx_rows_planStep {n : Nat} : (planStep n p s).rows.map RowPlan.ctx = p.rows.map Prod.fst := by
  simp [planStep, roundStep, planRow]

theorem startSlot_sections_planStep {n : Nat} : (planStep n p s).sections.map Placed.startSlot = p.starts := by
  simp [planStep, Function.comp_def]

/-- With its time locked a worker reports; otherwise it stays silent. -/
theorem sendReady_of_worker (hrole : s.junction.role = .worker) :
    (s.clock.timeLocked = false → sendReady t s = s) ∧
    (s.clock.timeLocked = true → Sent (messageTo s.junction.managerId 0x10 s.junction.epoch t (readyValues (ownReady s)))
      { s with junction := { s.junction with readySent := true } } (sendReady t s)) := by
  refine ⟨fun hunlocked => if_neg (by simp [hunlocked]), fun hlocked => ?_⟩
  rw [sendReady, if_pos ⟨.inl hrole, hlocked⟩]
  exact Laws.sendMsg_sent _ _

theorem sendReady_groups (t : Nat) (s : State) : (sendReady t s).groups = s.groups := by
  unfold sendReady
  split
  · exact (congrArg State.groups (sendMsg_frame _ _) :)
  · rfl

/-! ## Page edits (R329) -/

theorem group_modPool (k : Nat) (f : Pool → Pool) (s : State) (g : Nat) : (modPool k f s).group g = s.group g := by
  unfold modPool
  split
  · rfl
  · rfl

theorem group_modGroup_self (g : Nat) (f : Group → Group) (s : State) : (modGroup g f s).group g = f (s.group g) :=
  Laws.fmGet_fmModify_self _ _ _ _

theorem group_modGroup_other {g i : Nat} (f : Group → Group) (s : State) (hi : i ≠ g) : (modGroup g f s).group i = s.group i :=
  Laws.fmGet_fmModify_other _ _ _ _ hi

/-- A page allocated by an edit lies in the first free frame set of the slot's pool. -/
theorem group_applyEdit_allocated {k f : Nat} {r : List Nat} {l : Pool} (haction : e.action = 1) (hpool : fmFind s.pools k = some l)
    (hfree : l.freeSets = f :: r) :
    (applyEdit k e s).group e.lgn = { freeGroup with refs := 1, residence := .t0, slot := k, frameSet := f } := by
  simp only [applyEdit, haction, hpool, hfree, if_true]
  exact (group_modPool k _ _ e.lgn).trans (Laws.fmGet_fmSet_self _ _ _ _)

theorem group_applyEdit_sealed {k : Nat} (haction : e.action = 2) :
    (applyEdit k e s).group e.lgn = { s.group e.lgn with sealed := true, fill := e.fill } := by
  simp [applyEdit, haction, group_modGroup_self]

theorem group_applyEdit_released {k : Nat} (haction : e.action = 3) : (applyEdit k e s).group e.lgn = { s.group e.lgn with refs := 0 } := by
  simp only [applyEdit, haction]
  exact group_modGroup_self e.lgn _ _

/-- An edit touches the group it names alone. -/
theorem group_applyEdit_other {k g : Nat} (hg : g ≠ e.lgn) : (applyEdit k e s).group g = s.group g := by
  unfold applyEdit
  dsimp only
  split
  · split
    · split
      · exact (group_modPool k _ _ g).trans (Laws.fmGet_fmSet_other _ _ _ hg)
      · exact group_modPool k _ s g
    · rfl
  · split
    · exact group_modGroup_other _ s hg
    · split
      · exact group_modGroup_other _ _ hg
      · split
        · rfl
        · rfl

theorem group_sendReady_planned (n g : Nat) (a c : List Scalar) : (sendReady n (planned h p a c s)).group g = s.group g :=
  congrArg (fmGet · g freeGroup) (sendReady_groups n (planned h p a c s))

/-! ## The commands -/

section Serving

variable (hwf : h.wf = true) (hserving : s.serving = true)
include hwf hserving

theorem exec_stepPlan_of_serving : exec (.stepPlan h p) s = .next (takePlan h p s) := by
  rw [Laws.exec_stepPlan hwf, Laws.whenServing_yes s hserving]

theorem exec_start_of_serving : exec (.start h t) s = .next (takeStart h t s) := by
  rw [Laws.exec_start hwf, Laws.whenServing_yes s hserving]

theorem exec_abort_of_serving : exec (.abort h) s = .next (takeAbort h s) := by
  rw [Laws.exec_abort hwf, Laws.whenServing_yes s hserving]

theorem exec_act_of_serving : exec (.act h b d) s = .next (takeAct h b d s) := by
  rw [Laws.exec_act hwf, Laws.whenServing_yes s hserving]

end Serving

/-- Settles O51, message by message, and then by the step it names. -/
theorem membersFollowPlanStartAndAbort : Obligations.MembersFollowPlanStartAndAbort := by
  intro h s hwf hserving j named aborted'
  simp only [exec_stepPlan_of_serving hwf hserving, exec_start_of_serving hwf hserving, exec_abort_of_serving hwf hserving,
    exec_act_of_serving hwf hserving]
  refine ⟨fun hepoch => ⟨fun p => by rw [takePlan_of_stale hepoch], fun t => by rw [takeStart_of_stale hepoch], by rw [takeAbort_of_stale hepoch],
      fun b d => by rw [takeAct_of_stale hepoch]⟩,
    fun hepoch => ⟨fun p hignored => by rw [takePlan_of_ignored hepoch hignored], fun p hrole hidle => ⟨_, rfl, fun hnone => ?_, fun e hone => ?_⟩,
      fun t hnone => by rw [takeStart_of_unnamed hepoch hnone], fun y t hnamed hearly => ?_, fun y t hnamed hlate => ?_,
      fun y hnamed => by rw [takeAbort_of_named hepoch hnamed, aborted], fun hnone => by rw [takeAbort_of_unnamed hepoch hnone, aborted],
      fun b d => by rw [takeAct_of_current hepoch]⟩⟩
  · obtain ⟨b, c, htaken⟩ := takePlan_of_worker (p := p) hepoch hrole hidle
    rw [htaken, hnone]
    exact ⟨planStep h.step p s, b, c, rfl, rfl, rfl, rfl, rfl, rfl, ctx_rows_planStep, startSlot_sections_planStep,
      sendReady_of_worker (s := planned h p b c s) hrole⟩
  · obtain ⟨b, c, htaken⟩ := takePlan_of_worker (p := p) hepoch hrole hidle
    rw [htaken, hone]
    have hedited (g : Nat) : (sendReady h.step (planned h p b c (forEach [e] (applyEdit p.slot) s))).group g = (applyEdit p.slot e s).group g :=
      group_sendReady_planned h.step g b c
    simp only [hedited]
    exact ⟨fun l f r haction hpool hfree => group_applyEdit_allocated haction hpool hfree, group_applyEdit_sealed, group_applyEdit_released,
      fun g hg => group_applyEdit_other hg⟩
  · rw [takeStart_of_named hepoch hnamed, if_neg (Nat.not_lt.mpr hearly)]
  · rw [takeStart_of_named hepoch hnamed, if_pos hlate]
    exact ⟨_, rfl, stepFault_portDomain_faultOnly _ _ _ _ _ _⟩

end Sys2Proof.Machine
end

section
/-! PROOFS. The phases of an evacuation (R338 to R341): what an EVACUATE does at the manager, at the worker and at the spare. -/

namespace Sys2Proof.Machine

variable {h : MsgHead} {w p n : Nat} {m k l : Member} {s : State}

/-! ## At the manager (R338, R340) -/

/-- The first entry of the member table whose module sent the message. -/
theorem find?_source {a b : List (Nat × Member)} (hmembers : s.junction.members = a ++ (n, m) :: b) (hid : m.id = h.source)
    (hfirst : ∀ y ∈ a, y.2.id ≠ h.source) : s.junction.members.find? (fun m => m.2.id == h.source) = some (n, m) :=
  List.find?_eq_some_iff_append.mpr ⟨beq_iff_eq.mpr hid, a, b, hmembers, by simpa using hfirst⟩

/-- A message from no member of the group has no effect. -/
theorem evacAtManager_of_stranger (hstranger : ∀ m ∈ s.junction.members, m.2.id ≠ h.source) (q : Nat) : evacAtManager h q s = s := by
  have hnone : s.junction.members.find? (fun m => m.2.id == h.source) = none := by simpa [List.find?_eq_none] using hstranger
  simp [evacAtManager, hnone]

section Member

variable (hfound : s.junction.members.find? (fun m => m.2.id == h.source) = some (n, m))
include hfound

theorem evacAtManager_request_queued (hnew : n ∉ s.junction.evacQueue) (hidle : ¬(s.junction.evacState ≠ 0 ∧ s.junction.evacWorker = n)) :
    evacAtManager h 1 s = { s with junction := { s.junction with evacQueue := s.junction.evacQueue ++ [n] } } := by
  simp [evacAtManager, hfound, hnew, hidle]

theorem evacAtManager_request_known (hknown : n ∈ s.junction.evacQueue ∨ (s.junction.evacState ≠ 0 ∧ s.junction.evacWorker = n)) :
    evacAtManager h 1 s = s := by
  simp [evacAtManager, hfound, hknown]

/-- A request that is called off before it is answered leaves the queue. -/
theorem evacAtManager_cancel_queued (hidle : ¬(s.junction.evacState ≠ 0 ∧ s.junction.evacWorker = n)) :
    evacAtManager h 0 s = { s with junction := { s.junction with evacQueue := s.junction.evacQueue.filter (· != n) } } := by
  simp [evacAtManager, hfound, hidle]

/-- The manager holds its steps for the switchover (R340). -/
def switchoverOrdered (s : State) : State :=
  { s with junction := { s.junction with evacState := 3, paused := true, plan := none } }

/-- The report of every sealed group copied brings the switchover order to both sides. -/
theorem evacAtManager_copied (hnone : s.step = none) (hstate : s.junction.evacState = 2) (hworker : s.junction.evacWorker = n)
    (hmember : memberAt s n = some k) (hspare : memberAt s s.junction.evacSpare = some l) : evacAtManager h 3 s =
      evacMessage l.id 4 k.id l.id l.epoch (evacMessage k.id 4 k.id l.id k.epoch (switchoverOrdered s)) := by
  rw [memberAt] at hmember hspare
  simp [evacAtManager, hfound, hnone, hstate, hworker, memberAt, hmember, hspare, switchoverOrdered]

theorem evacAtManager_acknowledged (hstate : s.junction.evacState = 3) (hworker : s.junction.evacWorker = n) :
    evacAtManager h 5 s = { s with junction := { s.junction with switchover := true } } := by
  simp [evacAtManager, hfound, hstate, hworker]

end Member

/-! ## At the worker (R339, R341) -/

theorem evacAtWorker_cancel : evacAtWorker 0 p s = endEvac s := rfl

theorem evacAtWorker_copy (hstate : s.junction.evacState = 1) : evacAtWorker 2 p s =
    { s with junction := { s.junction with evacState := 2, evacPeer := p, sentGroups := [], unacked := [], reported := false } } := by
  simp [evacAtWorker, hstate]

theorem evacAtWorker_copy_ignored (hstate : s.junction.evacState ≠ 1) : evacAtWorker 2 p s = s := by
  simp [evacAtWorker, hstate]

/-- With nothing left to send or to be acknowledged, the order to switch over is answered at once (R341). -/
theorem evacAtWorker_switchover (hrole : s.junction.role = .worker) (hstate : s.junction.evacState = 2) (hgroups : s.groups = []) (hacked : s.junction.unacked = []) :
    Sent (messageTo s.junction.managerId 0x08 s.junction.managerEpoch 0 [5, s.moduleId, s.junction.evacPeer])
      { s with junction := { s.junction with evacState := 3 } } (evacAtWorker 4 p s) := by
  have hdone : evacAtWorker 4 p s = reportDone { s with junction := { s.junction with evacState := 3 } } := by
    simp [evacAtWorker, hstate, unsent, hgroups, forEach]
  rw [hdone]
  exact reportDone_sent (s := { s with junction := { s.junction with evacState := 3 } }) hrole rfl hacked

/-! ## At the spare (R341) -/

/-- A group whose references are all gone. -/
def releaseGroup (g : Nat) (s : State) : State := modGroup g (fun x => { x with refs := 0 }) s

theorem refs_releaseGroup (g i : Nat) (s : State) : ((releaseGroup g s).group i).refs = if i = g then 0 else (s.group i).refs := by
  by_cases hi : i = g
  · rw [if_pos hi, hi, releaseGroup, group_modGroup_self]
  · rw [if_neg hi, releaseGroup, group_modGroup_other _ s hi]

theorem forEach_releaseGroup_frame (l : List Nat) (s : State) : forEach l releaseGroup s = { s with groups := (forEach l releaseGroup s).groups } := by
  induction l generalizing s with
  | nil => rfl
  | cons a l ih => exact (ih (releaseGroup a s) :)

theorem refs_forEach_releaseGroup (l : List Nat) (i : Nat) (s : State) :
    ((forEach l releaseGroup s).group i).refs = if i ∈ l then 0 else (s.group i).refs := by
  induction l generalizing s with
  | nil => rfl
  | cons a l ih =>
    have hrest : ((forEach (a :: l) releaseGroup s).group i).refs = if i ∈ l then 0 else ((releaseGroup a s).group i).refs := ih (releaseGroup a s)
    rw [hrest, refs_releaseGroup]
    by_cases hi : i ∈ l
    · simp [hi]
    · simp [hi]

/-- A spare that is told of a cancel has released what it had filled, and nothing else. -/
theorem releaseFilled_frame (s : State) : releaseFilled s = { s with
    groups := (releaseFilled s).groups,
    junction := { s.junction with evacState := 0, evacPeer := 0, sentGroups := [], unacked := [], reported := false } } :=
  (congrArg (fun z : State => { z with
    junction := { z.junction with evacState := 0, evacPeer := 0, sentGroups := [], unacked := [], reported := false } })
    (forEach_releaseGroup_frame s.junction.sentGroups s) :)

theorem refs_releaseFilled (i : Nat) (s : State) :
    ((releaseFilled s).group i).refs = if i ∈ s.junction.sentGroups then 0 else (s.group i).refs :=
  refs_forEach_releaseGroup s.junction.sentGroups i s

theorem evacAtSpare_cancel : evacAtSpare 0 w s = releaseFilled s := rfl

theorem evacAtSpare_copy (hblocks : s.blocks = []) : evacAtSpare 2 w s =
    { s with junction := { s.junction with evacState := 2, evacPeer := w, sentGroups := [] } } := by
  simp [evacAtSpare, promoteGroup, hblocks, forEach]

theorem evacAtSpare_switchover : evacAtSpare 4 w s = { s with junction := { s.junction with evacState := 3 } } := rfl

/-! ## The command -/

section Serving

variable (hwf : h.wf = true) (hserving : s.serving = true)
include hwf hserving

theorem exec_evacuate_of_stale (hepoch : h.epoch ≠ s.junction.epoch) (q : Nat) : exec (.evacuate h q w p) s = .next (refuseStale h s) := by
  rw [Laws.exec_evacuate hwf, Laws.whenServing_yes s hserving, takeEvacuate, if_pos (staleFor_eq_true hepoch)]

variable (hepoch : h.epoch = s.junction.epoch) (q : Nat)
include hepoch

theorem exec_evacuate_of_standalone (hrole : s.junction.role = .standalone) : exec (.evacuate h q w p) s = .next s := by
  simp [Laws.exec_evacuate hwf, Laws.whenServing_yes s hserving, takeEvacuate, staleFor_eq_false hepoch, hrole]

theorem exec_evacuate_of_manager (hrole : s.junction.role = .manager) : exec (.evacuate h q w p) s = .next (evacAtManager h q s) := by
  simp [Laws.exec_evacuate hwf, Laws.whenServing_yes s hserving, takeEvacuate, staleFor_eq_false hepoch, hrole]

theorem exec_evacuate_of_worker (hrole : s.junction.role = .worker) : exec (.evacuate h q w p) s = .next (evacAtWorker q p s) := by
  simp [Laws.exec_evacuate hwf, Laws.whenServing_yes s hserving, takeEvacuate, staleFor_eq_false hepoch, hrole]

theorem exec_evacuate_of_spare (hrole : s.junction.role = .spare) : exec (.evacuate h q w p) s = .next (evacAtSpare q w s) := by
  simp [Laws.exec_evacuate hwf, Laws.whenServing_yes s hserving, takeEvacuate, staleFor_eq_false hepoch, hrole]

end Serving

/-- Settles O53, by the module's role, and then by the phase. -/
theorem evacuationMessagesMoveThePhases : Obligations.EvacuationMessagesMoveThePhases := by
  intro h w p s hwf hserving j go
  refine ⟨fun hepoch k => ⟨_, exec_evacuate_of_stale hwf hserving hepoch k, refuseStale_staleAnswered⟩,
    fun hepoch => ⟨fun hrole k => exec_evacuate_of_standalone hwf hserving hepoch k hrole, fun hrole hstranger k => ?_,
      fun a n m b hrole hmembers hid hfirst => ?_, fun hrole => ?_, fun hrole => ?_⟩⟩
  · exact (exec_evacuate_of_manager hwf hserving hepoch k hrole).trans (congrArg _ (evacAtManager_of_stranger hstranger k))
  · have hfound := find?_source hmembers hid hfirst
    have hgo (k : Nat) {x : State} (hx : evacAtManager h k s = x) : go k x := hx ▸ exec_evacuate_of_manager hwf hserving hepoch k hrole
    exact ⟨fun hnew hidle => hgo 1 (evacAtManager_request_queued hfound hnew hidle), fun hknown => hgo 1 (evacAtManager_request_known hfound hknown),
      fun hidle => ⟨_, hgo 0 (evacAtManager_cancel_queued hfound hidle), fun i => by simp [j], rfl⟩,
      fun k l hnone hstate hworker hmember hspare => ⟨_, _, hgo 3 (evacAtManager_copied hfound hnone hstate hworker hmember hspare),
        evacMessage_sent _ _ _ _ _ _, evacMessage_sent _ _ _ _ _ _⟩,
      fun hstate hworker => hgo 5 (evacAtManager_acknowledged hfound hstate hworker)⟩
  · have hgo (k : Nat) {x : State} (hx : evacAtWorker k p s = x) : go k x := hx ▸ exec_evacuate_of_worker hwf hserving hepoch k hrole
    exact ⟨hgo 0 evacAtWorker_cancel, fun hstate => hgo 2 (evacAtWorker_copy hstate), fun hstate => hgo 2 (evacAtWorker_copy_ignored hstate),
      fun hstate hgroups hacked => ⟨_, hgo 4 rfl, evacAtWorker_switchover hrole hstate hgroups hacked⟩⟩
  · have hgo (k : Nat) {x : State} (hx : evacAtSpare k w s = x) : go k x := hx ▸ exec_evacuate_of_spare hwf hserving hepoch k hrole
    exact ⟨⟨_, hgo 0 evacAtSpare_cancel, fun g => refs_releaseFilled g s, rfl, rfl, releaseFilled_frame s⟩,
      fun hblocks => hgo 2 (evacAtSpare_copy hblocks), hgo 4 evacAtSpare_switchover⟩

end Sys2Proof.Machine
end

section
/-! PROOFS. The remote-access mailbox (R320, R325, R335, R336, R439, R441): an access that is sent, the response that ends it, its one
repetition, and its failure. -/

namespace Sys2Proof.Machine

variable {h : MsgHead} {o : Outstanding} {r : List Outstanding} {d e i n status : Nat} {retried : Bool} {bs : List Byte} {s : State}

/-! ## An access is sent (R320, R439) -/

/-- A request of an operation is outstanding, under the next tag (R320). -/
def requestHeld (d op : Nat) (retried : Bool) (s : State) : State :=
  { s with junction := { s.junction with
    nextTag := (s.junction.nextTag + 1) % 65536,
    outstanding := s.junction.outstanding ++ [{ destination := d, tag := s.junction.nextTag, op := op, resolving := false, retried := retried }] } }

theorem holdRequest_of_room (hroom : (s.junction.outstanding.filter fun o => o.destination == d).length < 4096) (op : Nat) :
    holdRequest d op retried s = some (s.junction.nextTag, requestHeld d op retried s) :=
  if_neg (Nat.not_le.mpr hroom)

/-- An access that has a route and waits for a response is held and sent. -/
theorem sendRa_of_routed (hother : d ≠ s.moduleId) (hroute : (routePort s s.moduleId d).isSome = true)
    (hanswered : gaPosted (raAddr s) = false ∨ raOp s = 1) (hroom : (s.junction.outstanding.filter fun o => o.destination == d).length < 4096) :
    sendRa d e retried s = sendMsg (raMessage s d s.junction.nextTag e) (requestHeld d (raOp s) retried s) := by
  have hwaits : ¬(gaPosted (raAddr s) = true ∧ raOp s ≠ 1) := by
    rcases hanswered with hposted | hread
    · simp [hposted]
    · simp [hread]
  rw [sendRa, if_neg hother, if_neg (by simp [Option.isSome_iff_ne_none.mp hroute]), if_neg hwaits, holdRequest_of_room hroom]
  rfl

/-- Without a route an access fails with its sending. -/
theorem sendRa_of_unrouted (hother : d ≠ s.moduleId) (hroute : routePort s s.moduleId d = none) :
    sendRa d e retried s = finishRa stAccess none (sendMsg (raMessage s d 0 e) s) := by
  simp [sendRa, hother, hroute]

/-! ## RA_GO (R439) -/

theorem goRa_of_busy (hbusy : s.junction.raBusy = true) : goRa s = refuseWrite .pf 0x31400C 8 s :=
  if_pos hbusy

theorem goRa_of_no_access (hidle : s.junction.raBusy = false) (hnone : raOp s = 0) : goRa s = s := by
  simp [goRa, hidle, hnone]

/-- The mailbox is busy with a new access. -/
def raBegun (s : State) : State := { s with junction := { s.junction with raBusy := true, raTimeout := false } }

theorem goRa_of_access (hidle : s.junction.raBusy = false) (hop : raOp s ≠ 0) : goRa s = sendRa (gaModule (raAddr s)) 0 false (raBegun s) := by
  simp [goRa, hidle, hop, raBegun]

/-! ## Responses (R320, R336, R441) -/

theorem takeResponse_of_retired (hnone : requestOf s h.source h.tag = none) : takeResponse h status bs s = s := by
  rw [takeResponse, hnone]

/-- The mailbox is free again, with a status and what RA_DATA then holds (R441). -/
def raEnded (status : Nat) (data : List Byte) (s : State) : State :=
  { s with junction := { s.junction with raBusy := false, raStatus := status, raData := data } }

/-- The bytes of a READ that succeeded lie over RA_DATA; nothing else changes it. -/
theorem finishRa_read (p : Prop) [Decidable p] : finishRa status (if p then some bs else none) s =
    raEnded status (if p then bs ++ s.junction.raData.drop bs.length else s.junction.raData) s := by
  by_cases hp : p
  · simp only [finishRa, raEnded, hp, if_true]
  · simp only [finishRa, raEnded, hp, if_false]

section Found

variable (hfound : requestOf s h.source h.tag = some o)
include hfound

theorem takeResponse_of_answer (hmailbox : o.op ≠ 4) (hstatus : status ≠ stRoleStale) : takeResponse h status bs s =
    finishRa status (if o.op = 1 ∧ status = stOk then some bs else none) (retireRequest o s) := by
  simp only [takeResponse, hfound, hmailbox, hstatus, if_false]

/-- A second refusal fails the access (R336). -/
theorem takeResponse_of_second_refusal (hmailbox : o.op ≠ 4) (hretried : o.retried = true) :
    takeResponse h stRoleStale bs s = finishRa stAccess none (retireRequest o s) := by
  simp [takeResponse, hfound, refused, hretried, failRequest, hmailbox]

/-- A request waits for the holder's name. -/
def resolving (o : Outstanding) (s : State) : State :=
  { retireRequest o s with junction := { (retireRequest o s).junction with
    resolves := (s.junction.resolves + 1) % 2 ^ 32, outstanding := (retireRequest o s).junction.outstanding ++ [{ o with resolving := true }] } }

/-- The first refusal asks the resolver for the holder (R336). -/
theorem takeResponse_of_first_refusal (hfirst : o.retried = false) (hrole : s.junction.role ≠ .manager) : takeResponse h stRoleStale bs s =
    sendMsg { kind := 0x05, destination := resolver s, tag := o.tag, epoch := 0, status := 0, address := 0, values := [1, o.destination], data := [] }
      (resolving o s) := by
  rw [takeResponse, hfound]
  dsimp only
  rw [if_pos rfl, refused, if_neg (by simp [hfirst]), if_neg hrole]
  rfl

end Found

/-! ## Timeouts (R320) -/

theorem timeoutRequest_of_none (hnone : ∀ o ∈ s.junction.outstanding, ¬(o.destination = d ∧ o.tag = n)) : timeoutRequest d n s = s := by
  have hfind : s.junction.outstanding.find? (fun o => o.destination == d && o.tag == n) = none := by
    simpa [List.find?_eq_none] using hnone
  rw [timeoutRequest, hfind]

theorem timeoutRequest_of_first (hlisted : s.junction.outstanding = o :: r) (hdestination : o.destination = d) (htag : o.tag = n) (hmailbox : o.op ≠ 4) :
    timeoutRequest d n s = { finishRa stAccess none (retireRequest o s) with
      junction := { (finishRa stAccess none (retireRequest o s)).junction with raTimeout := true } } := by
  simp only [timeoutRequest, hlisted, List.find?_cons, hdestination, htag, beq_self_eq_true, Bool.and_self, hmailbox, if_false]

/-! ## RESOLVE_REPLY (R336) -/

theorem takeResolve_of_none {found : Bool} (hnone : ∀ o ∈ s.junction.outstanding, o.resolving = false ∨ o.tag ≠ h.tag) :
    takeResolve h i e found s = s := by
  have hfind : s.junction.outstanding.find? (fun o => o.resolving && o.tag == h.tag) = none := by
    simpa [List.find?_eq_none, or_iff_not_imp_left] using hnone
  rw [takeResolve, hfind]

section Resolving

variable (hlisted : s.junction.outstanding = o :: r) (hresolving : o.resolving = true) (htag : o.tag = h.tag) (hmailbox : o.op ≠ 4)
include hlisted hresolving htag hmailbox

/-- An unknown holder fails the access. -/
theorem takeResolve_of_unknown : takeResolve h i e false s = finishRa stAccess none (retireRequest o s) := by
  simp [takeResolve, hlisted, hresolving, htag, failRequest, hmailbox]

/-- A holder that is named is sent the access once more. -/
theorem takeResolve_of_known : takeResolve h i e true s = sendRa i e true (retireRequest o s) := by
  simp [takeResolve, hlisted, hresolving, htag, resend, hmailbox]

end Resolving

/-- The repeated access takes the place of the only request. -/
theorem requestHeld_of_only (hlisted : s.junction.outstanding = [o]) (op : Nat) (retried : Bool) : requestHeld d op retried (retireRequest o s) =
    { s with junction := { s.junction with
      nextTag := (s.junction.nextTag + 1) % 65536,
      outstanding := [{ destination := d, tag := s.junction.nextTag, op := op, resolving := false, retried := retried }] } } := by
  simp [requestHeld, retireRequest, hlisted]

/-- It is sent to the module and with the epoch that were named. -/
theorem sendRa_of_only (hlisted : s.junction.outstanding = [o]) (hother : d ≠ s.moduleId) (hroute : (routePort s s.moduleId d).isSome = true)
    (hanswered : gaPosted (raAddr s) = false) : sendRa d e true (retireRequest o s) =
      sendMsg (raMessage s d s.junction.nextTag e) (requestHeld d (raOp s) true (retireRequest o s)) := by
  have hempty : (retireRequest o s).junction.outstanding = [] := by simp [retireRequest, hlisted]
  rw [sendRa_of_routed (s := retireRequest o s) hother hroute (.inl hanswered) (by simp [hempty])]
  rfl

/-! ## The commands -/

theorem exec_raGo_of_exposed (hexposed : s.exposed = true) : exec .raGo s = .next (goRa s) := by
  rw [Laws.exec_raGo rfl, Laws.whenExposed_yes s hexposed]

section Answering

variable (hanswers : s.answers = true)
include hanswers

theorem exec_requestTimeout_of_answers : exec (.requestTimeout d n) s = .next (timeoutRequest d n s) := by
  rw [Laws.exec_requestTimeout rfl, Laws.whenAnswering_yes s hanswers]

variable (hwf : h.wf = true)
include hwf

theorem exec_readData_of_answers : exec (.readData h status bs) s = .next (takeResponse h status bs s) := by
  rw [Laws.exec_readData hwf, Laws.whenAnswering_yes s hanswers]

theorem exec_writeAck_of_answers : exec (.writeAck h status) s = .next (takeResponse h status [] s) := by
  rw [Laws.exec_writeAck hwf, Laws.whenAnswering_yes s hanswers]

theorem exec_resolveReply_of_answers {found : Bool} : exec (.resolveReply h i e found) s = .next (takeResolve h i e found s) := by
  rw [Laws.exec_resolveReply hwf, Laws.whenAnswering_yes s hanswers]

end Answering

/-- Settles O56, by the event: RA_GO, a response, a timeout and a RESOLVE_REPLY, and then by the request it is about. -/
theorem mailboxAccessesCompleteOrFail : Obligations.MailboxAccessesCompleteOrFail := by
  intro h s hwf j dest ended without
  refine ⟨fun hexposed => ?_, fun hanswers => ?_⟩
  · rw [exec_raGo_of_exposed hexposed]
    refine ⟨fun hbusy => by rw [goRa_of_busy hbusy], fun hidle hnone => by rw [goRa_of_no_access hidle hnone],
      fun hidle hop hother hroute hanswered hroom => ?_, fun hidle hop hother hroute => ?_⟩
    · rw [goRa_of_access hidle hop, sendRa_of_routed (d := gaModule (raAddr s)) (s := raBegun s) hother hroute hanswered hroom]
      exact ⟨_, rfl, Laws.sendMsg_sent _ _⟩
    · rw [goRa_of_access hidle hop, sendRa_of_unrouted (d := gaModule (raAddr s)) (s := raBegun s) hother hroute]
      have hdata : (sendMsg (raMessage s dest 0 0) (raBegun s)).junction.raData = j.raData :=
        (congrArg (fun x : State => x.junction.raData) (sendMsg_frame (raMessage s dest 0 0) (raBegun s)) :)
      refine ⟨_, _, rfl, Laws.sendMsg_sent (raMessage s dest 0 0) (raBegun s), ?_⟩
      rw [← hdata]
      rfl
  · simp only [exec_readData_of_answers hanswers hwf, exec_writeAck_of_answers hanswers hwf, exec_requestTimeout_of_answers hanswers,
      exec_resolveReply_of_answers hanswers hwf]
    refine ⟨fun status bs hnone => by simp only [takeResponse_of_retired hnone, and_self], fun o status bs hfound hmailbox => ⟨fun hstatus => ?_,
        fun hstatus hop => ?_, fun hretried => ?_, fun hfirst hrole => ?_⟩,
      fun d n hnone => by rw [timeoutRequest_of_none hnone], fun d n o r hlisted hdestination htag hmailbox => ?_,
      fun i e found hnone => by rw [takeResolve_of_none hnone], fun i e o r hlisted hresolving htag hmailbox => ⟨?_, fun hother hroute hanswered hone => ?_⟩⟩
    · rw [takeResponse_of_answer hfound hmailbox hstatus, finishRa_read]
      rfl
    · rw [takeResponse_of_answer hfound hmailbox hstatus, finishRa_read, if_neg fun h => hop h.1]
      rfl
    · simp only [takeResponse_of_second_refusal hfound hmailbox hretried]
      exact ⟨rfl, rfl⟩
    · simp only [takeResponse_of_first_refusal hfound hfirst hrole]
      exact ⟨_, _, rfl, rfl, rfl, Laws.sendMsg_sent _ _⟩
    · rw [timeoutRequest_of_first hlisted hdestination htag hmailbox]
      exact ⟨_, rfl, rfl⟩
    · rw [takeResolve_of_unknown hlisted hresolving htag hmailbox]
      rfl
    · rw [takeResolve_of_known hlisted hresolving htag hmailbox]
      subst hone
      rw [sendRa_of_only hlisted hother hroute hanswered, requestHeld_of_only hlisted]
      exact ⟨_, rfl, Laws.sendMsg_sent _ _⟩

end Sys2Proof.Machine
end

section
/-! PROOFS. A well-formed state (R244, R343, R344): reset has the form, and every command and every slot of device time keeps it. -/

namespace Sys2Proof.Machine

open Laws (Lasting Kept Entered Committed)

variable {c : Instr} {f : State → State} {s x t : State}

/-- Settles O4: nothing is listed in any memory of the reset state, and its clock stands at 0. -/
theorem resetIsFormed : Obligations.ResetIsFormed :=
  ⟨⟨rfl, rfl, rfl⟩, Nat.two_pow_pos 112, Nat.zero_lt_succ 5⟩

/-! ## Commands that may reset (chapter 16) -/

theorem whenOn_lasting (h : Lasting s (f s)) : Lasting s (whenOn f s) :=
  Laws.ite_lasting h (.refl s)

theorem whenAnswering_lasting (h : Lasting s (f s)) : Lasting s (whenAnswering f s) :=
  Laws.ite_lasting h (.refl s)

/-- A command that has taken effect was well formed, so what its effect keeps, the command keeps. -/
theorem formed_of_effect (hexec : c.wf = true → exec c s = .next x) (hx : Lasting s x) (h : exec c s = .next t)
    (hc : isCxlMem c = false := by rfl) : Formed s → Formed t := by
  cases hwf : c.wf with
  | false =>
    obtain ⟨-, hfault, -⟩ := wellFormedCommandsComplete c s
    cases (hfault hc hwf).symm.trans h
  | true =>
    cases (hexec hwf).symm.trans h
    exact hx.2

/-- A life-cycle command keeps the form, whether it is refused or makes its transition. -/
theorem formed_of_transition {l : List LifeCycle} {b : LifeCycle} (h : Kept s t ∨ Entered l b s t) : Formed s → Formed t := by
  rcases h with hkept | ⟨-, -, -, -, -, -, -, hform⟩
  · exact hkept.2.2
  · exact hform

/-- Resets, boot and power events, register writes and the signed commands that reset keep the form. -/
theorem exec_formed_of_mayReset (hr : mayReset c = true) (h : exec c s = .next t) : Formed s → Formed t := by
  cases c with
  | coldReset cause => exact formed_of_effect Laws.exec_coldReset (whenOn_lasting (Laws.requestCold_lasting (.refl s))) h
  | warmReset cause => exact formed_of_effect Laws.exec_warmReset (whenAnswering_lasting (Laws.requestWarm_lasting (.refl s))) h
  | functionLevelReset u => exact formed_of_effect Laws.exec_functionLevelReset (whenAnswering_lasting (Laws.resetFunction_lasting (.refl s))) h
  | powerOn held => exact formed_of_effect Laws.exec_powerOn (Laws.ite_lasting (.refl s) (Laws.powerUp_lasting (.refl s))) h
  | powerLoss => exact formed_of_effect Laws.exec_powerLoss (whenOn_lasting (Laws.losePower_lasting (.refl s))) h
  | perstDeassert => exact formed_of_effect Laws.exec_perstDeassert (whenOn_lasting (Laws.deassertPerst_lasting (.refl s))) h
  | trainingComplete w r cache => exact formed_of_effect Laws.exec_trainingComplete (whenAnswering_lasting (Laws.completeTraining_lasting (.refl s))) h
  | wipeDone => exact formed_of_effect Laws.exec_wipeDone (whenAnswering_lasting (Laws.finishWipe_lasting (.refl s))) h
  | registerWrite p o n v => exact formed_of_effect Laws.exec_registerWrite (whenAnswering_lasting (Laws.hostWriteRegister_lasting (.refl s))) h
  | sidebandColdReset => exact formed_of_effect Laws.exec_sidebandColdReset (whenOn_lasting (Laws.requestCold_lasting (.refl s))) h
  | sidebandWarmReset => exact formed_of_effect Laws.exec_sidebandWarmReset (whenOn_lasting (Laws.requestWarm_lasting (.refl s))) h
  | provision k => exact formed_of_transition (Laws.execProvision_cases h)
  | activate k => exact formed_of_transition (Laws.execActivate_cases h)
  | deactivate k => exact formed_of_transition (Laws.execDeactivate_cases h)
  | debugEnter k => exact formed_of_transition (Laws.execDebugEnter_cases h)
  | debugExit k => exact formed_of_transition (Laws.execDebugExit_cases h)
  | rmaEnter k => exact formed_of_transition (Laws.execRmaEnter_cases h)
  | rmaExit k => exact formed_of_transition (Laws.execRmaExit_cases h)
  | retire k => exact formed_of_transition (Laws.execRetire_cases h)
  | fwUpdate k b => exact (Laws.execFwUpdate_lasting h).2
  | _ => cases hr

/-! ## Commands that set a fuse or a seal -/

theorem exec_formed_of_mayFuse (hf : mayFuse c = true) (h : exec c s = .next t) : Formed s → Formed t := by
  cases c with
  | sealSet bits => exact formed_of_effect Laws.exec_sealSet (whenAnswering_lasting (Laws.setSeals_lasting (.refl s))) h
  | commitSvn k =>
    rcases Laws.execCommitSvn_cases h with hkept | ⟨-, -, -, -, -, -, -, -, -, -, hform⟩
    · exact hkept.2.2
    · exact hform
  | _ => cases hf

/-! ## Every step -/

/-- Every command keeps the form: one that may reset, one that may fuse, or one that leaves both as they were. -/
theorem exec_formed (h : exec c s = .next t) : Formed s → Formed t := by
  by_cases hr : mayReset c = true
  · exact exec_formed_of_mayReset hr h
  by_cases hf : mayFuse c = true
  · exact exec_formed_of_mayFuse hf h
  · exact (Laws.exec_lived h (Bool.eq_false_iff.mpr hr) (Bool.eq_false_iff.mpr hf)).2.2

/-- A slot of device time keeps the form: the count is taken modulo 2^112, the phase modulo 6. -/
theorem idle_formed : Formed s → Formed (idle s) := (Laws.passAclk_kept (.refl s)).2.2

/-- Settles O5, by whether a command waits: an empty queue passes a slot of device time, a waiting command has its effect on a
state that differs in the queue alone. -/
theorem everyStepKeepsTheForm : Obligations.EveryStepKeepsTheForm := by
  intro s t hformed hstep
  cases hqueue : s.pending with
  | nil =>
    rw [step_of_pending_nil hqueue] at hstep
    cases hstep
    exact idle_formed hformed
  | cons c r =>
    rw [step_of_pending_cons hqueue] at hstep
    exact exec_formed hstep hformed

end Sys2Proof.Machine
end

section
/-! PROOFS. Reference, pulse and TIME_SET (R344 to R346, R350): when REF_IN steers, what its loss leaves, one pulse a second, and who may
set the time. -/

namespace Sys2Proof.Machine

variable {p : Int} {v : Nat} {s : State}

/-- The module's counter is its own to steer: a STANDALONE, or a MANAGER at level 2, the time root (R345, R348). -/
theorem ownTime_iff : ownTime s = true ↔ s.junction.role = .standalone ∨ (s.junction.role = .manager ∧ s.junction.level = 2) := by
  simp [ownTime]

theorem anyLive_iff : s.anyLive = true ↔ ∃ c ∈ s.ctxs, c.2.state.live = true := by
  simp [State.anyLive]

/-! ## REF_IN (R345) -/

/-- Steering reaches over 50 ppm each way (R344). -/
theorem clamp_ppm (p : Int) : max (-50000) (min 50000 p) = if p < -50000 then -50000 else if 50000 < p then 50000 else p := by
  split
  · omega
  · split <;> omega

theorem lockRef_of_steering (henabled : s.reg 0x10004 0 0 = 1) (hpresent : s.clock.refPresent = true) (hown : ownTime s = true) :
    lockRef p s = { s with clock := { s.clock with
      refLocked := true, steer := if p < -50000 then -50000 else if 50000 < p then 50000 else p } } := by
  rw [← clamp_ppm]
  exact if_pos ⟨henabled, hpresent, hown⟩

theorem lockRef_of_not_steering (h : s.reg 0x10004 0 0 ≠ 1 ∨ s.clock.refPresent = false ∨ ¬ownTime s = true) : lockRef p s = s := by
  refine if_neg fun ⟨henabled, hpresent, hown⟩ => ?_
  rcases h with hoff | habsent | hother
  · exact hoff henabled
  · exact absurd hpresent (Bool.eq_false_iff.mp habsent)
  · exact hother hown

theorem loseRef_of_present (h : s.clock.refPresent = true) : loseRef s =
    { s with clock := { s.clock with refPresent := false, refLocked := false, refLoss := (s.clock.refLoss + 1) % 2 ^ 32 } } :=
  if_pos h

theorem loseRef_of_absent (h : s.clock.refPresent = false) : loseRef s = s :=
  if_neg (Bool.eq_false_iff.mp h)

/-! ## PPS_OUT (R346) -/

theorem pulse_of_passed (h : secondOf s.now ≤ s.clock.lastPulse) : pulse s = s :=
  if_pos h

/-- A second that has not been pulsed yet is taken, and seen on the pin where PPS_EN is set. -/
theorem pulse_of_reached (h : s.clock.lastPulse < secondOf s.now) : pulse s = { s with
    clock := { s.clock with lastPulse := secondOf s.now },
    out := { s.out with pps := if s.reg 0x10004 2 0 = 1 then secondOf s.now :: s.out.pps else s.out.pps } } := by
  refine (if_neg (Nat.not_le.mpr h)).trans ?_
  by_cases henabled : s.reg 0x10004 2 0 = 1
  · rw [if_pos henabled]
    exact if_pos henabled
  · rw [if_neg henabled]
    exact if_neg henabled

/-! ## TIME_SET (R350, R416) -/

section TimeSet

variable (hchanges : v ≠ s.reg 0x10028 0 0)
include hchanges

theorem setTime_of_sealed (hsealed : s.seals.getLsbD 1 = true) : setTime v s = refuseWrite .pf 0x10028 1 s :=
  (if_neg hchanges).trans (if_pos hsealed)

variable (hunsealed : s.seals.getLsbD 1 = false)
include hunsealed

theorem setTime_of_unsealed : setTime v s =
    if !(ownTime s) then refuseWrite .pf 0x10028 8 s
    else if s.anyLive then refuseWrite .pf 0x10028 3 s
    else setReg 0x10028 0 v { s with clock := { s.clock with pendingSet := some v } } :=
  (if_neg hchanges).trans (if_neg (Bool.eq_false_iff.mp hunsealed))

theorem setTime_of_follower (hfollows : ¬ownTime s = true) : setTime v s = refuseWrite .pf 0x10028 8 s := by
  rw [setTime_of_unsealed hchanges hunsealed, if_pos (by simpa using hfollows)]

theorem setTime_of_live (hown : ownTime s = true) (hlive : s.anyLive = true) : setTime v s = refuseWrite .pf 0x10028 3 s := by
  rw [setTime_of_unsealed hchanges hunsealed, if_neg (by simpa using hown), if_pos hlive]

/-- The value written is held and waits for row 7. -/
theorem setTime_of_idle (hown : ownTime s = true) (hidle : s.anyLive = false) :
    setTime v s = setReg 0x10028 0 v { s with clock := { s.clock with pendingSet := some v } } := by
  rw [setTime_of_unsealed hchanges hunsealed, if_neg (by simpa using hown), if_neg (Bool.eq_false_iff.mp hidle)]

end TimeSet

/-! ## The commands -/

section Answering

variable (hanswers : s.answers = true)
include hanswers

theorem exec_refInPresent_of_answers : exec .refInPresent s = .next { s with clock := { s.clock with refPresent := true } } := by
  rw [Laws.exec_refInPresent rfl, Laws.whenAnswering_yes s hanswers]

theorem exec_refInLock_of_answers : exec (.refInLock p) s = .next (lockRef p s) := by
  rw [Laws.exec_refInLock rfl, Laws.whenAnswering_yes s hanswers]

theorem exec_refInLoss_of_answers : exec .refInLoss s = .next (loseRef s) := by
  rw [Laws.exec_refInLoss rfl, Laws.whenAnswering_yes s hanswers]

theorem exec_ppsOut_of_answers : exec .ppsOut s = .next (pulse s) := by
  rw [Laws.exec_ppsOut rfl, Laws.whenAnswering_yes s hanswers]

end Answering

theorem exec_timeSet_of_exposed (hexposed : s.exposed = true) (v : Word64) : exec (.timeSet v) s = .next (setTime v.toNat s) := by
  rw [Laws.exec_timeSet rfl, Laws.whenExposed_yes s hexposed]

/-- Settles O44, by the event: REF_IN present, steered by or lost, a whole second, and TIME_SET by the first check it fails. -/
theorem referencePulseAndTimeSet : Obligations.ReferencePulseAndTimeSet := by
  intro p v s hanswers own sec
  rw [exec_refInPresent_of_answers hanswers, exec_refInLock_of_answers hanswers, exec_refInLoss_of_answers hanswers,
    exec_ppsOut_of_answers hanswers]
  refine ⟨rfl, fun henabled hpresent hown => ?_, fun hnot => ?_, fun hpresent => by rw [loseRef_of_present hpresent],
    fun habsent => by rw [loseRef_of_absent habsent], fun hreached => ?_, fun hpassed => ?_, fun hexposed hchanges => ?_⟩
  · rw [lockRef_of_steering henabled hpresent (ownTime_iff.mpr hown)]
  · rw [lockRef_of_not_steering (by rwa [ownTime_iff])]
  · rw [pulse_of_reached hreached]
    rfl
  · rw [pulse_of_passed hpassed]
  · rw [exec_timeSet_of_exposed hexposed]
    refine ⟨fun hsealed => ?_, fun hunsealed hfollows => ?_, fun hunsealed hown hlive => ?_, fun hunsealed hown hidle => ?_⟩
    · rw [setTime_of_sealed hchanges hsealed]
    · rw [setTime_of_follower hchanges hunsealed (mt ownTime_iff.mp hfollows)]
    · rw [setTime_of_live hchanges hunsealed (ownTime_iff.mpr hown) (anyLive_iff.mpr hlive)]
    · rw [setTime_of_idle hchanges hunsealed (ownTime_iff.mpr hown) (List.any_eq_false.mpr (by simpa using hidle))]

end Sys2Proof.Machine
end

section
/-! PROOFS. The time exchange (R348 to R350): a module without a time source neither asks nor answers, a TIME REQUEST and what an unanswered
one leaves, the manager's answer, and what a reply makes of the clock. -/

namespace Sys2Proof.Machine

variable {h : MsgHead} {b : TimeReplyBody} {o : Outstanding} {n t c : Nat} {d e : Nat} {retried : Bool} {theta : Int} {k : Clock} {s x y : State}

/-! ## The time source (R348) -/

theorem timeSource_of_standalone (hrole : s.junction.role = .standalone) : timeSource s = none := by
  simp [timeSource, hrole]

theorem timeSource_of_member (hrole : s.junction.role = .worker ∨ s.junction.role = .spare) : timeSource s = some s.junction.managerId := by
  rcases hrole with hworker | hspare
  · simp [timeSource, hworker]
  · simp [timeSource, hspare]

/-! ## A TIME REQUEST (R320, R348) -/

/-- The TIME REQUEST of an exchange: its sequence number and the sender's stamp. -/
def timeRequestMessage (d e : Nat) (s : State) : SentMsg :=
  { kind := 0x02, destination := d, tag := s.junction.nextTag, epoch := e, status := 0, address := 0,
    values := [0, s.clock.nextExchange, s.now % 2 ^ 64, 0, 0, 0, 0, 0], data := [] }

/-- A new exchange is in flight, its request outstanding as operation 4. -/
def exchangeBegun (d : Nat) (retried : Bool) (s : State) : State :=
  { requestHeld d 4 retried s with clock := { s.clock with
    exchange := some s.clock.nextExchange, nextExchange := (s.clock.nextExchange + 1) % 2 ^ 32 } }

theorem sendTime_of_room (hroom : (s.junction.outstanding.filter fun o => o.destination == d).length < 4096) :
    sendTime d e retried s = sendMsg (timeRequestMessage d e s) (exchangeBegun d retried s) := by
  rw [sendTime, holdRequest_of_room hroom]
  rfl

/-- The state a request is sent from: an exchange still without its reply has failed, and the eighth in a row clears the lock. -/
def exchangeSettled (s : State) : State :=
  let k := s.clock
  let lost := k.exchange.isSome
  { s with
    junction := { s.junction with
      outstanding := if lost then s.junction.outstanding.filter (fun o => o.op != 4) else s.junction.outstanding },
    clock := { k with
      exchange := none, timeFails := if lost then (k.timeFails + 1) % 2 ^ 32 else k.timeFails,
      failed := if lost then k.failed + 1 else k.failed, good := if lost then 0 else k.good, bad := if lost then 0 else k.bad,
      timeLocked := if lost then k.timeLocked && decide (k.failed + 1 < 8) else k.timeLocked } }

theorem settled_eq_exchangeSettled : (if s.clock.exchange.isSome then failExchange s else s) = exchangeSettled s := by
  cases hexchange : s.clock.exchange with
  | none =>
    simp only [exchangeSettled, hexchange, Option.isSome_none, Bool.false_eq_true, if_false]
    rw [← hexchange]
  | some n => simp [exchangeSettled, failExchange, hexchange]

theorem requestTime_of_standalone (hrole : s.junction.role = .standalone) : requestTime s = s := by
  rw [requestTime, timeSource_of_standalone hrole]

theorem requestTime_of_member (hrole : s.junction.role = .worker ∨ s.junction.role = .spare) :
    requestTime s = sendTime s.junction.managerId s.junction.managerEpoch false (exchangeSettled s) := by
  rw [requestTime, timeSource_of_member hrole, ← settled_eq_exchangeSettled]

/-! ## The manager's answer (R348, R335) -/

theorem answerTime_of_not_manager (hrole : s.junction.role ≠ .manager) : answerTime h n t c s = s :=
  if_pos hrole

theorem answerTime_of_stale (hrole : s.junction.role = .manager) (hepoch : h.epoch ≠ s.junction.epoch) :
    answerTime h n t c s = refuseStale h s :=
  (if_neg (not_not_intro hrole)).trans (if_pos (staleFor_eq_true hepoch))

/-- The answer echoes what the request carried, beside the manager's stamps and its whole nanoseconds. -/
theorem answerTime_of_current (hrole : s.junction.role = .manager) (hepoch : h.epoch = s.junction.epoch) : answerTime h n t c s =
    sendMsg (responseTo h 0x02 0 [1, n, t, s.now % 2 ^ 64, s.now % 2 ^ 64, c, 0, nsOf s.now] []) s :=
  (if_neg (not_not_intro hrole)).trans (if_neg (Bool.eq_false_iff.mp (staleFor_eq_false hepoch)))

/-! ## The lock and the slew (R349) -/

theorem lockTest_near (h : theta.natAbs ≤ 131072) : (lockTest theta k).good = k.good + 1 ∧ (lockTest theta k).bad = 0 :=
  ⟨if_pos h, if_neg (by omega)⟩

theorem lockTest_between (h : 131072 < theta.natAbs) (h' : theta.natAbs ≤ 262144) :
    (lockTest theta k).good = 0 ∧ (lockTest theta k).bad = 0 :=
  ⟨if_neg (Nat.not_le.mpr h), if_neg (Nat.not_lt.mpr h')⟩

theorem lockTest_far (h : 262144 < theta.natAbs) : (lockTest theta k).good = 0 ∧ (lockTest theta k).bad = k.bad + 1 :=
  ⟨if_neg (by omega), if_pos h⟩

theorem lockTest_timeLocked : (lockTest theta k).timeLocked =
    if 8 ≤ (lockTest theta k).good then true else if 4 ≤ (lockTest theta k).bad then false else k.timeLocked := rfl

/-- INCREMENT stays within 200 ppm of nominal, whatever the offset. -/
theorem slewFor_within : slewFor theta ≤ 0x000A000000000000 + 562949953421 ∧ 0x000A000000000000 ≤ slewFor theta + 562949953421 := by
  have hmost : nominal * 200 / 1000000 = 562949953421 := rfl
  have hnominal : nominal = 0x000A000000000000 := rfl
  unfold slewFor
  rw [hmost]
  generalize (nominal : Int) * theta / (2 ^ 36 : Nat) = wanted
  rw [hnominal]
  dsimp only
  omega

/-! ## A reply (R349, R350) -/

theorem takeTimeReply_of_unexpected (h : timeSource s = none ∨ s.clock.exchange ≠ some b.sequence) {m : MsgHead} : takeTimeReply m b s = s :=
  if_pos h

/-- The exchange a reply ends: its request retired, its offset tested for the lock. -/
def exchangeEnded (theta : Int) (o : Outstanding) (s : State) : State :=
  { retireRequest o s with clock := { lockTest theta s.clock with exchange := none } }

@[simp] theorem exchangeEnded_ctxs : (exchangeEnded theta o s).ctxs = s.ctxs := rfl
@[simp] theorem exchangeEnded_tenants : (exchangeEnded theta o s).tenants = s.tenants := rfl
@[simp] theorem exchangeEnded_count : (exchangeEnded theta o s).clock.count = s.clock.count := rfl
@[simp] theorem exchangeEnded_increment : (exchangeEnded theta o s).clock.increment = s.clock.increment := rfl
@[simp] theorem exchangeEnded_now : (exchangeEnded theta o s).now = s.now := rfl
@[simp] theorem exchangeEnded_anyLive : (exchangeEnded theta o s).anyLive = s.anyLive := rfl

/-- The clock runs on with another INCREMENT and another steering, one free value taken. -/
def slewed (increment : Nat) (steer : Int) (s : State) : State :=
  { s with freeIndex := s.freeIndex + 1, clock := { s.clock with increment := increment, steer := steer } }

section Slewed

variable (increment : Nat) (steer : Int) (s : State)

@[simp] theorem slewed_ctxs : (slewed increment steer s).ctxs = s.ctxs := rfl
@[simp] theorem slewed_tenants : (slewed increment steer s).tenants = s.tenants := rfl
@[simp] theorem slewed_count : (slewed increment steer s).clock.count = s.clock.count := rfl
@[simp] theorem slewed_increment : (slewed increment steer s).clock.increment = increment := rfl

end Slewed

/-- A step with its outcomes as variables: a state compared with the one it came from then compares no arithmetic. -/
def timeStepped (count last : Nat) (tenants : FMap Tenant) (ctxs : FMap Ctx) (s : State) : State :=
  { s with clock := { s.clock with count := count, phase := 0, lastPulse := last }, tenants := tenants, ctxs := ctxs }

/-- A step sets the count and adds its length to every budget period's start and every dormancy expiry (R350). -/
theorem stepTime_eq (t : Nat) (s : State) : stepTime t s = timeStepped (t * 2 ^ 32 % 2 ^ 112) (secondOf t)
    (fmMap s.tenants fun _ x => { x with periodStart := x.periodStart + t - s.now })
    (fmMap s.ctxs fun _ x => { x with expiry := x.expiry + t - s.now }) s := rfl

section Stepped

variable (count last : Nat) (tenants : FMap Tenant) (ctxs : FMap Ctx) (s : State)

@[simp] theorem timeStepped_ctxs : (timeStepped count last tenants ctxs s).ctxs = ctxs := rfl
@[simp] theorem timeStepped_tenants : (timeStepped count last tenants ctxs s).tenants = tenants := rfl
@[simp] theorem timeStepped_count : (timeStepped count last tenants ctxs s).clock.count = count := rfl
@[simp] theorem timeStepped_increment : (timeStepped count last tenants ctxs s).clock.increment = s.clock.increment := rfl

end Stepped

/-- What the reply of the exchange in flight leaves, however the clock is then corrected: its request retired, the exchange over,
the offset seen and tested for the lock. -/
structure ReplyTaken (theta : Int) (o : Outstanding) (s x : State) : Prop where
  junction : x.junction = { s.junction with outstanding := s.junction.outstanding.filter fun y => decide (y ≠ o) }
  offset : x.clock.theta = theta
  exchange : x.clock.exchange = none
  failed : x.clock.failed = 0
  good : x.clock.good = (lockTest theta s.clock).good
  bad : x.clock.bad = (lockTest theta s.clock).bad
  timeLocked : x.clock.timeLocked = (lockTest theta s.clock).timeLocked

theorem exchangeEnded_replyTaken : ReplyTaken theta o s (exchangeEnded theta o s) := ⟨rfl, rfl, rfl, rfl, rfl, rfl, rfl⟩

theorem ReplyTaken.of_timeStepped (h : ReplyTaken theta o s x) (count last : Nat) (tenants : FMap Tenant) (ctxs : FMap Ctx) :
    ReplyTaken theta o s (timeStepped count last tenants ctxs x) :=
  ⟨h.junction, h.offset, h.exchange, h.failed, h.good, h.bad, h.timeLocked⟩

theorem ReplyTaken.of_slewed (h : ReplyTaken theta o s x) (increment : Nat) (steer : Int) : ReplyTaken theta o s (slewed increment steer x) :=
  ⟨h.junction, h.offset, h.exchange, h.failed, h.good, h.bad, h.timeLocked⟩

section Taken

variable (htaken : ReplyTaken theta o s x)
include htaken

theorem ReplyTaken.near (hnear : theta.natAbs ≤ 131072) : x.clock.good = s.clock.good + 1 ∧ x.clock.bad = 0 := by
  rw [htaken.good, htaken.bad]
  exact lockTest_near hnear

theorem ReplyTaken.between (hlow : 131072 < theta.natAbs) (hhigh : theta.natAbs ≤ 262144) : x.clock.good = 0 ∧ x.clock.bad = 0 := by
  rw [htaken.good, htaken.bad]
  exact lockTest_between hlow hhigh

theorem ReplyTaken.far (hfar : 262144 < theta.natAbs) : x.clock.good = 0 ∧ x.clock.bad = s.clock.bad + 1 := by
  rw [htaken.good, htaken.bad]
  exact lockTest_far hfar

theorem ReplyTaken.locked : x.clock.timeLocked =
    if 8 ≤ x.clock.good then true else if 4 ≤ x.clock.bad then false else s.clock.timeLocked := by
  rw [htaken.good, htaken.bad, htaken.timeLocked, lockTest_timeLocked]

end Taken

section Answered

variable (hsource : timeSource s ≠ none) (hexchange : s.clock.exchange = some b.sequence) (hfound : requestOf s h.source h.tag = some o)
include hsource hexchange hfound

/-- The time the counter is stepped to: the manager's, and the reply's delay on its way (R350). -/
theorem takeTimeReply_of_far (hfar : 65536000 < (offsetOf b).natAbs) (hidle : s.anyLive = false) : takeTimeReply h b s =
    stepTime ((b.managerTime * 65536 : Nat) + (stampDiff b.t4 b.t3 + offsetOf b)).toNat (exchangeEnded (offsetOf b) o s) := by
  rw [takeTimeReply, if_neg (not_or.mpr ⟨hsource, not_not_intro hexchange⟩), hfound]
  exact if_pos ⟨hfar, (Bool.not_eq_true' _).mpr (exchangeEnded_anyLive.trans hidle)⟩

theorem takeTimeReply_of_near (hnear : ¬(65536000 < (offsetOf b).natAbs ∧ s.anyLive = false)) : takeTimeReply h b s =
    slewed (slewFor (offsetOf b)) (signedOf (Config.memberSteer s.freeIndex).toNat 32) (exchangeEnded (offsetOf b) o s) := by
  rw [takeTimeReply, if_neg (not_or.mpr ⟨hsource, not_not_intro hexchange⟩), hfound]
  exact if_neg fun ⟨hfar, hidle⟩ => hnear ⟨hfar, exchangeEnded_anyLive.symm.trans ((Bool.not_eq_true' _).mp hidle)⟩

end Answered

/-! ## The commands -/

section Answering

variable (hanswers : s.answers = true)
include hanswers

theorem exec_timeRequest_of_answers : exec .timeRequest s = .next (requestTime s) := by
  rw [Laws.exec_timeRequest rfl, Laws.whenAnswering_yes s hanswers]

variable (hwf : h.wf = true)
include hwf

theorem exec_timeRequestReceived_of_answers : exec (.timeRequestReceived h n t c) s = .next (answerTime h n t c s) := by
  rw [Laws.exec_timeRequestReceived hwf, Laws.whenAnswering_yes s hanswers]

theorem exec_timeReply_of_answers : exec (.timeReply h b) s = .next (takeTimeReply h b s) := by
  rw [Laws.exec_timeReply hwf, Laws.whenAnswering_yes s hanswers]

end Answering

/-- Settles O45, by the event and the module's role. -/
theorem timeIsExchangedWithTheManager : Obligations.TimeIsExchangedWithTheManager := by
  intro h b n t c s hwf hanswers j k lost left
  rw [exec_timeRequest_of_answers hanswers, exec_timeRequestReceived_of_answers hanswers hwf, exec_timeReply_of_answers hanswers hwf]
  refine ⟨fun hrole => ⟨?_, ?_, ?_⟩, fun hrole hroom => ?_, fun hrole hepoch => ?_, fun hrole hepoch => ?_, fun hother => ?_,
    ?_⟩
  · rw [requestTime_of_standalone hrole]
  · have hother : j.role ≠ .manager := by simp [hrole]
    rw [answerTime_of_not_manager hother]
  · rw [takeTimeReply_of_unexpected (.inl (timeSource_of_standalone hrole))]
  · rw [requestTime_of_member hrole, sendTime_of_room (s := exchangeSettled s) hroom]
    exact ⟨_, rfl, Laws.sendMsg_sent _ _⟩
  · rw [answerTime_of_current hrole hepoch]
    exact ⟨_, rfl, Laws.sendMsg_sent _ _⟩
  · rw [answerTime_of_stale hrole hepoch]
    exact ⟨_, rfl, refuseStale_staleAnswered⟩
  · rw [takeTimeReply_of_unexpected (.inr hother)]
  · intro hrole hexchange o hfound theta live steps
    have hsource : timeSource s ≠ none := by simp [timeSource_of_member hrole]
    have hlive : s.anyLive = false ↔ ¬live := by rw [Bool.eq_false_iff, ne_eq, anyLive_iff]
    have htaken : ReplyTaken theta o s (exchangeEnded theta o s) := exchangeEnded_replyTaken
    by_cases hsteps : steps
    · obtain ⟨hfar, hidle⟩ := hsteps
      rw [takeTimeReply_of_far hsource hexchange hfound hfar (hlive.mpr hidle), stepTime_eq]
      have hx := htaken.of_timeStepped
      refine ⟨_, rfl, (hx ..).junction, (hx ..).offset, (hx ..).exchange, (hx ..).failed, (hx ..).near, (hx ..).between, (hx ..).far,
        (hx ..).locked, fun hslewed => absurd ⟨hfar, hidle⟩ hslewed,
        fun _ => ⟨timeStepped_count .., (timeStepped_increment ..).trans exchangeEnded_increment, fun u => ?_, fun i => ?_⟩⟩
      · rw [timeStepped_tenants, fmFind_fmMap, exchangeEnded_tenants, exchangeEnded_now]
        rfl
      · rw [timeStepped_ctxs, fmFind_fmMap, exchangeEnded_ctxs, exchangeEnded_now]
        rfl
    · have hnear : ¬(65536000 < theta.natAbs ∧ s.anyLive = false) := by rwa [hlive]
      rw [takeTimeReply_of_near hsource hexchange hfound hnear]
      have hx := htaken.of_slewed
      exact ⟨_, rfl, (hx ..).junction, (hx ..).offset, (hx ..).exchange, (hx ..).failed, (hx ..).near, (hx ..).between, (hx ..).far,
        (hx ..).locked, fun _ => ⟨(slewed_count ..).trans exchangeEnded_count, (slewed_tenants ..).trans exchangeEnded_tenants,
          (slewed_ctxs ..).trans exchangeEnded_ctxs, slewed_increment .., slewFor_within⟩, fun hstepped => absurd hstepped hsteps⟩

end Sys2Proof.Machine
end

section
/-! PROOFS. Time capture (R347, R415): a write whose one field passes its tests takes effect and records no refusal, and CAPTURE is such a
field, in the time block and in a tenant block on the tenant's own path. -/

namespace Sys2Proof.Machine

variable {path : RegPath} {off a t v : Nat} {bits : BitVec 2} {c : Covered} {s : State}

/-! ## A write that covers one field (R415, R416) -/

/-- A write whose one field counts and passes its tests takes effect; the half held at its place is dropped (R415). -/
theorem writeFields_of_passed (hcover : coverWrite s a 4 v = [c]) (hcounts : counts s c = true)
    (hpasses : fieldKind path c.addr c.field.lsb c.value c.word c.field.kind s = 0) :
    writeFields path off a 4 v s = applyField path c.addr c.field.lsb c.value (cmdBlock s [c])
      { s with halves := fmErase s.halves (fieldKey (a - a % 8) 0) } := by
  simp [writeFields, hcover, hcounts, hpasses, lowestRefusal, leastBy, forEach]

/-! ## The CAPTURE word (Tables 13-1, 18-2) -/

/-- A word of BAR0 that holds CAPTURE, two WO bits, and nothing else. -/
structure CaptureWord (a : Nat) : Prop where
  aligned : a % 8 = 0
  fields : fieldsAt a = [woField 0 2]
  narrow : wideAt a = none
  outsideMailbox : a < 0x30000 ∨ 0x40000 ≤ a

/-- CAPTURE with the bits written to it. -/
def captureField (a : Nat) (bits : BitVec 2) : Covered :=
  { addr := a, field := woField 0 2, value := bits.toNat, word := bits.toNat }

section Word

variable (ha : CaptureWord a)
include ha

theorem CaptureWord.coverWrite_eq : coverWrite s a 4 bits.toNat = [captureField a bits] := by
  have hlt : bits.toNat < 4 := bits.isLt
  have hword : bits.toNat % 2 ^ 32 = bits.toNat := Nat.mod_eq_of_lt (by omega)
  have hvalue : bitsOf bits.toNat 0 2 = bits.toNat := by
    rw [bitsOf, pow_zero, Nat.div_one]
    exact Nat.mod_eq_of_lt hlt
  have hlow : ¬(a % 8 = 4 ∧ (wideAt (a - 4)).isSome = true) := by simp [ha.aligned]
  rw [coverWrite, if_neg (by decide), if_neg hlow, coverWord, ha.fields, hword]
  simp only [List.map_cons, List.map_nil, woField, hvalue, captureField]

/-- A WO field outside the security mailbox counts as written whatever its value. -/
theorem CaptureWord.counts_eq : counts s (captureField a bits) = true := by
  have hopen : mailboxClosed s a = false := by
    have := ha.outsideMailbox
    simp only [mailboxClosed, Bool.and_eq_false_iff, decide_eq_false_iff_not]
    omega
  simp [counts, captureField, hopen, woField]

/-- A write of CAPTURE that no test refuses captures, from the PF or from the VF whose offset leads to the word. -/
theorem CaptureWord.writeRegister_eq (hoff : off % 4 = 0) (haddr : (path = .pf ∧ off = a) ∨ ∃ u, path = .vf u ∧ tenantBase u + off = a)
    (hpasses : fieldKind path a 0 bits.toNat bits.toNat .wo s = 0) :
    writeRegister path off 4 bits.toNat s = applyField path a 0 bits.toNat (cmdBlock s [captureField a bits])
      { s with halves := fmErase s.halves (fieldKey a 0) } := by
  have hwhole : ¬(((4 : Nat) ≠ 4 ∧ (4 : Nat) ≠ 8) ∨ off % 4 ≠ 0) := by omega
  have hnarrow : ¬holdsHalf a 4 = true := by simp [holdsHalf, ha.narrow]
  have hfields : writeFields path off a 4 bits.toNat s = applyField path a 0 bits.toNat (cmdBlock s [captureField a bits])
      { s with halves := fmErase s.halves (fieldKey a 0) } := by
    rw [writeFields_of_passed ha.coverWrite_eq ha.counts_eq hpasses, ha.aligned]
    rfl
  rcases haddr with ⟨rfl, rfl⟩ | ⟨u, rfl, rfl⟩
  · exact (if_neg hwhole).trans ((if_neg hnarrow).trans hfields)
  · exact (if_neg hwhole).trans ((if_neg hnarrow).trans hfields)

end Word

/-! ## CAPTURE of the time block -/

theorem captureWord_time : CaptureWord 0x10040 := ⟨rfl, rfl, rfl, .inl (by decide)⟩

theorem capture_time : capture .pf true t bits s = captureTime bits { s with halves := fmErase s.halves (fieldKey 0x10040 0) } := by
  have hwrite := captureWord_time.writeRegister_eq (path := .pf) (bits := bits) (s := s) (off := 0x10040) rfl (.inl ⟨rfl, rfl⟩) rfl
  refine hwrite.trans ?_
  simp [applyField, inTenant, timeBase]

/-! ## CAPTURE of a tenant block -/

/-- Where the CAPTURE word of a tenant lies (Table 18-2). -/
theorem tenantCapture_place (ht : t < 256) : inTenant (tenantBase t + 0x80) = true ∧ tenantOf (tenantBase t + 0x80) = t ∧
    (tenantBase t + 0x80) % 0x10000 = 0x80 := by
  refine ⟨?_, ?_, ?_⟩
  · rw [inTenant, tenantBase, Bool.and_eq_true]
    exact ⟨decide_eq_true (by omega), decide_eq_true (by omega)⟩
  · rw [tenantOf, tenantBase]
    omega
  · rw [tenantBase]
    omega

/-- Offset 0x80 of a tenant block is a CAPTURE word. -/
theorem captureWord_tenant (ht : t < 256) : CaptureWord (tenantBase t + 0x80) := by
  obtain ⟨hin, -, hmod⟩ := tenantCapture_place ht
  generalize tenantBase t + 0x80 = a at *
  rw [inTenant, Bool.and_eq_true, decide_eq_true_eq, decide_eq_true_eq] at hin
  obtain ⟨hlow, hhigh⟩ := hin
  refine ⟨by omega, ?_, ?_, by omega⟩
  · simp (disch := omega) only [fieldsAt, junctionBase, sluiceBase, if_pos, if_neg]
    simp [hmod, tenantFields]
  · simp (disch := omega) only [wideAt, junctionBase, if_pos, if_neg]

/-- CAPTURE is the tenant's own field on its own path, and nothing but a reset in progress refuses it (Table 18-1, R347). -/
theorem fieldKind_tenantCapture (ht : t < 256) (hidle : (s.tenant t).resetPending = false) :
    fieldKind (ownPath t) (tenantBase t + 0x80) 0 v v .wo s = 0 := by
  obtain ⟨hin, hof, hmod⟩ := tenantCapture_place ht
  have hpath : pathKind (ownPath t) t 0x80 = 0 := by
    unfold ownPath
    split
    next hzero => simp [pathKind, hzero]
    next => rfl
  rw [fieldKind, if_pos hin, hof, hmod, hpath]
  simp [tenantKind, hidle]

theorem capture_tenant (ht : t < 256) (hidle : (s.tenant t).resetPending = false) : capture (ownPath t) false t bits s =
    captureTenant t bits { s with halves := fmErase s.halves (fieldKey (tenantBase t + 0x80) 0) } := by
  obtain ⟨hin, hof, hmod⟩ := tenantCapture_place ht
  have hreach : capture (ownPath t) false t bits s = writeRegister (ownPath t) (pathOffset (ownPath t) t 0x80) 4 bits.toNat s :=
    if_pos (pathReaches_ownPath t)
  have haligned : pathOffset (ownPath t) t 0x80 % 4 = 0 := by
    unfold ownPath
    split
    · change (tenantBase t + 0x80) % 4 = 0
      omega
    · change 0x80 % 4 = 0
      rfl
  have haddr : (ownPath t = .pf ∧ pathOffset (ownPath t) t 0x80 = tenantBase t + 0x80) ∨
      ∃ u, ownPath t = .vf u ∧ tenantBase u + pathOffset (ownPath t) t 0x80 = tenantBase t + 0x80 := by
    unfold ownPath
    split
    · exact .inl ⟨rfl, rfl⟩
    · exact .inr ⟨t, rfl, rfl⟩
  rw [hreach, (captureWord_tenant ht).writeRegister_eq haligned haddr (fieldKind_tenantCapture ht hidle), applyField, if_pos hin, applyTenant]
  simp [hof, hmod]

/-! ## The command -/

theorem exec_latchCapture_of_exposed {time : Bool} (hpath : path.wf = true) (ht : t < 256) (hexposed : s.exposed = true) :
    exec (.latchCapture path time t bits) s = .next (capture path time t bits s) := by
  have hwf : (Instr.latchCapture path time t bits).wf = true := by simp [Instr.wf, hpath, tenantOk, ht]
  rw [Laws.exec_latchCapture hwf, Laws.whenExposed_yes s hexposed]

/-- Settles O21, by the block whose CAPTURE is written. -/
theorem captureCopiesDeviceTime : Obligations.CaptureCopiesDeviceTime := by
  intro t bits s ht hexposed taken
  refine ⟨?_, fun hidle => ?_⟩
  · rw [exec_latchCapture_of_exposed rfl ht hexposed, capture_time]
    exact ⟨_, rfl, rfl, rfl, rfl⟩
  · rw [exec_latchCapture_of_exposed (wf_ownPath ht) ht hexposed, capture_tenant ht hidle]
    exact ⟨_, rfl, Laws.tenant_modTenant_self _ t _, fun u hu => Laws.tenant_modTenant_other _ _ hu, rfl⟩

end Sys2Proof.Machine
end

section
/-! PROOFS. FATAL stands (R373): the commands that set a fuse or a seal leave it, and so does every other that cannot reset. -/

namespace Sys2Proof.Machine

variable {c : Instr} {s t : State}

/-- COMMIT_SVN and the write of SEAL_SET leave a FATAL fault standing. -/
theorem exec_fatal_of_mayFuse (hf : mayFuse c = true) (h : exec c s = .next t) (hfatal : s.faults.fatal = true) :
    t.faults.fatal = true := by
  cases c with
  | sealSet bits =>
    have hseal : execSealSet bits s = .next t := h
    obtain ⟨-, rfl⟩ := Laws.run_next s hseal
    exact Laws.whenAnswering_cases (P := fun x => x.faults.fatal = true) hfatal hfatal
  | commitSvn k =>
    rcases Laws.execCommitSvn_cases h with ⟨-, hkept, -⟩ | ⟨-, -, -, -, -, -, -, -, -, hkept, -⟩
    · exact hkept hfatal
    · exact hkept hfatal
  | _ => cases hf

/-- Settles O11, by whether the command sets a fuse or a seal. -/
theorem onlyAResetClearsFatal : Obligations.OnlyAResetClearsFatal := by
  intro c s t hr h hfatal
  cases hf : mayFuse c with
  | true => exact exec_fatal_of_mayFuse hf h hfatal
  | false =>
    obtain ⟨-, hkept, -⟩ := Laws.exec_lived h hr hf
    exact hkept hfatal

end Sys2Proof.Machine
end

section
/-! PROOFS. What a module takes that is not ready (R373, R379, R382, R405): each command that needs service, exposure or secrets has its
effect behind the gate of that name, and a shut gate leaves the state as it is. -/

namespace Sys2Proof.Machine

variable {c : Instr} {f : State → State} {s t : State}

/-! ## The gate of a command -/

/-- The gate that a command's effect stands behind, by what the command needs. -/
def gate (c : Instr) : (State → State) → State → State :=
  if needsService c then whenServing
  else if needsExposure c then whenExposed
  else if needsSecrets c then whenAttesting
  else id

/-- Every command outside CXL.mem has some effect, behind its gate. -/
theorem exec_eq_gate (h : isCxlMem c = false) : ∃ f, ∀ s, exec c s = run c s (gate c f) := by
  cases c with
  | cxlMemRead a => cases h
  | cxlMemWrite a bs => cases h
  | _ => exact ⟨_, fun _ => rfl⟩

/-- A command needs one of the three at most. -/
theorem needs_apart (c : Instr) :
    (needsService c && needsExposure c) = false ∧ (needsService c && needsSecrets c) = false ∧ (needsExposure c && needsSecrets c) = false := by
  cases c with
  | _ => exact ⟨rfl, rfl, rfl⟩

/-- The CXL.mem commands need none of the three. -/
theorem isCxlMem_of_needs (h : (needsService c || needsExposure c || needsSecrets c) = true) : isCxlMem c = false := by
  cases c with
  | cxlMemRead a => cases h
  | cxlMemWrite a bs => cases h
  | _ => rfl

theorem gate_of_needsService (h : needsService c = true) : gate c = whenServing := if_pos h

theorem gate_of_needsExposure (h : needsExposure c = true) : gate c = whenExposed := by
  obtain ⟨hservice, -, -⟩ := needs_apart c
  rw [h, Bool.and_true] at hservice
  rw [gate, if_neg (Bool.eq_false_iff.mp hservice), if_pos h]

theorem gate_of_needsSecrets (h : needsSecrets c = true) : gate c = whenAttesting := by
  obtain ⟨-, hservice, hexposure⟩ := needs_apart c
  rw [h, Bool.and_true] at hservice hexposure
  rw [gate, if_neg (Bool.eq_false_iff.mp hservice), if_neg (Bool.eq_false_iff.mp hexposure), if_pos h]

/-! ## A shut gate -/

theorem whenExposed_of_hidden (h : s.exposed = false) : whenExposed f s = s :=
  if_neg (Bool.eq_false_iff.mp h)

/-- Without the keys of the boot nothing is attested (R382). -/
theorem whenAttesting_of_keyless (h : s.boot.phase = .bootFail ∨ s.security.state = .retired) : whenAttesting f s = s :=
  if_neg fun ⟨_, hphase, hstate⟩ => h.elim hphase hstate

/-- A command that is taken before a shut gate changes nothing. -/
theorem exec_next_of_shut (hneeds : (needsService c || needsExposure c || needsSecrets c) = true) (hshut : ∀ f, gate c f s = s)
    (h : exec c s = .next t) : t = s := by
  obtain ⟨f, hexec⟩ := exec_eq_gate (isCxlMem_of_needs hneeds)
  obtain ⟨-, ht⟩ := Laws.run_next s ((hexec s).symm.trans h)
  rw [ht, hshut f]

/-- A register write outside the two blocks that stay exposed is dropped (R379, R382). -/
theorem exec_registerWrite_of_hidden {path : RegPath} {o n : Nat} {v : Word64} (hexposed : s.exposed = false)
    (hblock : alwaysExposed path o = false) (h : exec (.registerWrite path o n v) s = .next t) : t = s := by
  have hwrite : execRegisterWrite path o n v s = .next t := h
  obtain ⟨-, rfl⟩ := Laws.run_next s hwrite
  have hdropped : hostWriteRegister path o n v.toNat s = s := if_neg (by simp [hexposed, hblock])
  exact Laws.whenAnswering_cases (P := fun x => x = s) rfl hdropped

/-- Settles O13, by what the command needs: its gate is shut, and a register write has no gate but the block it names. -/
theorem nothingIsServedUnlessReady : Obligations.NothingIsServedUnlessReady := by
  intro c s t h
  refine ⟨fun hneeds hshut => ?_, fun hneeds hshut => ?_, fun hneeds hshut => ?_, ?_⟩
  · exact exec_next_of_shut (by simp [hneeds]) (fun f => by rw [gate_of_needsService hneeds, Laws.whenServing_no s hshut]) h
  · exact exec_next_of_shut (by simp [hneeds]) (fun f => by rw [gate_of_needsExposure hneeds, whenExposed_of_hidden hshut]) h
  · exact exec_next_of_shut (by simp [hneeds]) (fun f => by rw [gate_of_needsSecrets hneeds, whenAttesting_of_keyless hshut]) h
  · rintro path o n v rfl hexposed hblock
    exact exec_registerWrite_of_hidden hexposed hblock h

end Sys2Proof.Machine
end

section
/-! PROOFS. The reset of a VF (R404): it takes one entry of the function out of the table of SPDM responders, so an entry listed a second
time outlasts it. -/

namespace Sys2Proof.Machine

variable {t u : Nat} {s : State}

/-- A booted module resets a VF's tenant block, unless a reset of that VF is in progress. -/
theorem exec_functionLevelReset_of_ready (hpos : 0 < t) (ht : t < 256) (hanswers : s.answers = true) (hphase : s.boot.phase = .ready)
    (hidle : (s.tenant t).resetPending = false) : exec (.functionLevelReset t) s = .next (resetTenantBlock t s) := by
  have hwf : (Instr.functionLevelReset t).wf = true := decide_eq_true ht
  have hfree : ¬(s.boot.phase ≠ .ready ∨ (s.tenant t).resetPending = true) := by simp [hphase, hidle]
  rw [Laws.exec_functionLevelReset hwf, Laws.whenAnswering_yes s hanswers, resetFunction, if_neg hpos.ne', if_neg hfree]

/-- A responder after the reset of a VF is what the table shows once one entry of the VF is taken out. -/
theorem spdmOf_resetTenantBlock : (resetTenantBlock t s).spdmOf u = fmGet (fmErase s.security.spdm t) u freshSpdm := rfl

/-- A responder that has answered GET_VERSION. -/
def versionedSpdm : Spdm := { freshSpdm with version := true }

/-- A booted module whose table of SPDM responders lists VF 1 twice, which the type of a table allows. -/
def twiceListed : State :=
  { State.reset with
    boot := { freshBoot with phase := .ready },
    security := { freshSecurity with spdm := [(1, versionedSpdm), (1, versionedSpdm)] } }

/-- Refutes O57: after the reset of VF 1 of `twiceListed`, its responder is the second entry and not a fresh one. The statement
quantifies over every state, and so over tables that list a function twice, of which the reset erases the first entry alone. -/
theorem not_fatalFaultsRemovalAndFunctionResets : ¬ Obligations.FatalFaultsRemovalAndFunctionResets := by
  intro h
  obtain ⟨-, -, -, -, -, -, -, -, -, -, -, hvf⟩ := h twiceListed rfl
  obtain ⟨-, hreset, -⟩ := hvf 1 Nat.one_pos (by decide)
  obtain ⟨x, hexec, -, -, -, hfresh, -⟩ := hreset rfl rfl
  have hrun : exec (.functionLevelReset 1) twiceListed = .next (resetTenantBlock 1 twiceListed) :=
    exec_functionLevelReset_of_ready Nat.one_pos (by decide) rfl rfl rfl
  cases hrun.symm.trans hexec
  have hsecond : (resetTenantBlock 1 twiceListed).spdmOf 1 = versionedSpdm := spdmOf_resetTenantBlock
  have hdiffer : versionedSpdm ≠ freshSpdm := by decide
  exact hdiffer (hsecond.symm.trans hfresh)

end Sys2Proof.Machine
end

section
/-! PROOFS. The life cycle (R380, R381, Table 15-4): the checks of a life-cycle command in the statements' words, the transition that
passes them, and the commands that are no transition. -/

namespace Sys2Proof.Machine

open Laws (Lasting Kept Entered Committed KeysOnly)

variable {c : Instr} {k : SignedCommand} {l : List LifeCycle} {b : LifeCycle} {signed : Bool} {s x t : State}

/-! ## The checks -/

/-- No check of a record or its signatures fails, and its reserved fields are 0 (R380). -/
theorem recordFailures_eq_nil_iff : recordFailures k signed s = [] ∧ k.reservedZero = true ↔ RecordGood k s ∧ signed = true := by
  unfold recordFailures RecordGood
  simp only [List.append_eq_nil_iff, ite_eq_left_iff, ite_eq_right_iff, List.cons_ne_nil, imp_false, not_not]
  constructor
  · rintro ⟨⟨⟨⟨⟨hlength, hidentity⟩, hnonce⟩, hhash⟩, hsigned⟩, hreserved⟩
    exact ⟨⟨by omega, by omega, hidentity, hnonce, hhash, hreserved⟩, hsigned⟩
  · rintro ⟨⟨hmax, hlength, hidentity, hnonce, hhash, hreserved⟩, hsigned⟩
    exact ⟨⟨⟨⟨⟨by omega, hidentity⟩, hnonce⟩, hhash⟩, hsigned⟩, hreserved⟩

/-- The state is one that the table lists, and another transition may be counted or the command is RETIRE (R381). -/
theorem stateFailures_eq_nil_iff :
    stateFailures l (decide (b = .retired)) s = [] ↔ s.security.state ∈ l ∧ (s.security.count < 63 ∨ b = .retired) := by
  by_cases hretired : b = .retired
  · simp [stateFailures, hretired]
  · simp [stateFailures, hretired]

/-- No context and no load keeps the change of state waiting (R381). -/
theorem busyFailures_eq_nil_iff : busyFailures s = [] ↔ AtRest s := by
  simp [busyFailures, AtRest]

/-! ## The eight commands -/

/-- The signatures that a life-cycle command needs are there (Table 15-4). -/
def signatures (c : Instr) (s : State) : Bool :=
  match c with
  | .provision k | .activate k | .deactivate k | .debugExit k => k.signedByOwner
  | .debugEnter k | .rmaEnter k => k.signedByOwner && k.signedByZuloth
  | .rmaExit k => k.signedByZuloth
  | .retire k => retireSigned k s
  | _ => false

theorem signatures_iff_signedFor : signatures c s = true ↔ SignedFor c s := by
  cases c with
  | debugEnter k => exact Bool.and_eq_true_iff
  | rmaEnter k => exact Bool.and_eq_true_iff
  | retire k =>
    simp only [signatures, retireSigned, SignedFor]
    split <;> rfl
  | provision k => rfl
  | activate k => rfl
  | deactivate k => rfl
  | debugExit k => rfl
  | rmaExit k => rfl
  | _ => exact iff_of_false Bool.false_ne_true id

/-- What a life-cycle command makes of the keys (Table 15-4). -/
def keyChange : Instr → Security → Security
  | .provision k => takeOwnership k.payload
  | .deactivate _ => dropKeys
  | .rmaEnter _ => fun y => { dropKeys y with owner := none }
  | .retire _ => fun y => { y with secret := false, owner := none }
  | _ => id

theorem keyChange_keysOnly : KeysOnly (keyChange c) := by
  intro y
  cases c with
  | _ => exact ⟨rfl, rfl, rfl, rfl, rfl⟩

/-- A life-cycle command is the transition that Table 15-4 gives it, in a module whose registers answer. -/
theorem exec_lifeStep (h : lifeStep c = some (k, l, b)) :
    exec c s = .next (whenAnswering (transition l b (signatures c s) (keyChange c) k) s) := by
  cases c with
  | provision k => cases h; rfl
  | activate k => cases h; rfl
  | deactivate k => cases h; rfl
  | debugEnter k => cases h; rfl
  | debugExit k => cases h; rfl
  | rmaEnter k => cases h; rfl
  | rmaExit k => cases h; rfl
  | retire k => cases h; rfl
  | _ => cases h

/-- The failures of a life-cycle command that a reason names, in the order of its checks. -/
def lifeFailures (c : Instr) (k : SignedCommand) (l : List LifeCycle) (b : LifeCycle) (s : State) : List Nat :=
  recordFailures k (signatures c s) s ++ stateFailures l (decide (b = .retired)) s ++ busyFailures s

/-- A command's checks fail nowhere where those of its record, of the state and of the module's work do not. -/
theorem lifeFailures_eq_nil : lifeFailures c k l b s = [] ↔
    recordFailures k (signatures c s) s = [] ∧ stateFailures l (decide (b = .retired)) s = [] ∧ busyFailures s = [] := by
  rw [lifeFailures, List.append_eq_nil_iff, List.append_eq_nil_iff, and_assoc]

/-- A transition is refused, with what is kept as it was, or passes its checks and enters its target. -/
theorem transition_kept_or_entered : Kept s (transition l b (signatures c s) (keyChange c) k s) ∨
    lifeFailures c k l b s = [] ∧ Entered l b s (transition l b (signatures c s) (keyChange c) k s) := by
  rcases Laws.transition_cases keyChange_keysOnly with hkept | hentered
  · exact .inl hkept
  rcases Laws.runCommand_cases with hkept | ⟨hnil, -⟩
  · exact .inl hkept
  · exact .inr ⟨hnil, hentered⟩

/-! ## Every other command -/

/-- A command that has taken effect was well formed, so it has the effect that a well-formed one has. -/
theorem lasting_of_effect (hexec : c.wf = true → exec c s = .next x) (hx : Lasting s x) (h : exec c s = .next t)
    (hc : isCxlMem c = false := by rfl) : Lasting s t := by
  cases hwf : c.wf with
  | false =>
    obtain ⟨-, hfault, -⟩ := wellFormedCommandsComplete c s
    cases (hfault hc hwf).symm.trans h
  | true =>
    cases (hexec hwf).symm.trans h
    exact hx

/-- Resets, boot and power events, register writes and FW_UPDATE change nothing that is fused. -/
theorem exec_lasting_of_mayReset (hr : mayReset c = true) (hlife : lifeStep c = none) (h : exec c s = .next t) : Lasting s t := by
  cases c with
  | coldReset cause => exact lasting_of_effect Laws.exec_coldReset (whenOn_lasting (Laws.requestCold_lasting (.refl s))) h
  | warmReset cause => exact lasting_of_effect Laws.exec_warmReset (whenAnswering_lasting (Laws.requestWarm_lasting (.refl s))) h
  | functionLevelReset u => exact lasting_of_effect Laws.exec_functionLevelReset (whenAnswering_lasting (Laws.resetFunction_lasting (.refl s))) h
  | powerOn held => exact lasting_of_effect Laws.exec_powerOn (Laws.ite_lasting (.refl s) (Laws.powerUp_lasting (.refl s))) h
  | powerLoss => exact lasting_of_effect Laws.exec_powerLoss (whenOn_lasting (Laws.losePower_lasting (.refl s))) h
  | perstDeassert => exact lasting_of_effect Laws.exec_perstDeassert (whenOn_lasting (Laws.deassertPerst_lasting (.refl s))) h
  | trainingComplete w r cache =>
    exact lasting_of_effect Laws.exec_trainingComplete (whenAnswering_lasting (Laws.completeTraining_lasting (.refl s))) h
  | wipeDone => exact lasting_of_effect Laws.exec_wipeDone (whenAnswering_lasting (Laws.finishWipe_lasting (.refl s))) h
  | registerWrite p o n v => exact lasting_of_effect Laws.exec_registerWrite (whenAnswering_lasting (Laws.hostWriteRegister_lasting (.refl s))) h
  | sidebandColdReset => exact lasting_of_effect Laws.exec_sidebandColdReset (whenOn_lasting (Laws.requestCold_lasting (.refl s))) h
  | sidebandWarmReset => exact lasting_of_effect Laws.exec_sidebandWarmReset (whenOn_lasting (Laws.requestWarm_lasting (.refl s))) h
  | fwUpdate k f => exact Laws.execFwUpdate_lasting h
  | provision k => cases hlife
  | activate k => cases hlife
  | deactivate k => cases hlife
  | debugEnter k => cases hlife
  | debugExit k => cases hlife
  | rmaEnter k => cases hlife
  | rmaExit k => cases hlife
  | retire k => cases hlife
  | _ => cases hr

/-- Of the commands that set a fuse or a seal, SEAL_SET changes nothing that is fused and COMMIT_SVN the minimum version alone. -/
theorem exec_lasting_or_committed_of_mayFuse (hf : mayFuse c = true) (h : exec c s = .next t) : Lasting s t ∨ Committed s t := by
  cases c with
  | sealSet bits => exact .inl (lasting_of_effect Laws.exec_sealSet (whenAnswering_lasting (Laws.setSeals_lasting (.refl s))) h)
  | commitSvn k => exact (Laws.execCommitSvn_cases h).imp_left Kept.lasting
  | _ => cases hf

/-- What a command does to the fuses: nothing, or it raises the minimum version, or it is a life-cycle command that passes its
checks and makes its transition. -/
theorem exec_fuses (h : exec c s = .next t) :
    Lasting s t ∨ Committed s t ∨
      ∃ k l b, lifeStep c = some (k, l, b) ∧ lifeFailures c k l b s = [] ∧ Entered l b s t := by
  cases hlife : lifeStep c with
  | some e =>
    obtain ⟨k, l, b⟩ := e
    cases (exec_lifeStep hlife).symm.trans h
    cases hanswers : s.answers with
    | false => exact .inl (by rw [whenAnswering, hanswers]; exact .refl s)
    | true =>
      rw [Laws.whenAnswering_yes s hanswers]
      rcases transition_kept_or_entered with hkept | ⟨hpass, hentered⟩
      · exact .inl hkept.lasting
      · exact .inr (.inr ⟨k, l, b, rfl, hpass, hentered⟩)
  | none =>
    by_cases hr : mayReset c = true
    · exact .inl (exec_lasting_of_mayReset hr hlife h)
    by_cases hf : mayFuse c = true
    · exact (exec_lasting_or_committed_of_mayFuse hf h).imp_right .inl
    · exact .inl (Laws.exec_lived h (Bool.eq_false_iff.mpr hr) (Bool.eq_false_iff.mpr hf)).lasting

/-- A state with the same fuses, field by field. -/
theorem fuses_of_lasting (h : Lasting s t) :
    t.security.state = s.security.state ∧ t.security.count = s.security.count ∧ t.security.minSvn = s.security.minSvn ∧
      t.security.gradeS = s.security.gradeS ∧ t.security.fusedPos = s.security.fusedPos := by
  obtain ⟨hfuses, -⟩ := h
  simp only [Laws.fuseOf, Prod.mk.injEq] at hfuses
  exact hfuses.2

/-- Settles O9, by what the command does to the fuses: only a transition that passed its checks changes state and count. -/
theorem lifeCycleChangesOnlyBySignedCommands : Obligations.LifeCycleChangesOnlyBySignedCommands := by
  intro c s t h
  rcases exec_fuses h with hlasting | hcommitted | ⟨k, l, b, hlife, hpass, hentered⟩
  · obtain ⟨hsame, hcount, -⟩ := fuses_of_lasting hlasting
    exact .inl ⟨hsame, hcount⟩
  · obtain ⟨-, -, -, -, hsame, hcount, -⟩ := hcommitted
    exact .inl ⟨hsame, hcount⟩
  · obtain ⟨-, htarget, hcount, -⟩ := hentered
    obtain ⟨hrecord, hstate, hbusy⟩ := lifeFailures_eq_nil.mp hpass
    obtain ⟨hlisted, hfused⟩ := stateFailures_eq_nil_iff.mp hstate
    obtain ⟨hfree, hloads⟩ := busyFailures_eq_nil_iff.mp hbusy
    simp only [recordFailures, List.append_eq_nil_iff, ite_eq_left_iff, List.cons_ne_nil, imp_false, not_not] at hrecord
    obtain ⟨⟨⟨⟨-, hidentity⟩, hnonce⟩, -⟩, -⟩ := hrecord
    exact .inr ⟨k, l, b, hlife, hlisted, htarget, hcount, hnonce, hidentity, by simpa using hfree, hloads, hfused⟩

/-- Settles O10, by what the command does to the fuses: a transition adds one to the count, COMMIT_SVN takes a maximum. -/
theorem fusesNeverFall : Obligations.FusesNeverFall := by
  intro c s t h
  rcases exec_fuses h with hlasting | hcommitted | ⟨_, _, _, _, _, hentered⟩
  · obtain ⟨-, hcount, hsvn, hgrade, hpositions⟩ := fuses_of_lasting hlasting
    exact ⟨hcount.ge, hsvn.ge, hgrade, hpositions⟩
  · obtain ⟨-, -, -, -, -, hcount, hsvn, hgrade, hpositions, -⟩ := hcommitted
    exact ⟨hcount.ge, hsvn ▸ le_max_left _ _, hgrade, hpositions⟩
  · obtain ⟨-, -, hcount, hsvn, hgrade, hpositions, -⟩ := hentered
    exact ⟨hcount ▸ Nat.le_succ _, hsvn.ge, hgrade, hpositions⟩

end Sys2Proof.Machine
end

section
/-! PROOFS. Power, boot, training and the wipe (R382, R389, R391, R405, R406): what the boot ROM and training change, and the order of the
boot's events. -/

namespace Sys2Proof.Machine

variable {s : State}

/-- What both branches leave, the choice between them leaves. -/
theorem proj_ite {β : Type} {p : Prop} [Decidable p] {x y : State} (g : State → β) (hx : g x = g s) (hy : g y = g s) :
    g (if p then x else y) = g s := by
  split <;> assumption

/-! ## The boot ROM (R382, R405) -/

/-- The state but for what the staged repairs reach as training begins (R414): the health record and their own lists. -/
def outsideRepairs (s : State) : State := { s with health := [], boot := { s.boot with staged := [], discarded := [] } }

theorem applyRepair_outsideRepairs (r : Repair) (s : State) : outsideRepairs (applyRepair r s) = outsideRepairs s :=
  proj_ite outsideRepairs rfl rfl

/-- The staged repairs are made in the health record, or join the discarded ones; nothing else changes (R414). -/
theorem applyStaged_frame (s : State) : applyStaged s =
    { s with
      health := (applyStaged s).health,
      boot := { s.boot with staged := (applyStaged s).boot.staged, discarded := (applyStaged s).boot.discarded } } :=
  congrArg
    (fun z : State =>
      { z with
        health := (applyStaged s).health,
        boot := { z.boot with staged := (applyStaged s).boot.staged, discarded := (applyStaged s).boot.discarded } })
    (forEach_proj outsideRepairs applyRepair_outsideRepairs s.boot.staged { s with boot := { s.boot with staged := [] } })

/-- The boot ROM restarts device time, records the boot, and trains where a bank's images all pass or reports BOOT_FAIL where none
does; of all else only the running firmware's values and the staged repairs change (R382, R405, R414). -/
theorem startBoot_frame (s : State) : startBoot s =
    { s with
      freeIndex := s.freeIndex + 1, clock := freshClock, stamp := 0, fwVersion := (startBoot s).fwVersion, tplMin := (startBoot s).tplMin,
      tplMax := (startBoot s).tplMax, health := (startBoot s).health,
      security :=
        { s.security with
          nonce := Config.random256 s.freeIndex, bootState := [stateCode s.security.state, s.security.count, s.security.minSvn],
          booted := (startBoot s).security.booted },
      boot :=
        { s.boot with
          phase := if (bankToBoot s.security).isSome then .training else .bootFail, warm := (startBoot s).boot.warm,
          staged := (startBoot s).boot.staged, discarded := (startBoot s).boot.discarded } } := by
  have hbank : bankToBoot
      { s.security with
        nonce := Config.random256 s.freeIndex, bootState := [stateCode s.security.state, s.security.count, s.security.minSvn] } =
      bankToBoot s.security := rfl
  unfold startBoot
  dsimp only [takeFree]
  rw [hbank]
  cases bankToBoot s.security with
  | none => rfl
  | some b =>
    dsimp only
    rw [applyStaged_frame]
    rfl

/-- The boot ROM trains or reports BOOT_FAIL (R382). -/
theorem startBoot_phase (s : State) : (startBoot s).boot.phase = .training ∨ (startBoot s).boot.phase = .bootFail := by
  have hphase := congrArg (fun x : State => x.boot.phase) (startBoot_frame s)
  dsimp only at hphase
  rw [hphase]
  split
  · exact .inl rfl
  · exact .inr rfl

/-- A cold reset that is not absorbed boots at once, unless PERST# holds it (R402, R405). -/
theorem requestCold_of_idle {cause : ColdCause} (hcause : cause ≠ .perst) (hidle : coldRunning s = false) :
    requestCold cause s = startBoot (coldState s) := by
  rw [requestCold, if_neg (Bool.eq_false_iff.mp hidle), coldReset, if_neg hcause]

/-! ## Training (R363, R405) -/

/-- The state but for what training sets: the map of units, the channels, the phases shed, what they raise and free values. -/
def outsideTraining (s : State) : State :=
  { s with
    freeIndex := 0, faults := freshFaults, channels := [], power := freshPower, tenants := [], out := State.reset.out,
    boot := { s.boot with hard := 0 } }

theorem shedPhase_outsideTraining (p : Nat) (s : State) : outsideTraining (shedPhase p s) = outsideTraining s :=
  proj_ite outsideTraining rfl rfl

theorem applyHealth_outsideTraining (e : HealthEntry) (s : State) : outsideTraining (applyHealth e s) = outsideTraining s := by
  cases e with
  | unit d p =>
    iterate 6 refine proj_ite outsideTraining rfl ?_
    exact proj_ite outsideTraining (shedPhase_outsideTraining d.inst s) rfl
  | repair r => exact proj_ite outsideTraining rfl rfl
  | frame t f => rfl

theorem serveGroup_outsideTraining (q l g : Nat) (s : State) : outsideTraining (serveGroup q l g s) = outsideTraining s := by
  unfold serveGroup
  split
  · exact proj_ite outsideTraining rfl rfl
  · rfl

theorem serveTiles_outsideTraining (q : Nat) (pa : Bool) (s : State) : outsideTraining (serveTiles q pa s) = outsideTraining s :=
  forEach_proj (f := fun i => setTile q pa i 2) outsideTraining (fun _ _ => rfl) _ s

theorem checkPrompt_outsideTraining (q : Nat) (s : State) : outsideTraining (checkPrompt q s) = outsideTraining s :=
  proj_ite outsideTraining rfl rfl

theorem rebuildMap_outsideTraining (s : State) : outsideTraining (rebuildMap s) = outsideTraining s := by
  have quadrant (q : Nat) (s : State) :
      outsideTraining (checkPrompt q (serveTiles q true (serveTiles q false s))) = outsideTraining s := by
    rw [checkPrompt_outsideTraining, serveTiles_outsideTraining, serveTiles_outsideTraining]
  unfold rebuildMap
  extract_lets boot applied served
  have happlied : outsideTraining applied = outsideTraining s := forEach_proj outsideTraining applyHealth_outsideTraining _ _
  have hserved : outsideTraining served = outsideTraining applied :=
    forEach_proj (f := fun x : Nat × Nat × Nat => serveGroup x.1 x.2.1 x.2.2) outsideTraining
      (fun x => serveGroup_outsideTraining x.1 x.2.1 x.2.2) (namedGroups applied.health) applied
  exact (forEach_proj outsideTraining quadrant _ served).trans (hserved.trans happlied)

theorem trainChannels_outsideTraining (s : State) : outsideTraining (trainChannels s) = outsideTraining s := by
  unfold trainChannels
  refine forEach_proj outsideTraining (fun k s => ?_) _ s
  exact proj_ite outsideTraining rfl rfl

theorem checkSpares_outsideTraining (s : State) : outsideTraining (checkSpares s) = outsideTraining s := by
  refine proj_ite outsideTraining ?_ rfl
  exact (congrArg outsideTraining (raiseVector_interruptsOnly :) :)

/-- Training brings up a link that is down and begins the wipe; outside the map, the channels and what they raise nothing else
changes. -/
theorem completeTraining_outsideTraining {w r : Nat} {cache : Bool} (h : (trainLink w r cache s).boot.phase = .training) :
    outsideTraining (completeTraining w r cache s) =
      outsideTraining { trainLink w r cache s with boot := { (trainLink w r cache s).boot with phase := .wiping } } := by
  rw [completeTraining]
  dsimp only
  rw [if_pos h]
  calc outsideTraining (settleAlert _)
    _ = outsideTraining (checkSpares _) := rfl
    _ = _ := by rw [checkSpares_outsideTraining, trainChannels_outsideTraining, rebuildMap_outsideTraining]

/-- The link comes up where it was down; nothing else changes (R406). -/
theorem trainLink_frame (w r : Nat) (cache : Bool) (s : State) : trainLink w r cache s =
    { s with boot :=
      { s.boot with
        linkWidth := if s.boot.linkWidth = 0 then w else s.boot.linkWidth, linkRate := (trainLink w r cache s).boot.linkRate,
        cxlCache := (trainLink w r cache s).boot.cxlCache } } := by
  by_cases h : s.boot.linkWidth = 0
  · rw [if_pos h, trainLink, if_neg (not_not.mpr h)]
  · rw [if_neg h, trainLink, if_pos h]

/-! ## The boot's events in order -/

theorem exec_powerLoss_of_on (h : s.power.on = true) : exec .powerLoss s = .next (losePower s) := by
  rw [Laws.exec_powerLoss rfl, Laws.whenOn_on s h]

theorem exec_powerOn_of_off {b : Bool} (h : s.power.on = false) : exec (.powerOn b) s = .next (powerUp b s) := by
  rw [Laws.exec_powerOn rfl]
  exact congrArg Host.Outcome.next (if_neg (Bool.eq_false_iff.mp h))

theorem exec_perstDeassert_of_held (hon : s.power.on = true) (hheld : s.boot.phase = .held) :
    exec .perstDeassert s = .next (startBoot s) := by
  rw [Laws.exec_perstDeassert rfl, Laws.whenOn_on s hon, deassertPerst, if_pos hheld]

/-- The rails come up with what only power-on clears, and the boot ROM starts once PERST# does not hold it (R391, R405). -/
theorem powerUp_released (s : State) : powerUp false s = startBoot (powerUp true s) := rfl

/-- A width and a rate of Table 17-2 are those of a link. -/
theorem linkOk_of_mem {w r : Nat} (hw : w ∈ [1, 2, 4, 8]) (hr : r ∈ [1, 2, 3, 4, 5, 6]) : linkOk w r = true := by
  simp only [List.mem_cons, List.not_mem_nil, or_false] at hw hr
  have hrate : 1 ≤ r ∧ r ≤ 6 := by omega
  rcases hw with rfl | rfl | rfl | rfl <;> simp [linkOk, hrate]

/-- Settles O36, event by event: power lost and applied, PERST# deasserted, training, the wipe and the link. -/
theorem bootReachesReadyInOrder : Obligations.BootReachesReadyInOrder := by
  intro s w r cache hw hr
  have hlink : linkOk w r = true := linkOk_of_mem hw hr
  refine ⟨fun hon => ?_, fun b hoff => ?_, fun hon hheld => ?_, fun hanswers htraining => ?_,
    fun hanswers hwiping => ?_, fun hanswers hdown => ?_⟩
  · rw [exec_powerLoss_of_on hon]
    exact ⟨_, rfl, rfl, rfl, rfl, rfl, rfl, rfl, rfl, rfl, rfl⟩
  · rw [exec_powerOn_of_off hoff]
    cases b with
    | true => exact ⟨_, rfl, rfl, rfl, rfl, rfl, fun _ => rfl, fun hfalse => absurd hfalse.symm Bool.false_ne_true⟩
    | false =>
      have hboot := (powerUp_released s).trans (startBoot_frame (powerUp true s))
      exact ⟨_, rfl, (congrArg (fun x : State => x.power.on) hboot :), (congrArg (fun x : State => x.power.interruptions) hboot :),
        (congrArg (fun x : State => x.boot.i3c) hboot :), (congrArg (fun x : State => x.boot.indirect) hboot :),
        fun htrue => absurd htrue Bool.false_ne_true,
        fun _ => (congrArg (fun x : State => x.boot.phase) hboot :)⟩
  · rw [exec_perstDeassert_of_held hon hheld]
    have hboot := startBoot_frame s
    exact ⟨_, rfl, (congrArg (fun x : State => x.clock.count) hboot :), (congrArg (fun x : State => x.boot.phase) hboot :),
      (congrArg State.ctxs hboot :), (congrArg State.mem hboot :), (congrArg State.qps hboot :)⟩
  · rw [Laws.exec_trainingComplete hlink, Laws.whenAnswering_yes s hanswers]
    have hup := trainLink_frame w r cache s
    have hphase : (trainLink w r cache s).boot.phase = .training := ((congrArg (fun x : State => x.boot.phase) hup :)).trans htraining
    have htrained := completeTraining_outsideTraining hphase
    exact ⟨_, rfl, (congrArg (fun x : State => x.boot.phase) htrained :),
      ((congrArg (fun x : State => x.boot.linkWidth) htrained :)).trans ((congrArg (fun x : State => x.boot.linkWidth) hup :)),
      ((congrArg State.ctxs htrained :)).trans ((congrArg State.ctxs hup :)),
      ((congrArg (fun x : State => x.security.state) htrained :)).trans ((congrArg (fun x : State => x.security.state) hup :))⟩
  · rw [Laws.exec_wipeDone rfl, Laws.whenAnswering_yes s hanswers, finishWipe, if_pos hwiping]
    exact ⟨_, rfl, rfl, rfl, rfl⟩
  · have hwidth : w ≠ 0 := by
      rintro rfl
      simp at hw
    rw [Laws.exec_cxlLinkRetrain hlink, Laws.whenAnswering_yes s hanswers, trainLink, if_neg (not_not.mpr hdown), decide_eq_true hwidth,
      Bool.and_true]

end Sys2Proof.Machine
end

section
/-! PROOFS. Life-cycle commands (R380, R381, Table 15-4): a refused one reports a reason of a check that failed, an accepted one ends
in the cold reset that wipes the module. -/

namespace Sys2Proof.Machine

variable {c : Instr} {k : SignedCommand} {l : List LifeCycle} {b : LifeCycle} {signed : Bool} {keys : Security → Security}
  {fails : List Nat} {s : State}

/-! ## The end of a signed command -/

/-- A failure that no reason names is reported by some reason and no other effect (log 27). -/
theorem failCommand_of_unnamed (fails : List Nat) (s : State) : ∃ r, MailboxEnded r s (failCommand fails true s) ∧ r ≠ 0 :=
  ⟨_, ⟨⟨s.freeIndex + 1, rfl⟩, rfl⟩, by omega⟩

/-- Failures with a reason are reported by one of theirs and no other effect (R380, log 27). -/
theorem failCommand_of_named (hfails : fails ≠ []) (s : State) : ∃ r ∈ fails, MailboxEnded r s (failCommand fails false s) := by
  have hpick : Config.pickReason s.freeIndex % fails.length < fails.length := Nat.mod_lt _ (List.length_pos_of_ne_nil hfails)
  refine ⟨fails.getD (Config.pickReason s.freeIndex % fails.length) mbState, ?_, ⟨s.freeIndex + 1, rfl⟩, rfl⟩
  rw [List.getD_eq_getElem _ _ hpick]
  exact List.getElem_mem hpick

/-! ## Refusal -/

theorem ne_zero_of_mem_recordFailures {r : Nat} (h : r ∈ recordFailures k signed s) : r ≠ 0 := by
  rintro rfl
  simp [recordFailures] at h

theorem eq_of_mem_stateFailures {retire : Bool} {r : Nat} (h : r ∈ stateFailures l retire s) : r = mbState := by
  unfold stateFailures at h
  split at h
  · cases h
  · exact List.mem_singleton.mp h

theorem eq_of_mem_busyFailures {r : Nat} (h : r ∈ busyFailures s) : r = mbBusy := by
  unfold busyFailures at h
  split at h
  · exact List.mem_singleton.mp h
  · cases h

theorem ne_zero_of_mem_lifeFailures {r : Nat} (h : r ∈ lifeFailures c k l b s) : r ≠ 0 := by
  rcases List.mem_append.mp h with h | h
  · rcases List.mem_append.mp h with h | h
    · exact ne_zero_of_mem_recordFailures h
    · exact eq_of_mem_stateFailures h ▸ (by decide)
  · exact eq_of_mem_busyFailures h ▸ (by decide)

/-- A life-cycle command has nothing to report where its record, its state and the module's work pass. -/
theorem lifeFailures_eq_nil_iff : lifeFailures c k l b s = [] ∧ k.reservedZero = true ↔
    (RecordGood k s ∧ SignedFor c s) ∧ (s.security.state ∈ l ∧ (s.security.count < 63 ∨ b = .retired)) ∧ AtRest s := by
  rw [← signatures_iff_signedFor, ← recordFailures_eq_nil_iff, ← stateFailures_eq_nil_iff, ← busyFailures_eq_nil_iff,
    lifeFailures_eq_nil]
  tauto

/-- Outside BOOT_FAIL the only failure without a reason of its own is a reserved field (R380). -/
theorem unnamed_of_booted (h : s.boot.phase ≠ .bootFail) : unnamed k false s = !k.reservedZero := by
  simp [unnamed, h]

/-- A transition that fails a check is refused with a reason other than 0; where the record passes, it is a reason of the state or of
the work that keeps it waiting. -/
theorem transition_of_failing (hphase : s.boot.phase ≠ .bootFail) (hfail : ¬(lifeFailures c k l b s = [] ∧ k.reservedZero = true)) :
    ∃ r, MailboxEnded r s (transition l b (signatures c s) keys k s) ∧ r ≠ 0 ∧ (k.reservedZero = true → r ∈ lifeFailures c k l b s) := by
  have hrefused : unnamed k false s = true ∨ (!(lifeFailures c k l b s).isEmpty) = true := by
    rw [unnamed_of_booted hphase, Bool.not_eq_true', Bool.not_eq_true', List.isEmpty_eq_false_iff]
    cases hreserved : k.reservedZero with
    | false => exact .inl rfl
    | true => exact .inr fun hnil => hfail ⟨hnil, hreserved⟩
  have hrun : transition l b (signatures c s) keys k s = failCommand (lifeFailures c k l b s) (unnamed k false s) s := if_pos hrefused
  rw [hrun, unnamed_of_booted hphase]
  cases hreserved : k.reservedZero with
  | false =>
    obtain ⟨r, hended, hreason⟩ := failCommand_of_unnamed (lifeFailures c k l b s) s
    exact ⟨r, hended, hreason, fun h => absurd h Bool.false_ne_true⟩
  | true =>
    obtain ⟨r, hmem, hended⟩ := failCommand_of_named (fun hnil => hfail ⟨hnil, hreserved⟩) s
    exact ⟨r, hended, ne_zero_of_mem_lifeFailures hmem, fun _ => hmem⟩

/-- Where the record and the signatures pass, what is left to report is the state or the work that keeps it waiting. -/
theorem mem_lifeFailures_of_good {r : Nat} (hgood : RecordGood k s ∧ SignedFor c s) (h : r ∈ lifeFailures c k l b s) :
    r ∈ stateFailures l (decide (b = .retired)) s ∨ r ∈ busyFailures s := by
  rw [← signatures_iff_signedFor, ← recordFailures_eq_nil_iff] at hgood
  rw [lifeFailures, hgood.1, List.nil_append] at h
  exact List.mem_append.mp h

/-! ## Acceptance -/

/-- The state that a life-cycle command's cold reset starts from: the command is over and the fuses, the state and the keys are those
of its target (Table 15-4). -/
def enteredState (b : LifeCycle) (keys : Security → Security) (s : State) : State :=
  { endCommand mbOk s with security := keys { (endCommand mbOk s).security with state := b, count := s.security.count + 1 } }

/-- A transition that passes its checks, in a module with no cold reset in progress, boots from the state it enters. -/
theorem transition_of_passing (hphase : s.boot.phase ≠ .bootFail) (hpass : lifeFailures c k l b s = [] ∧ k.reservedZero = true)
    (hidle : coldRunning s = false) :
    transition l b (signatures c s) keys k s = startBoot (coldState (enteredState b keys s)) := by
  obtain ⟨hnil, hreserved⟩ := hpass
  have haccepted : ¬(unnamed k false s = true ∨ (!(lifeFailures c k l b s).isEmpty) = true) := by
    simp [unnamed_of_booted hphase, hreserved, hnil]
  have hrun : transition l b (signatures c s) keys k s = enterState b keys (endCommand mbOk s) := if_neg haccepted
  have hrunning : coldRunning (enteredState b keys s) = false := hidle
  exact hrun.trans (requestCold_of_idle (by decide) hrunning)

/-- Settles O39: whether a check fails decides between the refusal and the cold reset. -/
theorem lifeCycleCommandsWipeOrAreRefused : Obligations.LifeCycleCommandsWipeOrAreRefused := by
  intro c k l b s hlife hanswers hphase good from'
  have hpass : lifeFailures c k l b s = [] ∧ k.reservedZero = true ↔ good ∧ from' ∧ AtRest s := lifeFailures_eq_nil_iff
  rw [exec_lifeStep hlife, Laws.whenAnswering_yes s hanswers]
  refine ⟨fun hgood hfrom hrest hidle => ?_, fun hfail => ?_⟩
  · rw [transition_of_passing hphase (hpass.mpr ⟨hgood, hfrom, hrest⟩) hidle]
    have hboot := startBoot_frame (coldState (enteredState b (keyChange c) s))
    obtain ⟨hstate, hcount, hsvn, -, -⟩ :=
      keyChange_keysOnly (c := c) { (endCommand mbOk s).security with state := b, count := s.security.count + 1 }
    have henrolled := congrArg (fun x : State => x.security.enrolled) hboot
    have howner := congrArg (fun x : State => x.security.owner) hboot
    have hsecret := congrArg (fun x : State => x.security.secret) hboot
    refine ⟨_, rfl, (congrArg (fun x : State => x.security.state) hboot :).trans hstate,
      (congrArg (fun x : State => x.security.count) hboot :).trans hcount, (congrArg (fun x : State => x.security.minSvn) hboot :).trans hsvn,
      (congrArg State.ctxs hboot :), (congrArg State.slots hboot :), (congrArg State.adapters hboot :), (congrArg State.qps hboot :),
      (congrArg State.regs hboot :), (congrArg State.seals hboot :), (congrArg State.mem hboot :), (congrArg State.bank hboot :),
      (congrArg State.groups hboot :), (congrArg State.junction hboot :), (congrArg (fun x : State => x.faults.reserve) hboot :),
      (congrArg State.host hboot :), (congrArg (fun x : State => x.boot.wipeDone) hboot :), startBoot_phase _, ?_, ?_, ?_, ?_, ?_⟩
    · rintro rfl
      exact ⟨henrolled, howner⟩
    · rintro rfl
      exact ⟨henrolled, howner⟩
    · rintro rfl
      exact ⟨henrolled, howner⟩
    · rintro rfl
      exact hsecret
    · rintro (rfl | rfl | rfl | rfl)
      · exact ⟨henrolled, howner, hsecret⟩
      · exact ⟨henrolled, howner, hsecret⟩
      · exact ⟨henrolled, howner, hsecret⟩
      · exact ⟨henrolled, howner, hsecret⟩
  · obtain ⟨r, hended, hreason, hnamed⟩ := transition_of_failing (keys := keyChange c) hphase (mt hpass.mp hfail)
    have hmem (hgood : good) : r ∈ stateFailures l (decide (b = .retired)) s ∨ r ∈ busyFailures s := by
      obtain ⟨-, -, -, -, -, hreserved⟩ := hgood.1
      exact mem_lifeFailures_of_good hgood (hnamed hreserved)
    refine ⟨_, r, rfl, hended, hreason, fun hgood hrest => ?_, fun hgood hfrom => ?_⟩
    · refine (hmem hgood).elim eq_of_mem_stateFailures fun hbusy => ?_
      rw [busyFailures_eq_nil_iff.mpr hrest] at hbusy
      cases hbusy
    · refine (hmem hgood).elim (fun hstate => ?_) eq_of_mem_busyFailures
      rw [stateFailures_eq_nil_iff.mpr hfrom] at hstate
      cases hstate

end Sys2Proof.Machine
end

section
/-! PROOFS. SET_TENANT (R38, R388, R462): its refusal while a tenant holds something, and what it makes of the tenant's keys. -/

namespace Sys2Proof.Machine

variable {d : Fetched} {bs : List Byte} {t : Nat} {p : TenantParams} {s : State}

/-- A tenant's hold on contexts, handles and adapters, in the statement's words (R388). -/
theorem holdsAny_iff : holdsAny s t = true ↔ 0 < s.ctxCount t ∨ (∃ b ∈ s.bindings, b.tenant = t) ∨ ∃ a ∈ s.adapters, a.2.owner = t := by
  simp only [holdsAny, Bool.or_eq_true, decide_eq_true_eq, List.any_eq_true, beq_iff_eq, or_assoc]

/-! ## Parameters applied -/

/-- The parameters and the budget that a SET_TENANT leaves, with these keys (R70). -/
def retuned (p : TenantParams) (stamp : Nat) (adapterKey stateKey : Option Nat) (x : Tenant) : Tenant :=
  { x with params := some p, budget := newLevel x p, periodStart := stamp, refills := 0, adapterKey := adapterKey, stateKey := stateKey }

/-- Disabling a tenant other than 0 destroys both its keys (R388). -/
theorem applyParams_of_disabled (ht : t ≠ 0) (hoff : p.enabled = false) :
    applyParams t p s = modTenant t (retuned p s.stamp none none) s := by
  simp only [applyParams, hoff, ht, Bool.not_false, Bool.false_and, Bool.false_eq_true, if_false, if_true]
  rfl

/-- Enabling a tenant other than 0 takes the two next key numbers (R388). -/
theorem applyParams_of_fresh (ht : t ≠ 0) (hon : p.enabled = true) (hwas : (s.tenant t).enabled = false) :
    applyParams t p s = modTenant t (retuned p s.stamp (some s.security.nextKey) (some (s.security.nextKey + 1)))
      { s with security := { s.security with nextKey := s.security.nextKey + 2 } } := by
  have htenant : (t != 0) = true := bne_iff_ne.mpr ht
  simp only [applyParams, hon, hwas, htenant, ht, Bool.not_true, Bool.not_false, Bool.and_self, Bool.false_eq_true, if_false, if_true]
  rfl

/-- A tenant that stays enabled keeps its keys (R388). -/
theorem applyParams_of_enabled (hon : p.enabled = true) (hwas : (s.tenant t).enabled = true) :
    applyParams t p s = modTenant t (fun x => retuned p s.stamp x.adapterKey x.stateKey x) s := by
  simp only [applyParams, hon, hwas, Bool.not_true, Bool.and_false, Bool.false_and, Bool.false_eq_true, if_false, ite_self]
  rfl

/-! ## The command -/

/-- A SET_TENANT carries no handle (Table 02-2). -/
theorem ownHandle_of_setTenant (h : (Instr.setTenant d).wf = true) : ownHandle d = 0 := by
  have hop : dOpcode d.desc = 0x26 := dOpcode_of_wf h
  simp [ownHandle, carriesHandle, hop]

/-- A SET_TENANT whose parameters are in order is refused while it would disable a tenant that holds something; otherwise the
parameters apply (R388, R462). -/
theorem setTenantEffect_of_read (hread : readHost s 0 (dField d.desc 0x10 8) 64 = some bs) (hgood : paramsBad (leNat bs) = false)
    (hzero : dField d.desc 0x18 1 = 0 → (readParams (leNat bs)).enabled = true ∧ (readParams (leNat bs)).qpQuota = 16) :
    setTenantEffect d s =
      if (readParams (leNat bs)).enabled = false ∧ holdsAny s (dField d.desc 0x18 1) = true then complete d stIllegalState 0 s
      else complete d stOk 0 (applyParams (dField d.desc 0x18 1) (readParams (leNat bs)) s) := by
  have htaken : ¬(paramsBad (leNat bs) = true ∨
      dField d.desc 0x18 1 = 0 ∧ ((!(readParams (leNat bs)).enabled) = true ∨ (readParams (leNat bs)).qpQuota ≠ 16)) := by
    rintro (hbad | ⟨h0, hbad⟩)
    · exact absurd hbad (Bool.eq_false_iff.mp hgood)
    · simp [hzero h0] at hbad
  rw [setTenantEffect, hread]
  dsimp only
  rw [if_neg htaken]
  simp only [Bool.not_eq_true']

/-- A SET_TENANT completes with OK and no handle, its tenant and the key numbers changed. -/
theorem complete_setTenant (hwf : (Instr.setTenant d).wf = true) (f : Tenant → Tenant) (c : Security) :
    complete d stOk 0 (modTenant t f { consume d s with security := c }) = modTenant t f { answered d stOk 0 0 0 s with security := c } :=
  congrArg (fun h => modTenant t f { answered d stOk 0 h 0 s with security := c }) (ownHandle_of_setTenant hwf)

/-- Settles O38, by whether the parameters enable the tenant, and then by what it holds or whether it was enabled. -/
theorem disablingATenantDestroysItsKeys : Obligations.DisablingATenantDestroysItsKeys := by
  rintro d s bs ⟨hwf, hserving, hearly⟩ hread t p holds hgood hzero
  have hexec : exec (.setTenant d) s = .next (if p.enabled = false ∧ holdsAny (consume d s) t = true
      then complete d stIllegalState 0 (consume d s) else complete d stOk 0 (applyParams t p (consume d s))) := by
    rw [Laws.exec_setTenant hwf, Laws.whenServing_yes s hserving, takeEffect_of_passed _ hearly,
      setTenantEffect_of_read ((readHost_consume _ _ _).trans hread) hgood hzero]
  have hholds : holdsAny (consume d s) t = true ↔ holds := holdsAny_iff
  rw [hexec]
  refine ⟨fun hoff hheld => ?_, fun hoff hnone => ?_, fun hon hwas ht => ?_, fun hon hwas => ?_⟩
  · rw [if_pos ⟨hoff, hholds.mpr hheld⟩, complete_consume, ownHandle_of_setTenant hwf]
  · have ht : t ≠ 0 := fun h0 => by simp [p, hzero h0] at hoff
    have hself := Laws.tenant_modTenant_self (answered d stOk 0 0 0 s) t (retuned p s.stamp none none)
    rw [if_neg fun h => hnone (hholds.mp h.2), applyParams_of_disabled ht hoff]
    exact ⟨_, congrArg Host.Outcome.next (complete_setTenant hwf _ s.security), congrArg Tenant.params hself,
      congrArg Tenant.adapterKey hself, congrArg Tenant.stateKey hself, fun u hu => Laws.tenant_modTenant_other _ _ hu, rfl⟩
  · have hself := Laws.tenant_modTenant_self (answered d stOk 0 0 0 s) t
      (retuned p s.stamp (some s.security.nextKey) (some (s.security.nextKey + 1)))
    rw [if_neg fun h => by simp [hon] at h, applyParams_of_fresh (s := consume d s) ht hon hwas]
    exact ⟨_, congrArg Host.Outcome.next (complete_setTenant hwf _ { s.security with nextKey := s.security.nextKey + 2 }),
      congrArg Tenant.params hself, congrArg Tenant.adapterKey hself, congrArg Tenant.stateKey hself,
      fun u hu => Laws.tenant_modTenant_other _ _ hu, rfl⟩
  · have hself := Laws.tenant_modTenant_self (answered d stOk 0 0 0 s) t (fun x => retuned p s.stamp x.adapterKey x.stateKey x)
    rw [if_neg fun h => by simp [hon] at h, applyParams_of_enabled (s := consume d s) hon hwas]
    exact ⟨_, congrArg Host.Outcome.next (complete_setTenant hwf _ s.security), congrArg Tenant.params hself,
      (congrArg Tenant.adapterKey hself :), (congrArg Tenant.stateKey hself :), fun u hu => Laws.tenant_modTenant_other _ _ hu, rfl⟩

end Sys2Proof.Machine
end

section
/-! PROOFS. Attestation (R384 to R386, Table 15-6): what the responder of a function becomes and replies, in the order of the
negotiation. -/

namespace Sys2Proof.Machine

variable {fn kind : Nat} {f : State → State} {g : Spdm → Spdm} {r : Reply} {s y : State}

/-! ## Gates -/

theorem whenAttesting_of_attests (h : attests s) : whenAttesting f s = f s := if_pos h

/-- A request for which the negotiation has come far enough is taken (R384). -/
theorem after_of_ready {ready : Bool} (h : ready = true) : after ready f s = f s := if_pos h

/-- One that comes before its turn is answered by an error (log 28). -/
theorem after_of_not_ready {ready : Bool} (h : ready = false) : after ready f s = onlyReplies (.spdmError 4) s :=
  if_neg (Bool.eq_false_iff.mp h)

theorem negotiated_of_algorithms (h : (s.spdmOf fn).algorithms = true) : negotiated fn f s = f s := after_of_ready h

theorem negotiated_of_not_algorithms (h : (s.spdmOf fn).algorithms = false) : negotiated fn f s = onlyReplies (.spdmError 4) s :=
  after_of_not_ready h

/-! ## Responders -/

/-- Only the responder of a function has changed, into what `g` makes of it. -/
def Became (fn : Nat) (g : Spdm → Spdm) (s y : State) : Prop :=
  y.spdmOf fn = g (s.spdmOf fn) ∧ (∀ u, u ≠ fn → y.spdmOf u = s.spdmOf u) ∧
    y = { s with security := { s.security with spdm := y.security.spdm } }

theorem became_id : Became fn id s s := ⟨rfl, fun _ _ => rfl, rfl⟩

theorem modSpdm_became : Became fn g s (modSpdm fn g s) :=
  ⟨Laws.fmGet_fmModify_self s.security.spdm fn freshSpdm g, fun _ hu => Laws.fmGet_fmModify_other s.security.spdm freshSpdm freshSpdm g hu, rfl⟩

/-- A reply after the responder has changed. -/
theorem reply_modSpdm_responds : Responds fn r g s (reply r (modSpdm fn g s)) := by
  obtain ⟨hself, hother, -⟩ := modSpdm_became (fn := fn) (g := g) (s := s)
  exact ⟨hself, hother, rfl⟩

theorem length_signWith (s : State) (slh : Bool) (d : BitVec 384) (n : Nat) : (signWith s slh d n).length = n := by
  simp [signWith]

/-- A signed response of a responder that has changed: 384 bytes of signature, over a transcript that is kept (R385). -/
theorem signResponse_respondsSigned (h : Became fn g s y) : RespondsSigned fn kind g s (signResponse fn kind y) := by
  obtain ⟨hself, hother, hframe⟩ := h
  let d := Config.transcript y.freeIndex
  have hsigned : Became fn (fun z => { z with lastSigned := some d })
      (reply (.spdmSigned kind d (signWith (takeFree y).2 false d 384)) (takeFree y).2)
      (signResponse fn kind y) := modSpdm_became
  obtain ⟨hkept, hrest, -⟩ := hsigned
  refine ⟨d, signWith (takeFree y).2 false d 384, y.freeIndex + 1, length_signWith _ _ _ _, ?_, fun u hu => (hrest u hu).trans (hother u hu), ?_⟩
  · exact hkept.trans (congrArg (fun z : Spdm => { z with lastSigned := some d }) hself)
  · exact (congrArg (fun z : State => onlyReplies (.spdmSigned kind d (signWith (takeFree y).2 false d 384))
      { z with freeIndex := y.freeIndex + 1, security := { z.security with spdm := (signResponse fn kind y).security.spdm } }) hframe :)

/-! ## Measurements (Table 15-6, R386) -/

/-- Measurements are of the firmware, the boot and the snapshot of the latest boundary, and of nothing that has changed since. -/
theorem measurement_congr {k : Nat} (hsecurity : y.security = s.security) (hversion : y.fwVersion = s.fwVersion) :
    measurement y fn k = measurement s fn k := by
  simp only [measurement, hsecurity, hversion]

/-- A request for one measurement is answered by it, and by a signature where that is asked for. -/
theorem measurements_of_one {i : Nat} {signed : Bool} (hone : 1 ≤ i) (height : i ≤ 8) : measurements fn i signed s =
    let x := onlyReplies (.spdmMeasurements i [(i, measurement s fn i)]) s
    if signed then signResponse fn 2 x else x := by
  have hzero : i ≠ 0 := by omega
  have hall : i ≠ 0xFF := by omega
  simp only [measurements, hzero, hall, height, if_false, if_true]
  rfl

/-- What the latest signed response covered, signed again under the SLH-DSA key (R385). -/
theorem pqSignature_of_some {d : BitVec 384} (h : (s.spdmOf fn).lastSigned = some d) :
    pqSignature fn s = onlyReplies (.pqSignature d (signWith s true d 16224)) s := by
  rw [pqSignature, h]
  rfl

theorem pqSignature_of_none (h : (s.spdmOf fn).lastSigned = none) : pqSignature fn s = onlyReplies (.spdmError 4) s := by
  rw [pqSignature, h]
  rfl

/-! ## Requests -/

/-- A measurement request of an attesting module, once algorithms are negotiated. -/
theorem exec_getMeasurements_of_negotiated {i : Nat} {signed : Bool} {n : BitVec 256} (hfn : tenantOk fn = true) (hs : attests s)
    (hready : (s.spdmOf fn).algorithms = true) : exec (.getMeasurements fn i signed n) s = .next (measurements fn i signed s) := by
  rw [Laws.exec_getMeasurements hfn, whenAttesting_of_attests hs, negotiated_of_algorithms hready]

/-- Before algorithms are negotiated no digest, certificate, challenge, measurement or signature is given (log 28). -/
theorem exec_of_not_negotiated {c : Instr} (hfn : tenantOk fn = true) (hs : attests s) (hready : (s.spdmOf fn).algorithms = false)
    (hc : c = .getDigests fn ∨ (∃ k o n, c = .getCertificate fn k o n) ∨ (∃ k n, c = .challenge fn k n) ∨
      (∃ i b n, c = .getMeasurements fn i b n) ∨ c = .getPqSignature fn ∨ ∃ o, c = .getPqCertificate fn o) :
    exec c s = .next (onlyReplies (.spdmError 4) s) := by
  rcases hc with rfl | ⟨k, o, n, rfl⟩ | ⟨k, n, rfl⟩ | ⟨i, b, n, rfl⟩ | rfl | ⟨o, rfl⟩
  · rw [Laws.exec_getDigests hfn, whenAttesting_of_attests hs, negotiated_of_not_algorithms hready]
  · rw [Laws.exec_getCertificate hfn, whenAttesting_of_attests hs, negotiated_of_not_algorithms hready]
  · rw [Laws.exec_challenge hfn, whenAttesting_of_attests hs, negotiated_of_not_algorithms hready]
  · rw [Laws.exec_getMeasurements hfn, whenAttesting_of_attests hs, negotiated_of_not_algorithms hready]
  · rw [Laws.exec_getPqSignature hfn, whenAttesting_of_attests hs, negotiated_of_not_algorithms hready]
  · rw [Laws.exec_getPqCertificate hfn, whenAttesting_of_attests hs, negotiated_of_not_algorithms hready]

/-- Settles O41, request by request: the three of the negotiation, those before it is complete and those after. -/
theorem attestationAnswersInOrder : Obligations.AttestationAnswersInOrder := by
  intro fn s hlt hs y
  have hfn : tenantOk fn = true := decide_eq_true hlt
  refine ⟨?_, fun hversion => ?_, fun hversion => ?_, fun hcapabilities => ?_, fun hcapabilities => ?_,
    fun hready c hc => exec_of_not_negotiated hfn hs hready hc, fun hready => ?_, fun i hi => ?_⟩
  · rw [Laws.exec_getVersion hfn, whenAttesting_of_attests hs]
    exact ⟨_, rfl, reply_modSpdm_responds⟩
  · rw [Laws.exec_getCapabilities hfn, whenAttesting_of_attests hs, after_of_ready hversion]
    exact ⟨_, rfl, reply_modSpdm_responds⟩
  · rw [Laws.exec_getCapabilities hfn, whenAttesting_of_attests hs, after_of_not_ready hversion]
  · rw [Laws.exec_negotiateAlgorithms hfn, whenAttesting_of_attests hs, after_of_ready hcapabilities]
    exact ⟨_, rfl, reply_modSpdm_responds⟩
  · rw [Laws.exec_negotiateAlgorithms hfn, whenAttesting_of_attests hs, after_of_not_ready hcapabilities]
  · refine ⟨?_, fun o n => ?_, fun k o n hk => ?_, fun n => ?_, fun n i hone height => ?_, fun n => ?_,
      fun d hd => ?_, fun hd => ?_, fun o => ?_⟩
    · rw [Laws.exec_getDigests hfn, whenAttesting_of_attests hs, negotiated_of_algorithms hready]
      exact ⟨_, rfl⟩
    · rw [Laws.exec_getCertificate hfn, whenAttesting_of_attests hs, negotiated_of_algorithms hready]
      exact ⟨_, rfl, List.length_take_le _ _⟩
    · rw [Laws.exec_getCertificate hfn, whenAttesting_of_attests hs, negotiated_of_algorithms hready, certificate, if_neg hk]
      rfl
    · rw [Laws.exec_challenge hfn, whenAttesting_of_attests hs, negotiated_of_algorithms hready, if_pos rfl]
      exact ⟨_, rfl, signResponse_respondsSigned became_id⟩
    · refine ⟨measurement s fn i, ?_, ?_, fun h => ?_, fun h => ?_, fun h => ?_, fun r hanswers hphase hsecurity hfirmware => ?_⟩
      · rw [exec_getMeasurements_of_negotiated hfn hs hready, measurements_of_one hone height]
        rfl
      · rw [exec_getMeasurements_of_negotiated hfn hs hready, measurements_of_one hone height]
        exact ⟨_, rfl, signResponse_respondsSigned became_id⟩
      · subst h
        rfl
      · subst h
        rfl
      · subst h
        exact ⟨_, rfl⟩
      · have hr : attests r := ⟨hanswers, hphase, hsecurity ▸ hs.2.2⟩
        have hsame : r.spdmOf fn = s.spdmOf fn := congrArg (fun c : Security => fmGet c.spdm fn freshSpdm) hsecurity
        rw [exec_getMeasurements_of_negotiated hfn hr (hsame ▸ hready), measurements_of_one hone height, measurement_congr hsecurity hfirmware]
        rfl
    · rw [exec_getMeasurements_of_negotiated hfn hs hready]
      rfl
    · rw [Laws.exec_getPqSignature hfn, whenAttesting_of_attests hs, negotiated_of_algorithms hready, pqSignature_of_some hd]
      exact ⟨_, rfl, length_signWith _ _ _ _⟩
    · rw [Laws.exec_getPqSignature hfn, whenAttesting_of_attests hs, negotiated_of_algorithms hready, pqSignature_of_none hd]
    · rw [Laws.exec_getPqCertificate hfn, whenAttesting_of_attests hs, negotiated_of_algorithms hready]
      exact ⟨_, rfl, List.length_take_le _ _⟩
  · rw [Laws.exec_doeDiscovery hfn, Laws.whenAnswering_yes s hs.1, discover, if_pos (Nat.le_of_lt_succ hi)]
    rfl

end Sys2Proof.Machine
end

section
/-! PROOFS. Sessions and link keys (R384, R387): what a request makes of the responder of its function, and an IDE request of its
stream. -/

namespace Sys2Proof.Machine

variable {fn n op : Nat} {f : State → State} {s : State}

/-! ## Sessions (R384) -/

/-- A FINISH that names no session in its handshake is answered by an error (log 28). -/
theorem finishSession_of_unknown {ok : Bool} (h : n ∉ (s.spdmOf fn).handshaking) :
    finishSession fn n ok s = onlyReplies (.spdmError 2) s := by
  have hunknown : (s.spdmOf fn).handshaking.contains n = false := by simpa using h
  simp only [finishSession, hunknown, Bool.not_false, if_true]
  rfl

/-- A good FINISH establishes the session in its handshake. -/
theorem finishSession_good (h : n ∈ (s.spdmOf fn).handshaking) : finishSession fn n true s =
    reply (.spdmFinish n) (modSpdm fn (fun y => { y with handshaking := y.handshaking.filter (· != n), sessions := y.sessions ++ [n] }) s) := by
  have hknown : (s.spdmOf fn).handshaking.contains n = true := by simpa using h
  simp only [finishSession, hknown, Bool.not_true, Bool.false_eq_true, if_false, if_true]

/-- A FINISH with a wrong MAC ends the session in its handshake. -/
theorem finishSession_bad (h : n ∈ (s.spdmOf fn).handshaking) : finishSession fn n false s =
    reply (.spdmError 6) (modSpdm fn (fun y => { y with handshaking := y.handshaking.filter (· != n) }) s) := by
  have hknown : (s.spdmOf fn).handshaking.contains n = true := by simpa using h
  simp only [finishSession, hknown, Bool.not_true, Bool.false_eq_true, if_false]

theorem inSession_of_mem (h : n ∈ (s.spdmOf fn).sessions) : inSession fn n f s = f s :=
  if_pos (List.contains_iff_mem.mpr h)

theorem inSession_of_not_mem (h : n ∉ (s.spdmOf fn).sessions) : inSession fn n f s = onlyReplies (.spdmError 2) s :=
  if_neg (mt List.contains_iff_mem.mp h)

/-- Outside an established session nothing is kept alive, updated or ended (log 28). -/
theorem exec_of_not_in_session {c : Instr} (hfn : tenantOk fn = true) (hs : attests s) (hn : n ∉ (s.spdmOf fn).sessions)
    (hc : c = .heartbeat fn n ∨ c = .endSession fn n ∨ ∃ o, c = .keyUpdate fn n o) : exec c s = .next (onlyReplies (.spdmError 2) s) := by
  rcases hc with rfl | rfl | ⟨o, rfl⟩
  · rw [Laws.exec_heartbeat hfn, whenAttesting_of_attests hs, inSession_of_not_mem hn]
  · rw [Laws.exec_endSession hfn, whenAttesting_of_attests hs, inSession_of_not_mem hn]
  · rw [Laws.exec_keyUpdate hfn, whenAttesting_of_attests hs, inSession_of_not_mem hn]

/-! ## IDE streams (R387) -/

/-- The IDE stream of a number, without keys where none is listed. -/
def streamOf (s : State) (n : Nat) : IdeStream := fmGet s.security.ide n { programmed := false, secure := false, keyGen := 0 }

/-- A change of a stream is what it makes of that stream, whatever is replied. -/
theorem modStream_streamBecomes (g : IdeStream → IdeStream) (o : Output) :
    StreamBecomes n (g (streamOf s n)) s { modStream n g s with out := o } :=
  ⟨Laws.fmFind_fmSet_self s.security.ide n _, fun _ hm => Laws.fmFind_fmSet_other s.security.ide _ hm, rfl⟩

/-- What starting, stopping or refreshing the keys of a stream makes of it (R387, log 28). -/
def streamChange (op : Nat) (x : IdeStream) : IdeStream :=
  if op = 1 then { x with secure := true } else if op = 2 then { x with secure := false } else { x with keyGen := x.keyGen + 1 }

/-- A stream whose keys are programmed is started, stopped or given new keys. -/
theorem manageKeys_of_programmed (h : (streamOf s n).programmed = true) (hop : op = 1 ∨ op = 2 ∨ op = 3) :
    manageKeys n op s = reply (.ideAck n) (modStream n (streamChange op) s) := by
  unfold streamOf at h
  rcases hop with rfl | rfl | rfl <;> simp [manageKeys, h] <;> rfl

/-- IDE keys outside a secured session are not taken (R387). -/
theorem takeKm_of_unsecured : takeKm n false op s = s := rfl

theorem takeKm_of_no_session {secured : Bool} (h : (s.spdmOf 0).sessions = []) : takeKm n secured op s = s := by
  simp [takeKm, h]

theorem takeKm_of_session (h : (s.spdmOf 0).sessions ≠ []) (hn : n < 5) : takeKm n true op s = manageKeys n op s := by
  simp [takeKm, h, streamOk, hn]

/-- A listed value is among the table's entries. -/
theorem mem_of_fmFind {α : Type} {m : FMap α} {v : α} (h : fmFind m n = some v) : (n, v) ∈ m := by
  induction m with
  | nil => cases h
  | cons x r ih =>
    obtain ⟨k, w⟩ := x
    rw [fmFind] at h
    split at h
    next hk =>
      cases hk
      cases h
      exact List.mem_cons_self
    next => exact List.mem_cons_of_mem _ (ih h)

/-- With IDE_REQUIRED set, a stream outside the Secure state holds traffic back (R387). -/
theorem ideHeld_of_insecure {y : IdeStream} (hrequired : s.reg 0x4C 0 0 = 1) (hfind : fmFind s.security.ide n = some y)
    (hinsecure : y.secure = false) : s.ideHeld = true := by
  have hall : (s.security.ide.all fun x => x.2.secure) = false :=
    List.all_eq_false.mpr ⟨(n, y), mem_of_fmFind hfind, by simp [hinsecure]⟩
  simp [State.ideHeld, hrequired, hall]

/-! ## Requests -/

theorem exec_ideKm_of_attests {secured : Bool} (hs : attests s) : exec (.ideKm n secured op) s = .next (takeKm n secured op s) := by
  rw [Laws.exec_ideKm rfl, whenAttesting_of_attests hs]

/-- Settles O42, request by request: the handshake, the session, the stream. -/
theorem sessionsAndLinkKeys : Obligations.SessionsAndLinkKeys := by
  intro fn n s hlt hs y stream
  have hfn : tenantOk fn = true := decide_eq_true hlt
  refine ⟨fun b hready => ?_, fun k b hready hk => ?_, fun ok hn => ?_, fun hn => ⟨?_, ?_⟩, fun hn c hc => exec_of_not_in_session hfn hs hn hc,
    fun hn => ⟨?_, fun o ho => ?_, ?_⟩, fun o => ?_, fun o hnone => ?_, fun hsession hn => ⟨?_,
    fun hprogrammed => ⟨?_, ?_, ?_⟩⟩, fun hlisted => ?_⟩
  · rw [Laws.exec_keyExchange hfn, whenAttesting_of_attests hs, negotiated_of_algorithms hready, beginSession, if_pos rfl]
    exact ⟨_, rfl, signResponse_respondsSigned modSpdm_became⟩
  · rw [Laws.exec_keyExchange hfn, whenAttesting_of_attests hs, negotiated_of_algorithms hready, beginSession, if_neg hk]
    rfl
  · rw [Laws.exec_finish hfn, whenAttesting_of_attests hs, finishSession_of_unknown hn]
  · rw [Laws.exec_finish hfn, whenAttesting_of_attests hs, finishSession_good hn]
    exact ⟨_, rfl, reply_modSpdm_responds⟩
  · rw [Laws.exec_finish hfn, whenAttesting_of_attests hs, finishSession_bad hn]
    exact ⟨_, rfl, reply_modSpdm_responds⟩
  · rw [Laws.exec_heartbeat hfn, whenAttesting_of_attests hs, inSession_of_mem hn]
    rfl
  · have hop : ¬(o = 0 ∨ 3 < o) := by omega
    rw [Laws.exec_keyUpdate hfn, whenAttesting_of_attests hs, inSession_of_mem hn, updateKeys, if_neg hop]
    exact ⟨_, rfl, reply_modSpdm_responds⟩
  · rw [Laws.exec_endSession hfn, whenAttesting_of_attests hs, inSession_of_mem hn]
    exact ⟨_, rfl, reply_modSpdm_responds⟩
  · rw [exec_ideKm_of_attests hs, takeKm_of_unsecured]
  · rw [exec_ideKm_of_attests hs, takeKm_of_no_session hnone]
  · rw [exec_ideKm_of_attests hs, takeKm_of_session hsession hn]
    exact ⟨_, rfl, modStream_streamBecomes _ _⟩
  · rw [exec_ideKm_of_attests hs, takeKm_of_session hsession hn, manageKeys_of_programmed hprogrammed (by decide)]
    exact ⟨_, rfl, modStream_streamBecomes (streamChange 1) _⟩
  · rw [exec_ideKm_of_attests hs, takeKm_of_session hsession hn, manageKeys_of_programmed hprogrammed (by decide)]
    exact ⟨_, rfl, modStream_streamBecomes (streamChange 2) _⟩
  · rw [exec_ideKm_of_attests hs, takeKm_of_session hsession hn, manageKeys_of_programmed hprogrammed (by decide)]
    exact ⟨_, rfl, modStream_streamBecomes (streamChange 3) _⟩
  · rw [Laws.exec_ideStreamInsecure rfl, Laws.whenAnswering_yes s hs.1, if_pos hlisted]
    have hbecomes := modStream_streamBecomes (s := s) (n := n) (fun x => { x with secure := false }) s.out
    exact ⟨_, rfl, hbecomes, fun hrequired => ideHeld_of_insecure hrequired hbecomes.1 rfl⟩

end Sys2Proof.Machine
end

section
/-! PROOFS. The frame of every command: no command touches the queue, and the seals stand unless SEAL_SET adds to them or a reset clears
them (R416, Table 17-2). -/

namespace Sys2Proof.Machine

variable {c : Instr} {s t : State}

/-- Whatever a command does to the fuses, it leaves the queue as it found it. -/
theorem exec_pending (h : exec c s = .next t) : t.pending = s.pending := by
  rcases exec_fuses h with ⟨hfuses, -⟩ | ⟨hqueue, -⟩ | ⟨_, _, _, -, -, -, -, -, -, -, -, hqueue, -⟩
  · exact (congrArg Prod.fst hfuses :)
  · exact hqueue
  · exact hqueue

/-- Settles O6: in each of the three things a command may do to the fuses the queue stands. -/
theorem commandsLeaveTheQueueAlone : Obligations.CommandsLeaveTheQueueAlone :=
  fun _ _ _ => exec_pending

theorem seals_of_lived (h : Laws.Lived s t) : t.seals = s.seals := by
  obtain ⟨hlife, -⟩ := h
  simp only [Laws.lifeOf, Prod.mk.injEq] at hlife
  exact hlife.2.1

/-- A write of SEAL_SET adds its bits to the seals of a module whose registers answer, and adds none to another's (R416). -/
theorem exec_sealSet_cases {bits : BitVec 6} (h : exec (.sealSet bits) s = .next t) : t = s ∨ t = setSeals bits s := by
  rw [Laws.exec_sealSet rfl] at h
  cases h
  exact Laws.whenAnswering_cases (P := fun x => x = s ∨ x = setSeals bits s) (.inl rfl) (.inr rfl)

/-- Settles O8, by whether the command sets a fuse or a seal: COMMIT_SVN and every command that sets neither leave the seals. -/
theorem onlyAResetClearsASeal : Obligations.OnlyAResetClearsASeal := by
  intro c s t hr h
  cases hf : mayFuse c with
  | false => exact .inl (seals_of_lived (Laws.exec_lived h hr hf))
  | true =>
    cases c with
    | sealSet bits =>
      rcases exec_sealSet_cases h with rfl | rfl
      · exact .inl rfl
      · exact .inr ⟨bits, rfl, rfl⟩
    | commitSvn k =>
      rcases Laws.execCommitSvn_cases h with hkept | ⟨-, hseals, -⟩
      · exact .inl (seals_of_lived hkept.lived)
      · exact .inl hseals
    | _ => cases hf

end Sys2Proof.Machine
end

section
/-! PROOFS. The pins (R391, R392, R412, R446): the input voltage and the latch set warnings, and ALERT# follows them. -/

namespace Sys2Proof.Machine

variable {v : Nat} {s : State}

theorem exec_powerWarn_of_outside (hon : s.power.on = true) (h : v < 4000 ∨ 5700 < v) :
    exec (.powerWarn v) s = .next (settleAlert { s with power := { s.power with vin := v, warn := true } }) := by
  have hout : outOfRange v = true := by simpa [outOfRange] using h
  rw [Laws.exec_powerWarn rfl, Laws.whenOn_on s hon, if_pos hout]

theorem exec_powerWarnClear_of_inside (hon : s.power.on = true) (hlow : 4000 ≤ v) (hhigh : v ≤ 5700) :
    exec (.powerWarnClear v) s = .next (settleAlert { s with power := { s.power with vin := v, warn := false } }) := by
  have hin : outOfRange v = false := by simp [outOfRange, hlow, hhigh]
  rw [Laws.exec_powerWarnClear rfl, Laws.whenOn_on s hon, if_neg (Bool.eq_false_iff.mp hin)]

/-- ALERT# is asserted by any one of its four causes (R446). -/
theorem settleAlert_of_warn (h : s.power.warn = true) : settleAlert s = { s with out := { s.out with alert := true } } := by
  simp [settleAlert, h]

theorem settleAlert_of_latchOpen (h : s.boot.latchOpen = true) : settleAlert s = { s with out := { s.out with alert := true } } := by
  simp [settleAlert, h]

theorem exec_latchOpen_of_on (hon : s.power.on = true) : exec .latchOpen s = .next (openLatch s) := by
  rw [Laws.exec_latchOpen rfl, Laws.whenOn_on s hon]

/-- Settles O32, pin by pin: each warning is set with the alert, and the alert is settled again where one is cleared. -/
theorem pinsSetWarningsAndTheAlert : Obligations.PinsSetWarningsAndTheAlert := by
  intro v s _ hon alert
  refine ⟨fun hout => ?_, fun hlow hhigh => ?_, ?_, fun hunready hclosed => ?_, fun hready => ?_, fun hopen => ⟨?_, fun hup => ?_⟩⟩
  · rw [exec_powerWarn_of_outside hon hout, settleAlert_of_warn rfl]
  · rw [exec_powerWarnClear_of_inside hon hlow hhigh]
    rfl
  · rw [Laws.exec_inputInterruption rfl, Laws.whenOn_on s hon]
  · have hopens : ¬(s.boot.removeReady = true ∨ s.boot.latchOpen = true) := by simp [hunready, hclosed]
    rw [exec_latchOpen_of_on hon, openLatch, if_neg hopens, settleAlert_of_latchOpen rfl]
  · rw [exec_latchOpen_of_on hon, openLatch, if_pos (.inl hready)]
  · rw [Laws.exec_latchClose rfl, Laws.whenOn_on s hon, closeLatch, if_pos hopen]
    rfl
  · rw [Laws.exec_latchTimeout rfl, Laws.whenOn_on s hon, if_pos ⟨hopen, hup⟩]

end Sys2Proof.Machine
end

section
/-! PROOFS. Cold and warm reset (R402, R403, R407, Table 16-5): what either leaves, and the resets that are absorbed. -/

namespace Sys2Proof.Machine

variable {c : Instr} {cause : ColdCause} {s : State}

/-! ## Cold reset -/

/-- A cold reset from a register or a pin and one from the sideband are the same request. -/
theorem exec_eq_requestCold (hc : c = .coldReset cause ∨ (c = .sidebandColdReset ∧ cause = .sideband)) (hon : s.power.on = true) :
    exec c s = .next (requestCold cause s) := by
  rcases hc with rfl | ⟨rfl, rfl⟩
  · rw [Laws.exec_coldReset rfl, Laws.whenOn_on s hon]
  · rw [Laws.exec_sidebandColdReset rfl, Laws.whenOn_on s hon]

/-- The state but for what the boot ROM reaches. -/
def outsideBoot (s : State) : State :=
  { s with
    freeIndex := 0, clock := freshClock, stamp := 0, fwVersion := 0, tplMin := 0, tplMax := 0, health := [],
    security := { s.security with nonce := 0, bootState := [], booted := 0 },
    boot := { s.boot with phase := .held, warm := false, staged := [], discarded := [] } }

theorem startBoot_outsideBoot (s : State) : outsideBoot (startBoot s) = outsideBoot s :=
  (congrArg outsideBoot (startBoot_frame s) :)

/-- A cold reset boots from the state it leaves, unless PERST# holds it; the boot ROM runs outside what the reset clears (R402). -/
theorem coldReset_outsideBoot (cause : ColdCause) (s : State) : outsideBoot (coldReset cause s) = outsideBoot (coldState s) := by
  unfold coldReset
  split
  · rfl
  · exact startBoot_outsideBoot (coldState s)

theorem coldReset_clock (cause : ColdCause) (s : State) : (coldReset cause s).clock.count = 0 := by
  unfold coldReset
  split
  · rfl
  · exact (congrArg (fun x : State => x.clock.count) (startBoot_frame (coldState s)) :)

/-- PERST# holds the boot ROM, so the module stays held and its staged repairs wait (R405, R414). -/
theorem coldReset_perst (s : State) : (coldReset .perst s).boot.phase = .held ∧ (coldReset .perst s).health = s.health := ⟨rfl, rfl⟩

theorem coldReset_phase_of_ne_perst (hcause : cause ≠ .perst) :
    (coldReset cause s).boot.phase = .training ∨ (coldReset cause s).boot.phase = .bootFail := by
  rw [coldReset, if_neg hcause]
  exact startBoot_phase (coldState s)

/-- Settles O34, by whether a cold reset runs already: what the boot ROM leaves is as the reset left it. -/
theorem coldResetReturnsAllToReset : Obligations.ColdResetReturnsAllToReset := by
  intro c cause s hc hon
  rw [exec_eq_requestCold hc hon]
  refine ⟨fun hrunning => by rw [requestCold, if_pos hrunning], fun hidle => ?_⟩
  rw [requestCold, if_neg (Bool.eq_false_iff.mp hidle)]
  have hreset := coldReset_outsideBoot cause s
  refine ⟨_, rfl, (congrArg State.ctxs hreset :), (congrArg State.slots hreset :), (congrArg State.adapters hreset :),
    (congrArg State.qps hreset :), (congrArg State.regs hreset :), (congrArg State.seals hreset :), (congrArg State.tenants hreset :),
    (congrArg State.ports hreset :), (congrArg State.junction hreset :), (congrArg State.stepCounter hreset :), (congrArg State.mem hreset :),
    (congrArg State.groups hreset :), (congrArg (fun x : State => x.faults.fatal) hreset :),
    (congrArg (fun x : State => x.faults.dumpInReserve) hreset :), (congrArg (fun x : State => x.faults.reserve) hreset :),
    coldReset_clock cause s, (congrArg (fun x : State => x.security.state) hreset :), (congrArg (fun x : State => x.security.count) hreset :),
    (congrArg (fun x : State => x.security.minSvn) hreset :), (congrArg (fun x : State => x.security.bootBank) hreset :),
    (congrArg (fun x : State => x.security.enrolled) hreset :), (congrArg State.host hreset :),
    (congrArg (fun x : State => x.security.providerKey) hreset :), (congrArg (fun x : State => x.security.nextKey) hreset :), ?_,
    coldReset_phase_of_ne_perst, (congrArg (fun x : State => x.boot.wipeDone) hreset :)⟩
  rintro rfl
  exact coldReset_perst s

/-! ## Warm reset -/

/-- A warm reset from a register, from the sideband and of the physical function are one request; a hot reset is the link's (R403). -/
theorem exec_eq_requestWarm {cause : WarmCause}
    (hc : (c = .warmReset cause ∧ s.answers = true) ∨ (c = .sidebandWarmReset ∧ cause ≠ .hotReset ∧ s.power.on = true) ∨
      (c = .functionLevelReset 0 ∧ cause ≠ .hotReset ∧ s.answers = true)) :
    exec c s = .next (requestWarm (decide (cause = .hotReset)) s) := by
  rcases hc with ⟨rfl, hanswers⟩ | ⟨rfl, hcause, hon⟩ | ⟨rfl, hcause, hanswers⟩
  · rw [Laws.exec_warmReset rfl, Laws.whenAnswering_yes s hanswers]
  · rw [Laws.exec_sidebandWarmReset rfl, Laws.whenOn_on s hon, decide_eq_false hcause]
  · rw [Laws.exec_functionLevelReset rfl, Laws.whenAnswering_yes s hanswers, resetFunction, if_pos rfl, decide_eq_false hcause]

/-- The link stays up over a warm reset that is not a hot reset (R407). -/
theorem warmReset_linkWidth (cause : WarmCause) (s : State) :
    (warmReset (decide (cause = .hotReset)) s).boot.linkWidth = if cause = .hotReset then 0 else s.boot.linkWidth := by
  by_cases hcause : cause = .hotReset
  · rw [decide_eq_true hcause, if_pos hcause]
    rfl
  · rw [decide_eq_false hcause, if_neg hcause]
    rfl

/-- Settles O35, by whether the module is READY: the state a warm reset leaves has each field as Table 16-5 gives it. -/
theorem warmResetKeepsTheMapAndTheReserve : Obligations.WarmResetKeepsTheMapAndTheReserve := by
  intro c cause s hc
  rw [exec_eq_requestWarm hc]
  refine ⟨fun hbusy => by rw [requestWarm, if_neg hbusy], fun hready => ?_⟩
  rw [requestWarm, if_pos hready]
  exact ⟨_, rfl, rfl, rfl, rfl, rfl, rfl, rfl, rfl, rfl, rfl, rfl, rfl, rfl, rfl, rfl, rfl, rfl, rfl, rfl, rfl, rfl, rfl, rfl, rfl, rfl,
    rfl, rfl, rfl, rfl, rfl, warmReset_linkWidth cause s⟩

end Sys2Proof.Machine
end

section
/-! PROOFS. Writes of one 32-bit word (R415, R416, R458): the fields it counts as written pass and take effect, or the one that is refused is
recorded. -/

namespace Sys2Proof.Machine

variable {path : RegPath} {off a k n t o v : Nat} {l : List RegField} {c : Covered} {s : State}

/-! ## The fields that count (R415) -/

/-- A write begins by dropping the half held at its place. -/
def halfDropped (a : Nat) (s : State) : State := { s with halves := fmErase s.halves (fieldKey (a - a % 8) 0) }

/-- The kind with which a covered field is refused. -/
def coveredKind (path : RegPath) (s : State) (c : Covered) : Nat := fieldKind path c.addr c.field.lsb c.value c.word c.field.kind s

/-- The fields a write covers and counts as written. -/
def counted (s : State) (a n v : Nat) : List Covered := (coverWrite s a n v).filter (counts s)

/-- The refusal of a write, where there is one, is recorded under the path's offset. -/
def recordRefusal (path : RegPath) (off : Nat) (r : Option Nat) (s : State) : State :=
  match r with
  | some k => refuseWrite path off k s
  | none => s

/-- A write tests the fields that count, records the refusal and applies what passes. -/
theorem writeFields_eq : writeFields path off a n v s =
    forEach (((counted s a n v).map fun c => (c, coveredKind path s c)).filter fun x => decide (x.2 = 0))
      (fun x => applyField path x.1.addr x.1.field.lsb x.1.value (cmdBlock s (counted s a n v)))
      (recordRefusal path off (lowestRefusal ((counted s a n v).map fun c => (c, coveredKind path s c))) (halfDropped a s)) := rfl

/-- A write whose counted fields all pass takes effect field by field and records no refusal. -/
theorem writeFields_of_passing (hpass : ∀ c ∈ counted s a n v, coveredKind path s c = 0) : writeFields path off a n v s =
    forEach (counted s a n v) (fun c => applyField path c.addr c.field.lsb c.value (cmdBlock s (counted s a n v))) (halfDropped a s) := by
  have htested : (counted s a n v).map (fun c => (c, coveredKind path s c)) = (counted s a n v).map (fun c => (c, 0)) :=
    List.map_congr_left fun c hc => by rw [hpass c hc]
  have hnone : lowestRefusal ((counted s a n v).map fun c => (c, 0)) = none := by
    simp [lowestRefusal, List.filter_map, Function.comp_def, leastBy]
  rw [writeFields_eq, htested, hnone]
  simp [List.filter_map, Function.comp_def, forEach, List.foldl_map, recordRefusal]

/-- A write whose one counted field is refused records the refusal and sets nothing. -/
theorem writeFields_of_refused (hcounted : counted s a n v = [c]) (hkind : coveredKind path s c = k) (hk : k ≠ 0) :
    writeFields path off a n v s = refuseWrite path off k (halfDropped a s) := by
  rw [writeFields_eq, hcounted]
  simp [hkind, hk, lowestRefusal, leastBy, forEach, recordRefusal]

/-- A refusal is counted and changes no register. -/
theorem refuseWrite_regs : (refuseWrite path off k s).regs = s.regs := by
  cases path with
  | _ => rfl

theorem refuseWrite_halves : (refuseWrite path off k s).halves = s.halves := by
  cases path with
  | _ => rfl

/-! ## A word that holds no part of a 64-bit field -/

/-- A word of BAR0 with these writable fields, none of them of 64 bits. -/
structure NarrowWord (a : Nat) (l : List RegField) : Prop where
  aligned : a % 4 = 0
  fields : fieldsAt a = l
  notLower : wideAt a = none
  notUpper : a % 8 = 4 → wideAt (a - 4) = none

/-- A path that writes at this offset of its BAR0 writes this word. -/
def Addresses (path : RegPath) (off a : Nat) : Prop := (path = .pf ∧ off = a) ∨ ∃ t, path = .vf t ∧ tenantBase t + off = a

theorem NarrowWord.coverWrite_eq (ha : NarrowWord a l) : coverWrite s a 4 v = coverWord a (v % 2 ^ 32) := by
  have hupper : ¬(a % 8 = 4 ∧ (wideAt (a - 4)).isSome = true) := fun ⟨hhigh, hwide⟩ => by
    rw [ha.notUpper hhigh] at hwide
    cases hwide
  rw [coverWrite, if_neg (by decide), if_neg hupper]

/-- A write of such a word is a write of its fields. -/
theorem NarrowWord.writeRegister_eq (ha : NarrowWord a l) (haddr : Addresses path off a) (hoff : off % 4 = 0) :
    writeRegister path off 4 v s = writeFields path off a 4 v s := by
  have hwhole : ¬(((4 : Nat) ≠ 4 ∧ (4 : Nat) ≠ 8) ∨ off % 4 ≠ 0) := by omega
  have hheld : ¬holdsHalf a 4 = true := by simp [holdsHalf, ha.notLower]
  rcases haddr with ⟨rfl, rfl⟩ | ⟨t, rfl, rfl⟩
  · exact (if_neg hwhole).trans (if_neg hheld)
  · exact (if_neg hwhole).trans (if_neg hheld)

/-! ## Words of a tenant block (R428) -/

/-- A word at this offset lies in its tenant's block. -/
theorem tenantWord_place (ht : t < 256) (ho : o < 0x10000) :
    inTenant (tenantBase t + o) = true ∧ tenantOf (tenantBase t + o) = t ∧ (tenantBase t + o) % 0x10000 = o := by
  refine ⟨?_, ?_, ?_⟩
  · rw [inTenant, tenantBase, Bool.and_eq_true]
    exact ⟨decide_eq_true (by omega), decide_eq_true (by omega)⟩
  · rw [tenantOf, tenantBase]
    omega
  · rw [tenantBase]
    omega

/-- The offsets of a tenant block outside the queue pairs and the windows, which hold the block's fields of 64 bits (Tables 18-3, 18-5). -/
def besideWide (o : Nat) : Prop := o < 0x100 ∨ (0x1100 ≤ o ∧ o < 0x2000) ∨ 0x2200 ≤ o

theorem wideAt_tenant (ht : t < 256) (ho : o < 0x10000) (hout : besideWide o) : wideAt (tenantBase t + o) = none := by
  obtain ⟨hin, -, hmod⟩ := tenantWord_place ht ho
  generalize tenantBase t + o = a at *
  rw [inTenant, Bool.and_eq_true, decide_eq_true_eq, decide_eq_true_eq] at hin
  unfold besideWide at hout
  simp (disch := omega) only [wideAt, junctionBase, if_neg, if_pos, hmod]

theorem fieldsAt_tenant (ht : t < 256) (ho : o < 0x10000) : fieldsAt (tenantBase t + o) = tenantFields o := by
  obtain ⟨hin, -, hmod⟩ := tenantWord_place ht ho
  generalize tenantBase t + o = a at *
  rw [inTenant, Bool.and_eq_true, decide_eq_true_eq, decide_eq_true_eq] at hin
  simp (disch := omega) only [fieldsAt, junctionBase, sluiceBase, if_pos, if_neg, hmod]

theorem narrowWord_tenant (ht : t < 256) (ho : o < 0x10000) (haligned : o % 4 = 0) (hout : besideWide o)
    (hbelow : o % 8 = 4 → besideWide (o - 4)) : NarrowWord (tenantBase t + o) (tenantFields o) := by
  refine ⟨?_, fieldsAt_tenant ht ho, wideAt_tenant ht ho hout, fun hhigh => ?_⟩
  · rw [tenantBase]
    omega
  · have hmod : o % 8 = 4 := by
      rw [tenantBase] at hhigh
      omega
    rw [show tenantBase t + o - 4 = tenantBase t + (o - 4) by omega]
    exact wideAt_tenant ht (by omega) (hbelow hmod)

/-- A write of a tenant's word by a path that reaches the tenant is a write of the word's fields. -/
theorem NarrowWord.writeTenantWord_eq (ha : NarrowWord (tenantBase t + o) l) (hreach : pathReaches path t = true) (ho : o % 4 = 0) :
    writeTenantWord path t o v s = writeFields path (pathOffset path t o) (tenantBase t + o) 4 v s := by
  rw [writeTenantWord, if_pos hreach]
  cases path with
  | pf => exact ha.writeRegister_eq (.inl ⟨rfl, rfl⟩) ha.aligned
  | vf u =>
    have hsame : u = t := by simpa [pathReaches] using hreach
    subst hsame
    exact ha.writeRegister_eq (.inr ⟨u, rfl, rfl⟩) ho

/-- A field of a tenant block is refused by Table 18-1 first, and then by the tenant's own state (R429). -/
theorem coveredKind_tenant (ht : t < 256) (ho : o < 0x10000) (haddr : c.addr = tenantBase t + o) : coveredKind path s c =
    if pathKind path t o ≠ 0 then pathKind path t o else tenantKind s t o c.field.lsb c.value c.field.kind := by
  obtain ⟨hin, hof, hmod⟩ := tenantWord_place ht ho
  rw [coveredKind, haddr, fieldKind, if_pos hin, hof, hmod]

/-- A field of a tenant block is no field of the security mailbox. -/
theorem mailboxClosed_tenant : mailboxClosed s (tenantBase t + o) = false := by
  have hout : ¬tenantBase t + o < 0x40000 := by
    rw [tenantBase]
    omega
  simp [mailboxClosed, hout]

end Sys2Proof.Machine
end

section
/-! PROOFS. Seals (R416, R429, Table 18-1): SEAL_SET, and TENANT_SEAL on the provider's path and on the tenant's own. -/

namespace Sys2Proof.Machine

variable {path : RegPath} {t : Nat} {s : State}

/-- TENANT_SEAL written 1. -/
def sealField (t : Nat) : Covered := { addr := tenantBase t + 0x18, field := woField 0 1, value := 1, word := 1 }

theorem narrowWord_tenantSeal (ht : t < 256) : NarrowWord (tenantBase t + 0x18) [woField 0 1] :=
  narrowWord_tenant ht (by decide) rfl (.inl (by decide)) fun h => absurd h (by decide)

/-- TENANT_SEAL is write-only, so a write of it counts. -/
theorem counted_tenantSeal (ht : t < 256) : counted s (tenantBase t + 0x18) 4 1 = [sealField t] := by
  have hcounts : counts s (sealField t) = true := by simp [counts, sealField, mailboxClosed_tenant, woField]
  rw [counted, (narrowWord_tenantSeal ht).coverWrite_eq, coverWord, (narrowWord_tenantSeal ht).fields]
  exact List.filter_cons_of_pos hcounts

/-- The provider's write of TENANT_SEAL passes in a tenant that is not being reset. -/
theorem coveredKind_tenantSeal_pf (ht : t < 256) (hidle : (s.tenant t).resetPending = false) : coveredKind .pf s (sealField t) = 0 := by
  rw [coveredKind_tenant ht (by decide) rfl]
  simp [pathKind, providerField, tenantKind, hidle, sealField, woField]

/-- A tenant's own function may not write TENANT_SEAL (Table 18-1). -/
theorem coveredKind_tenantSeal_vf (ht : t < 256) (u : Nat) : coveredKind (.vf u) s (sealField t) = 9 :=
  coveredKind_tenant (o := 0x18) ht (by decide) rfl

theorem writeTenantWord_seal_pf (ht : t < 256) (hidle : (s.tenant t).resetPending = false) : writeTenantWord .pf t 0x18 1 s =
    modTenant t (fun x => { x with sealed := true }) (halfDropped (tenantBase t + 0x18) s) := by
  obtain ⟨hin, hof, hmod⟩ := tenantWord_place (o := 0x18) ht (by decide)
  have hpass : ∀ c ∈ counted s (tenantBase t + 0x18) 4 1, coveredKind .pf s c = 0 := by
    rw [counted_tenantSeal ht, List.forall_mem_singleton]
    exact coveredKind_tenantSeal_pf ht hidle
  rw [(narrowWord_tenantSeal ht).writeTenantWord_eq rfl rfl, writeFields_of_passing hpass, counted_tenantSeal ht]
  simp [forEach, sealField, woField, applyField, hin, applyTenant, hof, hmod]

theorem writeTenantWord_seal_vf (ht : t < 256) : writeTenantWord (.vf t) t 0x18 1 s =
    refuseWrite (.vf t) 0x18 9 (halfDropped (tenantBase t + 0x18) s) :=
  ((narrowWord_tenantSeal ht).writeTenantWord_eq (by simp [pathReaches]) rfl).trans
    (writeFields_of_refused (counted_tenantSeal ht) (coveredKind_tenantSeal_vf ht t) (by decide))

theorem exec_tenantSeal_of_exposed (hpath : path.wf = true) (ht : t < 256) (hexposed : s.exposed = true) :
    exec (.tenantSeal path t) s = .next (writeTenantWord path t 0x18 1 s) := by
  have hwf : (Instr.tenantSeal path t).wf = true := by simp [Instr.wf, hpath, tenantOk, ht]
  rw [Laws.exec_tenantSeal hwf, Laws.whenExposed_yes s hexposed]

/-- Settles O22, by the path on which TENANT_SEAL is written. -/
theorem sealsAreSet : Obligations.SealsAreSet := by
  intro t bits s ht
  refine ⟨fun hanswers => ?_, fun hexposed hidle => ⟨?_, fun hpos => ?_⟩⟩
  · rw [Laws.exec_sealSet rfl, Laws.whenAnswering_yes s hanswers, setSeals]
  · rw [exec_tenantSeal_of_exposed rfl ht hexposed, writeTenantWord_seal_pf ht hidle]
    exact ⟨_, rfl, Laws.tenant_modTenant_self _ t _, fun u hu => Laws.tenant_modTenant_other _ _ hu, rfl⟩
  · have hpath : (RegPath.vf t).wf = true := by simp [RegPath.wf, tenantOk, ht, Nat.pos_of_ne_zero hpos]
    rw [exec_tenantSeal_of_exposed hpath ht hexposed, writeTenantWord_seal_vf ht]
    exact ⟨_, rfl, rfl⟩

end Sys2Proof.Machine
end

section
/-! PROOFS. Fields of the PF's own blocks (R415, R416): a plain field takes its value, a sealed one keeps it, and a write of another size
or alignment is refused whole. -/

namespace Sys2Proof.Machine

variable {a i n o w d : Nat} {f : RegField} {v : Word64} {s : State}

/-! ## One field -/

/-- A word outside the security mailbox whose one field stands at its bit 0 and reads as the register there. -/
structure LoneField (a : Nat) (f : RegField) : Prop where
  word : NarrowWord a [f]
  atBitZero : f.lsb = 0
  outsideMailbox : a < 0x30000 ∨ 0x40000 ≤ a
  present : ∀ s : State, fieldNow s a f = s.reg a 0 f.reset

/-- The field with the value that a word written gives it. -/
def fieldWritten (a : Nat) (f : RegField) (v : Nat) : Covered :=
  { addr := a, field := f, value := v % 2 ^ 32 % 2 ^ f.width, word := v % 2 ^ 32 }

theorem LoneField.coverWrite_eq (ha : LoneField a f) (v : Nat) : coverWrite s a 4 v = [fieldWritten a f v] := by
  rw [ha.word.coverWrite_eq, coverWord, ha.word.fields, List.map_singleton, bitsOf, ha.atBitZero, pow_zero, Nat.div_one]
  rfl

/-- A field that is not write-only counts as written where its value changes. -/
theorem LoneField.counts_iff (ha : LoneField a f) (hkind : f.kind ≠ .wo) (v : Nat) :
    counts s (fieldWritten a f v) = true ↔ v % 2 ^ 32 % 2 ^ f.width ≠ s.reg a 0 f.reset := by
  have hopen : mailboxClosed s a = false := by
    have := ha.outsideMailbox
    simp only [mailboxClosed, Bool.and_eq_false_iff, decide_eq_false_iff_not]
    omega
  simp [counts, fieldWritten, hopen, hkind, ha.present, ne_comm]

theorem LoneField.counted_of_changed (ha : LoneField a f) (hkind : f.kind ≠ .wo) {v : Nat}
    (h : v % 2 ^ 32 % 2 ^ f.width ≠ s.reg a 0 f.reset) : counted s a 4 v = [fieldWritten a f v] := by
  rw [counted, ha.coverWrite_eq]
  exact List.filter_cons_of_pos ((ha.counts_iff hkind v).mpr h)

theorem LoneField.counted_of_same (ha : LoneField a f) (hkind : f.kind ≠ .wo) {v : Nat}
    (h : v % 2 ^ 32 % 2 ^ f.width = s.reg a 0 f.reset) : counted s a 4 v = [] := by
  rw [counted, ha.coverWrite_eq]
  exact List.filter_cons_of_neg (mt (ha.counts_iff hkind v).mp (not_not.mpr h))

theorem exec_registerWrite_of_exposed (hn : 0 < n) (hend : o + n ≤ 0x2000000) (hexposed : s.exposed = true) :
    exec (.registerWrite .pf o n v) s = .next (writeRegister .pf o n v.toNat s) := by
  have hwf : (Instr.registerWrite .pf o n v).wf = true := by simp [Instr.wf, RegPath.wf, RegPath.barSize, hn, hend]
  have hwrite : hostWriteRegister .pf o n v.toNat s = writeRegister .pf o n v.toNat s := if_pos (by rw [hexposed, Bool.true_or])
  rw [Laws.exec_registerWrite hwf, Laws.whenAnswering_yes s (answers_of_exposed hexposed), hwrite]

/-- A write of a word of the PF's own blocks is a write of its field. -/
theorem LoneField.exec_write (ha : LoneField a f) (hend : a + 4 ≤ 0x2000000) (hexposed : s.exposed = true) :
    exec (.registerWrite .pf a 4 v) s = .next (writeFields .pf a a 4 v.toNat s) := by
  rw [exec_registerWrite_of_exposed (by decide) hend hexposed, ha.word.writeRegister_eq (.inl ⟨rfl, rfl⟩) ha.word.aligned]

/-! ## Plain fields -/

/-- A field that no test refuses and whose only effect is to hold its value. -/
structure PlainField (a : Nat) (f : RegField) : Prop where
  lone : LoneField a f
  writable : f.kind = .rw
  passes : ∀ v w s, fieldKind .pf a 0 v w .rw s = 0
  holds : ∀ v b s, applyField .pf a 0 v b s = setReg a 0 v s

/-- A write of a plain field sets it, or finds it at its value already. -/
theorem PlainField.writeFields_eq (ha : PlainField a f) (v : Nat) :
    (v % 2 ^ 32 % 2 ^ f.width = s.reg a 0 f.reset ∧ writeFields .pf a a 4 v s = halfDropped a s) ∨
      writeFields .pf a a 4 v s = setReg a 0 (v % 2 ^ 32 % 2 ^ f.width) (halfDropped a s) := by
  have hkind : f.kind ≠ .wo := by
    rw [ha.writable]
    decide
  have hpass : coveredKind .pf s (fieldWritten a f v) = 0 := by
    simp only [coveredKind, fieldWritten, ha.lone.atBitZero, ha.writable]
    exact ha.passes _ _ s
  by_cases h : v % 2 ^ 32 % 2 ^ f.width = s.reg a 0 f.reset
  · have hcounted := ha.lone.counted_of_same hkind h
    rw [writeFields_of_passing (by simp [hcounted]), hcounted]
    exact .inl ⟨h, rfl⟩
  · have hcounted := ha.lone.counted_of_changed hkind h
    rw [writeFields_of_passing (by simpa [hcounted] using hpass), hcounted]
    refine .inr ?_
    simp only [forEach, List.foldl_cons, List.foldl_nil, fieldWritten, ha.lone.atBitZero, ha.holds]

/-- The plain fields of the global block (Table 17-2). -/
theorem plainField_global (h : (o, w, d) ∈ [(0x48, 16, 64), (0x50, 6, 0), (0x74, 16, 0), (0x110, 16, 0)]) :
    PlainField o (rwField 0 w d) ∧ o + 4 ≤ 0x2000000 ∧ w ≤ 32 := by
  simp only [List.mem_cons, Prod.mk.injEq, List.not_mem_nil, or_false] at h
  rcases h with ⟨rfl, rfl, rfl⟩ | ⟨rfl, rfl, rfl⟩ | ⟨rfl, rfl, rfl⟩ | ⟨rfl, rfl, rfl⟩
  all_goals
    exact ⟨⟨⟨⟨rfl, rfl, rfl, fun _ => rfl⟩, rfl, .inl (by decide), fun _ => rfl⟩, rfl, fun _ _ _ => rfl, fun _ _ _ => rfl⟩,
      by decide, by decide⟩

/-! ## Sealed fields -/

/-- A field that its seal guards (R416). -/
structure SealedField (a i : Nat) (f : RegField) : Prop where
  lone : LoneField a f
  guarded : f.kind = .rwl i
  locks : ∀ v w s, s.seals.getLsbD i = true → fieldKind .pf a 0 v w (.rwl i) s = 1

theorem SealedField.writeFields_eq (ha : SealedField a i f) (hseal : s.seals.getLsbD i = true) {v : Nat}
    (hchanged : v % 2 ^ 32 % 2 ^ f.width ≠ s.reg a 0 f.reset) : writeFields .pf a a 4 v s = refuseWrite .pf a 1 (halfDropped a s) := by
  have hkind : f.kind ≠ .wo := by
    rw [ha.guarded]
    exact RegKind.noConfusion
  have hlocked : coveredKind .pf s (fieldWritten a f v) = 1 := by
    simp only [coveredKind, fieldWritten, ha.lone.atBitZero, ha.guarded]
    exact ha.locks _ _ s hseal
  exact writeFields_of_refused (ha.lone.counted_of_changed hkind hchanged) hlocked (by decide)

theorem sealedField_ideRequired : SealedField 0x4C 0 (rwlField 0 1 0) :=
  ⟨⟨⟨rfl, rfl, rfl, fun _ => rfl⟩, rfl, .inl (by decide), fun _ => rfl⟩, rfl, fun _ _ _ h => if_pos h⟩

theorem sealedField_epochBase : SealedField 0x310020 5 (rwlField 0 32 5) :=
  ⟨⟨⟨rfl, rfl, rfl, fun _ => rfl⟩, rfl, .inr (by decide), fun _ => rfl⟩, rfl, fun _ _ _ h => if_pos h⟩

/-- A field whose seal is set keeps its value, and the write is recorded with kind 1 (R416). -/
theorem SealedField.exec_write (ha : SealedField a i f) (hend : a + 4 ≤ 0x2000000) (hexposed : s.exposed = true)
    (hseal : s.seals.getLsbD i = true) (hchanged : v.toNat % 2 ^ 32 % 2 ^ f.width ≠ s.reg a 0 f.reset) :
    exec (.registerWrite .pf a 4 v) s = .next (refuseWrite .pf a 1 (halfDropped a s)) := by
  rw [ha.lone.exec_write hend hexposed, ha.writeFields_eq hseal hchanged]

/-- Settles O23: a plain field is set, a write that is no word or field is refused whole, a sealed field by its seal. -/
theorem registerWriteSetsTheField : Obligations.RegisterWriteSetsTheField := by
  intro o n v s hexposed
  refine ⟨fun w d hfield => ?_, fun hn hend hshape => ?_, fun i hfield hseal hchanged => ?_⟩
  · obtain ⟨hplain, hend, hwidth⟩ := plainField_global hfield
    have hvalue : v.toNat % 2 ^ 32 % 2 ^ w = v.toNat % 2 ^ w := Nat.mod_mod_of_dvd _ (pow_dvd_pow 2 hwidth)
    rw [hplain.lone.exec_write hend hexposed]
    refine ⟨_, rfl, ?_⟩
    rcases hplain.writeFields_eq (s := s) v.toNat with ⟨hsame, hwrite⟩ | hwrite
    · rw [hwrite]
      exact ⟨hsame.symm.trans hvalue, fun _ _ _ _ => rfl, rfl⟩
    · rw [hwrite]
      exact ⟨(Laws.reg_setReg_self _ o 0 _ d).trans hvalue, fun a l e hother => Laws.reg_setReg_other _ _ e hother, rfl⟩
  · rw [exec_registerWrite_of_exposed hn hend hexposed]
    exact congrArg Host.Outcome.next (if_pos hshape)
  · simp only [List.mem_cons, Prod.mk.injEq, List.not_mem_nil, or_false] at hfield
    rcases hfield with ⟨rfl, rfl⟩ | ⟨rfl, rfl⟩
    · exact ⟨_, sealedField_ideRequired.exec_write (by decide) hexposed hseal hchanged, rfl, rfl⟩
    · have hwhole : v.toNat % 2 ^ 32 % 2 ^ 32 ≠ s.reg 0x310020 0 0 := hchanged
      exact ⟨_, sealedField_epochBase.exec_write (by decide) hexposed hseal hwhole, rfl, rfl⟩

end Sys2Proof.Machine
end

section
/-! PROOFS. Moderation (R435): a write of MOD_COUNT and MOD_TIME moderates the vector by the thresholds it leaves, at once. -/

namespace Sys2Proof.Machine

variable {path : RegPath} {t v n k lsb : Nat} {s : State}

/-! ## Moderating a vector -/

/-- A vector whose pending events meet a threshold fires (R435). -/
def moderate (t v : Nat) (s : State) : State := if moderationMet s t v then fireVector t v s else s

theorem moderate_of_met (h : moderationMet s t v = true) : moderate t v s = fireVector t v s := if_pos h

theorem moderate_of_not_met (h : moderationMet s t v = false) : moderate t v s = s := if_neg (Bool.eq_false_iff.mp h)

theorem moderate_of_idle (h : (s.vector t v).pending = 0) : moderate t v s = s := moderate_of_not_met (moderationMet_of_idle h)

/-- A vector meets its moderation at the count threshold as at the time threshold (R435). -/
theorem moderationMet_of_due (hpending : (s.vector t v).pending ≠ 0)
    (hdue : s.modCount t v ≤ (s.vector t v).pending ∨ (s.vector t v).oldest + ofNs (1000 * s.modTime t v) ≤ s.now) :
    moderationMet s t v = true :=
  hdue.elim (fun hcount => by simp [moderationMet, hpending, hcount]) (moderationMet_of_waited hpending)

/-- A vector fires alike before and after a register is set. -/
theorem setReg_fireVector (a x : Nat) : setReg a lsb x (fireVector t v s) = fireVector t v (setReg a lsb x s) := by
  have hsame : sendable ((setReg a lsb x s).tenant t) v = sendable (s.tenant t) v := rfl
  rw [fireVector, fireVector, hsame]
  split <;> rfl

/-- A vector that meets a threshold has an event pending. -/
theorem pending_of_moderationMet (h : moderationMet s t v = true) : (s.vector t v).pending ≠ 0 := fun hidle => by
  rw [moderationMet_of_idle hidle] at h
  cases h

/-- The vector stood, because it meets none of the thresholds that stand, or it had events pending and fired. -/
def ModeratedBy (t v : Nat) (s x : State) : Prop :=
  (moderationMet s t v = false ∧ x = s) ∨ ((s.vector t v).pending ≠ 0 ∧ x = fireVector t v s)

theorem moderate_moderatedBy : ModeratedBy t v s (moderate t v s) := by
  cases hmet : moderationMet s t v with
  | false => exact .inl ⟨hmet, moderate_of_not_met hmet⟩
  | true => exact .inr ⟨pending_of_moderationMet hmet, moderate_of_met hmet⟩

/-- A vector moderated before a register is set and again after it fires once at most, by what stands in the end. -/
theorem moderate_setReg_moderatedBy (a x : Nat) :
    ModeratedBy t v (setReg a lsb x s) (moderate t v (setReg a lsb x (moderate t v s))) := by
  cases hmet : moderationMet s t v with
  | false =>
    rw [moderate_of_not_met hmet]
    exact moderate_moderatedBy
  | true =>
    obtain ⟨hfired, -⟩ := fireVector_fired (t := t) (v := v) (s := setReg a lsb x s)
    have hpending := pending_of_moderationMet hmet
    exact .inr ⟨hpending, by rw [moderate_of_met hmet, setReg_fireVector, moderate_of_idle hfired]⟩

/-! ## The word of MOD_COUNT and MOD_TIME (Table 18-6) -/

/-- Where the word of a vector lies in its tenant block. -/
def modOffset (v : Nat) : Nat := 0x3100 + 4 * v

/-- MOD_COUNT with a value written to it. -/
def countField (t v n k : Nat) : Covered :=
  { addr := tenantBase t + modOffset v, field := rwField 0 9 1, value := n, word := n + k * 2 ^ 16 }

/-- MOD_TIME with a value written to it. -/
def timeField (t v n k : Nat) : Covered :=
  { addr := tenantBase t + modOffset v, field := rwField 16 10 0, value := k, word := n + k * 2 ^ 16 }

theorem modCount_eq_reg : s.modCount t v = s.reg (tenantBase t + modOffset v) 0 1 := by
  rw [State.modCount, modOffset, Nat.add_assoc]

theorem modTime_eq_reg : s.modTime t v = s.reg (tenantBase t + modOffset v) 16 0 := by
  rw [State.modTime, modOffset, Nat.add_assoc]

/-- The fields of a vector's word that a write changes. -/
def changedFields (t v n k : Nat) (s : State) : List Covered :=
  (if n ≠ s.modCount t v then [countField t v n k] else []) ++ (if k ≠ s.modTime t v then [timeField t v n k] else [])

theorem modOffset_range (hv : v < 64) : modOffset v % 4 = 0 ∧ 0x3100 ≤ modOffset v ∧ modOffset v < 0x3200 := by
  rw [modOffset]
  omega

theorem tenantFields_modOffset (hv : v < 64) : tenantFields (modOffset v) = [rwField 0 9 1, rwField 16 10 0] := by
  obtain ⟨-, hlow, hhigh⟩ := modOffset_range hv
  simp (disch := omega) only [tenantFields, if_neg, if_pos]

section Word

variable (ht : t < 256) (hv : v < 64)
include ht hv

theorem modOffset_place : inTenant (tenantBase t + modOffset v) = true ∧ tenantOf (tenantBase t + modOffset v) = t ∧
    (tenantBase t + modOffset v) % 0x10000 = modOffset v := by
  obtain ⟨-, -, hhigh⟩ := modOffset_range hv
  exact tenantWord_place ht (by omega)

/-- A field of the word reads as its register. -/
theorem fieldNow_moderation (f : RegField) :
    fieldNow s (tenantBase t + modOffset v) f = s.reg (tenantBase t + modOffset v) f.lsb f.reset := by
  obtain ⟨-, -, hmod⟩ := modOffset_place ht hv
  obtain ⟨-, -, hhigh⟩ := modOffset_range hv
  have hdata : inRaData (tenantBase t + modOffset v) = false := by
    have hout : ¬tenantBase t + modOffset v < junctionBase + 0x6000 := by
      rw [tenantBase, junctionBase]
      omega
    exact Bool.and_eq_false_iff.mpr (.inr (decide_eq_false hout))
  have htable : inMsix (tenantBase t + modOffset v) = false := by
    rw [inMsix, hmod, decide_eq_false (show ¬0x8000 ≤ modOffset v by omega), Bool.and_false, Bool.false_and]
  rw [fieldNow, if_neg (Bool.eq_false_iff.mp hdata), if_neg (Bool.eq_false_iff.mp htable)]

theorem narrowWord_moderation : NarrowWord (tenantBase t + modOffset v) [rwField 0 9 1, rwField 16 10 0] := by
  obtain ⟨haligned, hlow, hhigh⟩ := modOffset_range hv
  rw [← tenantFields_modOffset hv]
  exact narrowWord_tenant ht (by omega) haligned (.inr (.inr (by omega))) fun _ => .inr (.inr (by omega))

/-- Both fields count where they change. -/
theorem counted_moderation (hn : n < 512) (hk : k < 1024) :
    counted s (tenantBase t + modOffset v) 4 (n + k * 2 ^ 16) = changedFields t v n k s := by
  have hword : (n + k * 2 ^ 16) % 2 ^ 32 = n + k * 2 ^ 16 := Nat.mod_eq_of_lt (by omega)
  have hcount : bitsOf (n + k * 2 ^ 16) 0 9 = n := by
    rw [bitsOf]
    omega
  have htime : bitsOf (n + k * 2 ^ 16) 16 10 = k := by
    rw [bitsOf]
    omega
  have hcover : coverWrite s (tenantBase t + modOffset v) 4 (n + k * 2 ^ 16) = [countField t v n k] ++ [timeField t v n k] := by
    rw [(narrowWord_moderation ht hv).coverWrite_eq, hword, coverWord, (narrowWord_moderation ht hv).fields]
    simp only [List.map_cons, List.map_nil, rwField, hcount, htime, countField, timeField, List.singleton_append]
  have hcounts : counts s (countField t v n k) = decide (n ≠ s.modCount t v) := by
    simp [counts, countField, rwField, mailboxClosed_tenant, fieldNow_moderation ht hv, modCount_eq_reg, eq_comm]
  have htimes : counts s (timeField t v n k) = decide (k ≠ s.modTime t v) := by
    simp [counts, timeField, rwField, mailboxClosed_tenant, fieldNow_moderation ht hv, modTime_eq_reg, eq_comm]
  rw [counted, hcover, List.filter_append, List.filter_singleton, List.filter_singleton, hcounts, htimes, Bool.cond_decide,
    Bool.cond_decide, changedFields]

/-- A field of the word is the tenant's own (Table 18-1), and only a reset in progress or a MOD_COUNT outside 1 to 256 refuses it. -/
theorem coveredKind_moderation {f : Covered} (haddr : f.addr = tenantBase t + modOffset v) (hkind : f.field.kind = .rw)
    (hidle : (s.tenant t).resetPending = false) :
    coveredKind (ownPath t) s f = if f.field.lsb = 0 ∧ (f.value = 0 ∨ 256 < f.value) then 7 else 0 := by
  obtain ⟨-, hlow, hhigh⟩ := modOffset_range hv
  have hprovider : providerField (modOffset v) = false := by
    rw [providerField, decide_eq_false (show modOffset v ≠ 0x10 by omega), decide_eq_false (show modOffset v ≠ 0x18 by omega),
      decide_eq_false (show ¬modOffset v < 0x2200 by omega), Bool.and_false]
    rfl
  have hpath : pathKind (ownPath t) t (modOffset v) = 0 := by
    unfold ownPath
    split
    next hzero => simp [pathKind, hzero]
    next => simp [pathKind, hprovider]
  have hqp : ¬modOffset v < 0x1100 := by omega
  have hwindow : ¬modOffset v < 0x2200 := by omega
  rw [coveredKind_tenant ht (by omega) haddr, hpath]
  simp [tenantKind, hidle, hkind, hqp, hlow, hhigh, hwindow]

/-- A field of the word that passes is set, and the vector is moderated at once (R435). -/
theorem applyField_moderation (x b : Nat) : applyField path (tenantBase t + modOffset v) lsb x b s =
    moderate t v (setReg (tenantBase t + modOffset v) lsb x s) := by
  obtain ⟨hin, hof, hmod⟩ := modOffset_place ht hv
  obtain ⟨-, hlow, hhigh⟩ := modOffset_range hv
  have hvector : (modOffset v - 0x3100) / 4 = v := by
    rw [modOffset]
    omega
  rw [applyField, if_pos hin, applyTenant, hof, hmod, hvector]
  simp (disch := omega) only [if_neg, if_pos]
  rfl

end Word

/-! ## The command -/

/-- The state with other registers and halves. -/
def withRegs (r h : FMap Nat) (s : State) : State := { s with regs := r, halves := h }

/-- What a write of a vector's thresholds does: the registers hold them, and the vector is moderated by them. -/
def ThresholdsSet (t v n k : Nat) (s x : State) : Prop :=
  ∃ r h, (withRegs r h s).modCount t v = n ∧ (withRegs r h s).modTime t v = k ∧ ModeratedBy t v (withRegs r h s) x

section Registers

variable {a : Nat} (ha : a = tenantBase t + modOffset v)
include ha

theorem modCount_setReg_count : (setReg a 0 n s).modCount t v = n := by
  rw [modCount_eq_reg, ← ha]
  exact Laws.reg_setReg_self s a 0 n 1

theorem modTime_setReg_time : (setReg a 16 k s).modTime t v = k := by
  rw [modTime_eq_reg, ← ha]
  exact Laws.reg_setReg_self s a 16 k 0

theorem modCount_setReg_time : (setReg a 16 k s).modCount t v = s.modCount t v := by
  rw [modCount_eq_reg, modCount_eq_reg, ← ha]
  exact Laws.reg_setReg_other s k 1 (by rw [fieldKey, fieldKey]; omega)

theorem modTime_setReg_count : (setReg a 0 n s).modTime t v = s.modTime t v := by
  rw [modTime_eq_reg, modTime_eq_reg, ← ha]
  exact Laws.reg_setReg_other s n 0 (by rw [fieldKey, fieldKey]; omega)

end Registers

theorem mem_changedFields {c : Covered} (h : c ∈ changedFields t v n k s) : c = countField t v n k ∨ c = timeField t v n k := by
  rcases List.mem_append.mp h with h | h
  · exact .inl (by simpa using (List.mem_ite_nil_right.mp h).2)
  · exact .inr (by simpa using (List.mem_ite_nil_right.mp h).2)

/-- Each new threshold set, and the vector moderated after each, leaves the new thresholds and has fired by them at most once. -/
theorem thresholdsSet_of_changed {a : Nat} (ha : a = tenantBase t + modOffset v) (h : n ≠ s.modCount t v ∨ k ≠ s.modTime t v) :
    ThresholdsSet t v n k s
      (forEach (changedFields t v n k s) (fun c x => moderate t v (setReg a c.field.lsb c.value x)) (halfDropped a s)) := by
  let y := halfDropped a s
  rw [changedFields]
  by_cases hn : n = s.modCount t v
  · have hk : k ≠ s.modTime t v := h.resolve_left (not_not.mpr hn)
    rw [if_neg (not_not.mpr hn), if_pos hk]
    let z := setReg a 16 k y
    exact ⟨z.regs, z.halves, (modCount_setReg_time ha).trans hn.symm, modTime_setReg_time ha, moderate_moderatedBy⟩
  rw [if_pos hn]
  by_cases hk : k = s.modTime t v
  · rw [if_neg (not_not.mpr hk)]
    let z := setReg a 0 n y
    exact ⟨z.regs, z.halves, modCount_setReg_count ha, (modTime_setReg_count ha).trans hk.symm, moderate_moderatedBy⟩
  · rw [if_pos hk]
    let z := setReg a 16 k (setReg a 0 n y)
    exact ⟨z.regs, z.halves, (modCount_setReg_time ha).trans (modCount_setReg_count ha), modTime_setReg_time ha,
      moderate_setReg_moderatedBy (t := t) (v := v) (s := setReg a 0 n y) (lsb := 16) a k⟩

section Word

variable (ht : t < 256) (hv : v < 64) (hidle : (s.tenant t).resetPending = false)
include ht hv hidle

theorem coveredKind_timeField : coveredKind (ownPath t) s (timeField t v n k) = 0 :=
  (coveredKind_moderation ht hv rfl rfl hidle).trans (if_neg fun ⟨hlsb, _⟩ => Nat.succ_ne_zero 15 hlsb)

theorem coveredKind_countField_of_inside (hlow : 1 ≤ n) (hhigh : n ≤ 256) : coveredKind (ownPath t) s (countField t v n k) = 0 :=
  (coveredKind_moderation ht hv rfl rfl hidle).trans (if_neg fun ⟨_, hrange⟩ => by
    change n = 0 ∨ 256 < n at hrange
    omega)

theorem coveredKind_countField_of_outside (h : n = 0 ∨ 256 < n) : coveredKind (ownPath t) s (countField t v n k) = 7 :=
  (coveredKind_moderation ht hv rfl rfl hidle).trans (if_pos ⟨rfl, h⟩)

/-- A write of thresholds in their range, at least one of them new, sets them and moderates the vector (R435). -/
theorem writeFields_moderation {off : Nat} (hlow : 1 ≤ n) (hhigh : n ≤ 256) (hk : k < 1024)
    (hchanged : n ≠ s.modCount t v ∨ k ≠ s.modTime t v) :
    ThresholdsSet t v n k s (writeFields (ownPath t) off (tenantBase t + modOffset v) 4 (n + k * 2 ^ 16) s) := by
  have hcounted := counted_moderation (s := s) ht hv (show n < 512 by omega) hk
  have hpass : ∀ c ∈ changedFields t v n k s, coveredKind (ownPath t) s c = 0 := fun c hc => by
    rcases mem_changedFields hc with rfl | rfl
    · exact coveredKind_countField_of_inside ht hv hidle hlow hhigh
    · exact coveredKind_timeField ht hv hidle
  have happly (b : Nat) : ∀ c ∈ changedFields t v n k s, ∀ x, applyField (ownPath t) c.addr c.field.lsb c.value b x =
      moderate t v (setReg (tenantBase t + modOffset v) c.field.lsb c.value x) := fun c hc x => by
    rcases mem_changedFields hc with rfl | rfl
    · exact applyField_moderation ht hv n b
    · exact applyField_moderation ht hv k b
  rw [writeFields_of_passing (by rwa [hcounted]), hcounted]
  have hset := thresholdsSet_of_changed (s := s) rfl hchanged
  rwa [forEach, List.foldl_ext _ _ _ fun x c hc => (happly _ c hc x).symm] at hset

/-- A MOD_COUNT outside 1 to 256 is refused with kind 7 (R435). -/
theorem writeFields_moderation_refused {off : Nat} (hn : n < 512) (hrange : n = 0 ∨ 256 < n) (hcount : n ≠ s.modCount t v)
    (hk : k < 1024) (htime : k = s.modTime t v) : writeFields (ownPath t) off (tenantBase t + modOffset v) 4 (n + k * 2 ^ 16) s =
      refuseWrite (ownPath t) off 7 (halfDropped (tenantBase t + modOffset v) s) := by
  have hcounted : counted s (tenantBase t + modOffset v) 4 (n + k * 2 ^ 16) = [countField t v n k] := by
    rw [counted_moderation ht hv hn hk, changedFields, if_pos hcount, if_neg (not_not.mpr htime)]
    rfl
  exact writeFields_of_refused hcounted (coveredKind_countField_of_outside ht hv hidle hrange) (by decide)

end Word

/-- The command writes the vector's word on the tenant's own path. -/
theorem exec_moderationWrite_of_exposed (ht : t < 256) (hv : v < 64) (hn : n < 512) (hk : k < 1024) (hexposed : s.exposed = true) :
    exec (.moderationWrite (ownPath t) t v n k) s = .next
      (writeFields (ownPath t) (pathOffset (ownPath t) t (modOffset v)) (tenantBase t + modOffset v) 4 (n + k * 2 ^ 16) s) := by
  have hwf : (Instr.moderationWrite (ownPath t) t v n k).wf = true := by simp [Instr.wf, wf_ownPath ht, tenantOk, ht, hv]
  have hword : n % 2 ^ 9 + k % 2 ^ 10 * 2 ^ 16 = n + k * 2 ^ 16 := by omega
  obtain ⟨haligned, -⟩ := modOffset_range hv
  rw [Laws.exec_moderationWrite hwf, Laws.whenExposed_yes s hexposed, hword, ← modOffset,
    (narrowWord_moderation ht hv).writeTenantWord_eq (pathReaches_ownPath t) haligned]

/-- Settles O18: the vector fires by the thresholds that the write leaves, and a count outside its range sets nothing. -/
theorem moderationWriteTakesEffectAtOnce : Obligations.ModerationWriteTakesEffectAtOnce := by
  intro t v n k s ht hv hn hk hexposed hidle
  rw [exec_moderationWrite_of_exposed ht hv hn hk hexposed]
  refine ⟨fun hlow hhigh hchanged => ?_, fun hcount hrange htime => ?_⟩
  · have hset := writeFields_moderation (off := pathOffset (ownPath t) t (modOffset v)) ht hv hidle hlow hhigh hk hchanged
    generalize writeFields _ _ _ _ _ _ = x at hset ⊢
    obtain ⟨r, h, rfl, rfl, ⟨hunmet, rfl⟩ | ⟨hpending, rfl⟩⟩ := hset
    · exact ⟨_, rfl, rfl, rfl,
        fun hpending hdue => absurd (moderationMet_of_due (s := withRegs r h s) hpending hdue) (Bool.eq_false_iff.mp hunmet), fun _ => ⟨rfl, rfl⟩, fun _ _ => rfl, fun _ _ => rfl, rfl⟩
    · have hframe : InterruptsOnly (withRegs r h s) (fireVector t v (withRegs r h s)) := fireVector_interruptsOnly
      have hregs := congrArg State.regs hframe
      have hhalves := congrArg State.halves hframe
      refine ⟨_, rfl, (congrArg (fun z : State => z.modCount t v) hframe :), (congrArg (fun z : State => z.modTime t v) hframe :),
        fun _ _ => fireVector_fired, fun hnone => absurd hnone hpending, fun _ => fireVector_vector_other,
        fun _ => fireVector_tenant_other, ?_⟩
      rw [hregs, hhalves]
      exact hframe
  · rw [writeFields_moderation_refused ht hv hidle hn hrange hcount hk htime]
    refine ⟨_, rfl, congrArg (fun r => fmGet r _ 1) refuseWrite_regs, ?_⟩
    rw [refuseWrite_halves]
    rfl

end Sys2Proof.Machine
end

section
/-! PROOFS. Owed messages (R435, R457): what sending one vector's owed message changes, and a pass over the vectors that sends each once. -/

namespace Sys2Proof.Machine

variable {t v : Nat} {s : State}

/-! ## One vector -/

/-- A vector's message is owed and can be sent (R457). -/
def owes (t : Nat) (s : State) (v : Nat) : Bool := (s.vector t v).pba && sendable (s.tenant t) v

/-- The owed message of one vector goes out, if it has one that can be sent. -/
def sendVector (t : Nat) (s : State) (v : Nat) : State :=
  if owes t s v then modVector t v (fun e => { e with pba := false }) (sendMsix t v s) else s

theorem sendOwed_eq_foldl (t : Nat) (s : State) : sendOwed t s = (List.range 64).foldl (sendVector t) s := rfl

theorem owedVectors_eq_filter (s : State) (t : Nat) : owedVectors s t = (List.range 64).filter (owes t s) := rfl

theorem sendVector_of_not_owes (h : owes t s v = false) : sendVector t s v = s := if_neg (Bool.eq_false_iff.mp h)

theorem sendVector_of_owes (h : owes t s v = true) :
    sendVector t s v = modVector t v (fun e => { e with pba := false }) (sendMsix t v s) := if_pos h

/-- Sending a vector's message leaves the other vectors as they were. -/
theorem sendVector_vector_other {w : Nat} (h : w ≠ v) : (sendVector t s v).vector t w = s.vector t w := by
  unfold sendVector
  split
  · exact vector_modVector_other _ h
  · rfl

/-- Sending a vector's message clears the PBA bit of one that owes it; all else of the vector stands. -/
theorem sendVector_vector_self : (sendVector t s v).vector t v = { s.vector t v with pba := (s.vector t v).pba && !owes t s v } := by
  cases h : owes t s v with
  | true =>
    rw [sendVector_of_owes h, vector_modVector_self, Bool.not_true, Bool.and_false]
    rfl
  | false => rw [sendVector_of_not_owes h, Bool.not_false, Bool.and_true]

theorem sendVector_interruptsOnly : InterruptsOnly s (sendVector t s v) := by
  unfold sendVector
  split <;> rfl

theorem sendVector_tenant_other {u : Nat} (h : u ≠ t) : (sendVector t s v).tenant u = s.tenant u := by
  unfold sendVector
  split
  · exact tenant_modVector_other _ h
  · rfl

/-- Whether a vector can be sent rests on its function's enable and masks alone. -/
theorem sendable_eq (s : State) (t v : Nat) :
    sendable (s.tenant t) v = ((s.tenant t).msixEnable && !(s.tenant t).functionMask && !(s.vector t v).masked) := rfl

theorem sendVector_enable : ((sendVector t s v).tenant t).msixEnable = (s.tenant t).msixEnable ∧
    ((sendVector t s v).tenant t).functionMask = (s.tenant t).functionMask := by
  unfold sendVector
  split
  · rw [modVector, Laws.tenant_modTenant_self]
    exact ⟨rfl, rfl⟩
  · exact ⟨rfl, rfl⟩

theorem owes_sendVector_other {w : Nat} (h : w ≠ v) : owes t (sendVector t s v) w = owes t s w := by
  obtain ⟨henable, hmask⟩ := sendVector_enable (t := t) (s := s) (v := v)
  rw [owes, owes, sendable_eq, sendable_eq, sendVector_vector_other h, henable, hmask]

/-- Sending leaves every vector's address and data. -/
theorem messageOf_sendVector (w : Nat) : messageOf (sendVector t s v) t w = messageOf s t w := by
  by_cases h : w = v
  · subst h
    rw [messageOf, sendVector_vector_self]
    rfl
  · rw [messageOf, sendVector_vector_other h]
    rfl

theorem sendVector_out : (sendVector t s v).out =
    { s.out with msix := (([v].filter (owes t s)).map (messageOf s t)).reverse ++ s.out.msix } := by
  cases h : owes t s v with
  | true =>
    rw [sendVector_of_owes h, List.filter_cons_of_pos h]
    rfl
  | false =>
    rw [sendVector_of_not_owes h, List.filter_cons_of_neg (Bool.eq_false_iff.mp h)]
    rfl

/-! ## A pass over the vectors -/

/-- What sending one vector's message leaves of the vectors after it that owe one. -/
theorem filter_owes_sendVector {l : List Nat} (h : v ∉ l) : l.filter (owes t (sendVector t s v)) = l.filter (owes t s) :=
  List.filter_congr fun _ hw => owes_sendVector_other (ne_of_mem_of_not_mem hw h)

/-- A pass over the vectors sends the message of each that owes one, in the order of the pass. -/
theorem foldl_sendVector_out {l : List Nat} (hl : l.Nodup) (s : State) : (l.foldl (sendVector t) s).out =
    { s.out with msix := ((l.filter (owes t s)).map (messageOf s t)).reverse ++ s.out.msix } := by
  induction l generalizing s with
  | nil => rfl
  | cons v l ih =>
    obtain ⟨hv, hl⟩ := List.nodup_cons.mp hl
    have hmessages : messageOf (sendVector t s v) t = messageOf s t := funext messageOf_sendVector
    rw [List.foldl_cons, ih hl, filter_owes_sendVector hv, hmessages, sendVector_out]
    simp only [← List.append_assoc, ← List.reverse_append, ← List.map_append, ← List.filter_append, List.singleton_append]

/-- A pass over the vectors clears the PBA bits of those that owed a message, and nothing else of any vector. -/
theorem foldl_sendVector_vector {l : List Nat} (hl : l.Nodup) (s : State) (w : Nat) : (l.foldl (sendVector t) s).vector t w =
    { s.vector t w with pba := (s.vector t w).pba && !(l.filter (owes t s)).contains w } := by
  induction l generalizing s with
  | nil => simp
  | cons v l ih =>
    obtain ⟨hv, hl⟩ := List.nodup_cons.mp hl
    rw [List.foldl_cons, ih hl, filter_owes_sendVector hv]
    by_cases h : w = v
    · subst h
      rw [sendVector_vector_self]
      cases howes : owes t s w <;> simp [howes, hv]
    · rw [sendVector_vector_other h]
      cases howes : owes t s v <;> simp [howes, h]

/-- A pass over the vectors of a tenant leaves the other tenants. -/
theorem foldl_sendVector_tenant_other {u : Nat} (h : u ≠ t) (l : List Nat) (s : State) :
    (l.foldl (sendVector t) s).tenant u = s.tenant u := by
  induction l generalizing s with
  | nil => rfl
  | cons v l ih => exact (ih _).trans (sendVector_tenant_other h)

theorem foldl_sendVector_interruptsOnly (l : List Nat) (s : State) : InterruptsOnly s (l.foldl (sendVector t) s) := by
  induction l generalizing s with
  | nil => rfl
  | cons v l ih => exact sendVector_interruptsOnly.trans (ih _)

/-! ## The command -/

/-- A change of the capability or of a table entry, before what it makes sendable is sent (R437). -/
def changedMsix (t : Nat) (c : MsixChange) (s : State) : State :=
  match c with
  | .capability enable mask => modTenant t (fun x => { x with msixEnable := enable, functionMask := mask }) s
  | .entry v address data masked => modVector t v (fun e => { e with address := address, data := data, masked := masked }) s

/-- A change leaves what is pending and what is owed; it is the tenant's alone. -/
theorem changedMsix_vector (t : Nat) (c : MsixChange) (s : State) (v : Nat) :
    ((changedMsix t c s).vector t v).pending = (s.vector t v).pending ∧ ((changedMsix t c s).vector t v).pba = (s.vector t v).pba := by
  cases c with
  | capability enable mask =>
    rw [changedMsix, State.vector, Laws.tenant_modTenant_self]
    exact ⟨rfl, rfl⟩
  | entry w address data masked =>
    by_cases h : v = w
    · subst h
      rw [changedMsix, vector_modVector_self]
      exact ⟨rfl, rfl⟩
    · rw [changedMsix, vector_modVector_other _ h]
      exact ⟨rfl, rfl⟩

theorem changedMsix_tenant_other {c : MsixChange} {u : Nat} (h : u ≠ t) : (changedMsix t c s).tenant u = s.tenant u := by
  cases c with
  | _ => exact Laws.tenant_modTenant_other s _ h

theorem changedMsix_interruptsOnly {c : MsixChange} : InterruptsOnly s (changedMsix t c s) := by
  cases c with
  | _ => rfl

theorem changedMsix_out {c : MsixChange} : (changedMsix t c s).out = s.out := by
  cases c with
  | _ => rfl

theorem exec_msixUnmask_of_exposed {c : MsixChange} (ht : t < 256) (hc : c.wf = true) (hexposed : s.exposed = true)
    (hidle : (s.tenant t).resetPending = false) : exec (.msixUnmask t c) s = .next (sendOwed t (changedMsix t c s)) := by
  have hwf : (Instr.msixUnmask t c).wf = true := by simp [Instr.wf, tenantOk, ht, hc]
  rw [Laws.exec_msixUnmask hwf, Laws.whenExposed_yes s hexposed]
  cases c with
  | capability enable mask => rfl
  | entry v address data masked => exact congrArg Host.Outcome.next (if_neg (Bool.eq_false_iff.mp hidle))

/-- Settles O20: the pass over the 64 vectors, on the state that the change leaves. -/
theorem unmaskedVectorsSendEachOwedMessageOnce : Obligations.UnmaskedVectorsSendEachOwedMessageOnce := by
  intro t c s ht hc hexposed hidle changed
  have hchanged : changed = changedMsix t c s := by
    cases c with
    | _ => rfl
  rw [exec_msixUnmask_of_exposed ht hc hexposed hidle, ← changedMsix_out (t := t) (s := s) (c := c), hchanged, sendOwed_eq_foldl]
  refine ⟨_, rfl, foldl_sendVector_out List.nodup_range _, fun v => ?_,
    fun u hu => (foldl_sendVector_tenant_other hu _ _).trans (changedMsix_tenant_other hu),
    changedMsix_interruptsOnly.trans (foldl_sendVector_interruptsOnly _ _)⟩
  obtain ⟨hpending, hpba⟩ := changedMsix_vector t c s v
  rw [foldl_sendVector_vector List.nodup_range, ← owedVectors_eq_filter, hpending, hpba]
  exact ⟨rfl, rfl⟩

end Sys2Proof.Machine
end
